-- ==== Sys2Proof/Word.lean ====
section
/-! DEFINITION. The words of the hub: bytes of a control link, 16-bit halves, 32-bit store words, 24-bit samples as they
stand on a wire, store addresses, and the unit of time. -/

namespace Sys2Proof

/-- One byte of a control-link frame (R182). -/
abbrev Byte := BitVec 8

/-- A 16-bit quantity: half of a store word (R102, R153), or a two-byte operand (section 12.1). -/
abbrev Half := BitVec 16

/-- A word of the Sample Store, and a slot of the ports P0 and P1: 32 bits (R3, R4, R169). -/
abbrev Word := BitVec 32

/-- A word address of the Sample Store. The store has 16,777,216 words (R169), exactly the 24-bit numbers, so no address
outside the store can be written down. -/
abbrev Addr := BitVec 24

/-- A 24-bit sample as the demodulator or a TDM slot delivers it (R1). Inside the blocks a sample is an `Int`. -/
abbrev WireSample := BitVec 24

/-- A moment or a duration, in millionths of the 48 kHz sample period: 48,000 units are 1 µs (log entry 1). -/
abbrev Time := Nat

end Sys2Proof
end

