-- ==== Sys2Proof/Syntax.lean ====
section
/-! DEFINITION. The commands of the hub: one constructor for each row of spec/opcode_table.json. An order of a control link
carries its link and its request frame as clocked in (R182), so that every check of R184 and R200 is the model's; an event
carries what the outside world supplies with it (a measurement, a sample set, a data group, the loads of a jack). -/

namespace Sys2Proof

/-- The four control links (section 12.1: COCKPIT 0, TELEPHONY 1, REAR 2, BODY 3). -/
inductive Link where
  | cockpit | telephony | rear | body
deriving DecidableEq, Repr

/-- The three TDM input ports that have a rate tracker (R3, R4, R5). -/
inductive Port where
  | p0 | p1 | p2
deriving DecidableEq, Repr

/-- The two tuners. -/
inductive TunerId where
  | a | b
deriving DecidableEq, Repr

/-- The two rear stations. -/
inductive StationId where
  | one | two
deriving DecidableEq, Repr

/-- What follows the order code in a request frame: the declared operand length and the whole bytes clocked in after the two
header bytes, which may be fewer or more than declared (R182, R184). -/
structure Frame where
  len : Byte
  bytes : List Byte
deriving DecidableEq, Repr

/-- A tuner measurement (R68): received level 0..120, multipath 0..100, adjacent-channel interference 0..100. -/
structure Meas where
  level : Nat
  multipath : Nat
  adjacent : Nat
deriving DecidableEq, Repr

/-- The payload of a good station data group (R72). A frequency is in kHz; one beyond the count is not carried. -/
inductive Payload where
  | name (segment : Fin 4) (c0 c1 : Byte)
  | alternates (count position f0 f1 : Nat)
deriving DecidableEq, Repr

/-- A good station data group (R72). -/
structure DataGroup where
  identity : Half
  tp : Bool
  ta : Bool
  payload : Payload
deriving DecidableEq, Repr

/-- One frame of a TDM port, that is, one sample set (R3, R4, R5): raw slots, a 24-bit sample in the first 24 bits of a
32-bit slot, or a 16-bit sample on P2. -/
inductive PortFrame where
  | cockpit (s0 s1 s2 s3 : Word)
  | rear (s0 s1 : Word)
  | telephony (s : Half)
deriving DecidableEq, Repr

/-- What the hub's own inputs bring to one frame event: 48 demodulated stereo samples of each tuner before blending (R7,
R71), for each of M0..M3 the number of ones in each of 16 groups of 192 microphone bits (R6), and for each jack 16 samples of
its microphone contact (R146). -/
structure FrameInput where
  demodA : List (WireSample × WireSample)
  demodB : List (WireSample × WireSample)
  mics : List (List (Fin 193))
  jacks : List (List Half)
deriving DecidableEq, Repr

/-- A select period of a link in which no order is taken, with the number of whole bytes clocked in it (R182, R183). -/
structure SelectPeriod where
  link : Link
  bytes : Nat
deriving DecidableEq, Repr

/-- The commands. Every constructor is a row of the table. -/
inductive Instr where
  -- orders of the control links
  | claim (l : Link) (f : Frame)
  | release (l : Link) (f : Frame)
  | amend (l : Link) (f : Frame)
  | setProgram (l : Link) (f : Frame)
  | setVolume (l : Link) (f : Frame)
  | setTrim (l : Link) (f : Frame)
  | setDelay (l : Link) (f : Frame)
  | setSpeedCurve (l : Link) (f : Frame)
  | speed (l : Link) (f : Frame)
  | muteSet (l : Link) (f : Frame)
  | muteClear (l : Link) (f : Frame)
  | tuneA (l : Link) (f : Frame)
  | seekA (l : Link) (f : Frame)
  | presetStore (l : Link) (f : Frame)
  | presetRecall (l : Link) (f : Frame)
  | scanPolicy (l : Link) (f : Frame)
  | afPolicy (l : Link) (f : Frame)
  | listRead (l : Link) (f : Frame)
  | trafficMode (l : Link) (f : Frame)
  | pause (l : Link) (f : Frame)
  | resume (l : Link) (f : Frame)
  | goLive (l : Link) (f : Frame)
  | shiftPolicy (l : Link) (f : Frame)
  | callState (l : Link) (f : Frame)
  | callPlace (l : Link) (f : Frame)
  | micSelect (l : Link) (f : Frame)
  | micMuteSet (l : Link) (f : Frame)
  | micMuteClear (l : Link) (f : Frame)
  | callVolume (l : Link) (f : Frame)
  | stationSource (l : Link) (f : Frame)
  | stationTune (l : Link) (f : Frame)
  | stationVolume (l : Link) (f : Frame)
  | stationSwap (l : Link) (f : Frame)
  | jackMeasure (l : Link) (f : Frame)
  | stationCap (l : Link) (f : Frame)
  | rearLock (l : Link) (f : Frame)
  | chimeDefine (l : Link) (f : Frame)
  | chimeStart (l : Link) (f : Frame)
  | chimeStop (l : Link) (f : Frame)
  | chimeRenew (l : Link) (f : Frame)
  | chimeStopAll (l : Link) (f : Frame)
  | chimeRead (l : Link) (f : Frame)
  | storeOpen (l : Link) (f : Frame)
  | storeData (l : Link) (f : Frame)
  | storeClose (l : Link) (f : Frame)
  | regionSet (l : Link) (f : Frame)
  | rightsSet (l : Link) (f : Frame)
  | watchSet (l : Link) (f : Frame)
  | watchClear (l : Link) (f : Frame)
  | eventsRead (l : Link) (f : Frame)
  | statusRead (l : Link) (f : Frame)
  | power (l : Link) (f : Frame)
  | wakeSet (l : Link) (f : Frame)
  | linkReset (l : Link) (f : Frame)
  | hubReset (l : Link) (f : Frame)
  /-- A request whose order code names no order. -/
  | unknownOrder (l : Link) (code : Byte) (f : Frame)
  -- the other events of the frame exchange; a null frame has fewer than two bytes
  | nullFrame (p : SelectPeriod)
  | wait (p : SelectPeriod)
  | replyReady (l : Link)
  -- power and start-up; `powerOn` carries the levels of the ignition sense and of the two jack sense switches
  | powerOn (ignition jack1 jack2 : Bool)
  | storeReady
  | ignitionRise
  | refreshTimerExpiry
  -- ports and mix; `frameSync` carries the time since the port's previous frame sync and the frame that it ends
  | frameEvent (x : FrameInput)
  | frameSync (gap : Time) (set : PortFrame)
  | overdueSlip (p : Port)
  | acquireGiveUp (p : Port)
  | holdoverTimeout (p : Port)
  | clipGuardRelease (sink : Fin 20)
  | delayFadeOutEnd (sink : Fin 20)
  | delayFadeInEnd (sink : Fin 20)
  | speedStale
  -- tuners; an event at which a measurement falls due carries it
  | tunerMeasurement (t : TunerId) (m : Meas)
  | settleEnd (t : TunerId) (m : Meas)
  | seekChannelEnd (m : Option Meas)
  | afPrefadeEnd
  | afCheckMeasurement (m : Meas)
  | afGapEnd
  | afVerifyTimeout
  | dataGroup (t : TunerId) (g : DataGroup)
  | dataTimeout (t : TunerId)
  | sweepChannelEnd (m : Option Meas)
  | rejectionTick
  | aEligibleExpiry
  | replayDrained
  | memoReplayEnd
  | windowJudged
  -- jacks and chimes
  | jackInsertion (st : StationId)
  | jackRemoval (st : StationId)
  | measurementComplete (st : StationId) (load1 load2 : Nat) (mic : Bool)
  | graceExpiry (st : StationId)
  | voicePlayEnd (v : Fin 4)
  | gapEnd (v : Fin 4)
  | deadlineExpiry (v : Fin 4)
  | voiceIdle (v : Fin 4)
deriving DecidableEq, Repr

end Sys2Proof
end

