-- ==== Sys2Proof/WellFormed.lean ====
section
/-! DEFINITION. What makes a command well formed: the ranges that the manual gives for what the outside world brings with an event.
A request frame is well formed whatever bytes it carries, since the Link Block judges them (R184). -/

namespace Sys2Proof

/-- The codes that name an order (section 12.2). -/
def orderCodes : List Nat :=
  [16, 17, 18, 32, 33, 34, 35, 36, 37, 38, 39, 48, 49, 50] ++
  [51, 52, 53, 54, 64, 65, 66, 67, 68, 80, 81, 82, 83, 84] ++
  [85, 96, 97, 98, 99, 100, 101, 102, 112, 113, 114, 115, 116, 117] ++
  [128, 129, 130, 131, 132, 144, 145, 146, 147, 160, 161, 176, 177]

/-- R68. -/
def Meas.wf (m : Meas) : Bool := decide (m.level ≤ 120) && decide (m.multipath ≤ 100) && decide (m.adjacent ≤ 100)

def wfOptional : Option Meas → Bool
  | some m => m.wf
  | none => true

/-- R72: an alternate list holds 0..8 frequencies. -/
def Payload.wf : Payload → Bool
  | .name _ _ _ => true
  | .alternates count _ _ _ => decide (count ≤ 8)

def DataGroup.wf (g : DataGroup) : Bool := g.payload.wf

/-- R2, R6, R146: 48 pairs of each tuner, and 16 samples of each microphone. -/
def FrameInput.wf (x : FrameInput) : Bool :=
  decide (x.demodA.length = 48) && decide (x.demodB.length = 48)
    && decide (x.mics.length = 4) && x.mics.all (fun m => decide (m.length = 16))
    && decide (x.jacks.length = 2) && x.jacks.all (fun m => decide (m.length = 16))

/-- A command that the outside world can send. -/
def Instr.wf : Instr → Bool
  | .claim _ _ => true
  | .release _ _ => true
  | .amend _ _ => true
  | .setProgram _ _ => true
  | .setVolume _ _ => true
  | .setTrim _ _ => true
  | .setDelay _ _ => true
  | .setSpeedCurve _ _ => true
  | .speed _ _ => true
  | .muteSet _ _ => true
  | .muteClear _ _ => true
  | .tuneA _ _ => true
  | .seekA _ _ => true
  | .presetStore _ _ => true
  | .presetRecall _ _ => true
  | .scanPolicy _ _ => true
  | .afPolicy _ _ => true
  | .listRead _ _ => true
  | .trafficMode _ _ => true
  | .pause _ _ => true
  | .resume _ _ => true
  | .goLive _ _ => true
  | .shiftPolicy _ _ => true
  | .callState _ _ => true
  | .callPlace _ _ => true
  | .micSelect _ _ => true
  | .micMuteSet _ _ => true
  | .micMuteClear _ _ => true
  | .callVolume _ _ => true
  | .stationSource _ _ => true
  | .stationTune _ _ => true
  | .stationVolume _ _ => true
  | .stationSwap _ _ => true
  | .jackMeasure _ _ => true
  | .stationCap _ _ => true
  | .rearLock _ _ => true
  | .chimeDefine _ _ => true
  | .chimeStart _ _ => true
  | .chimeStop _ _ => true
  | .chimeRenew _ _ => true
  | .chimeStopAll _ _ => true
  | .chimeRead _ _ => true
  | .storeOpen _ _ => true
  | .storeData _ _ => true
  | .storeClose _ _ => true
  | .regionSet _ _ => true
  | .rightsSet _ _ => true
  | .watchSet _ _ => true
  | .watchClear _ _ => true
  | .eventsRead _ _ => true
  | .statusRead _ _ => true
  | .power _ _ => true
  | .wakeSet _ _ => true
  | .linkReset _ _ => true
  | .hubReset _ _ => true
  | .unknownOrder _ c _ => !orderCodes.contains c.toNat
  | .nullFrame p => decide (p.bytes < 2)
  | .wait _ => true
  | .replyReady _ => true
  | .powerOn _ _ _ => true
  | .storeReady => true
  | .ignitionRise => true
  | .refreshTimerExpiry => true
  | .frameEvent x => x.wf
  | .frameSync gap _ => decide (0 < gap)
  | .overdueSlip _ => true
  | .acquireGiveUp _ => true
  | .holdoverTimeout _ => true
  | .clipGuardRelease _ => true
  | .delayFadeOutEnd _ => true
  | .delayFadeInEnd _ => true
  | .speedStale => true
  | .tunerMeasurement _ m => m.wf
  | .settleEnd _ m => m.wf
  | .seekChannelEnd m => wfOptional m
  | .afPrefadeEnd => true
  | .afCheckMeasurement m => m.wf
  | .afGapEnd => true
  | .afVerifyTimeout => true
  | .dataGroup _ g => g.wf
  | .dataTimeout _ => true
  | .sweepChannelEnd m => wfOptional m
  | .rejectionTick => true
  | .aEligibleExpiry => true
  | .replayDrained => true
  | .memoReplayEnd => true
  | .windowJudged => true
  | .jackInsertion _ => true
  | .jackRemoval _ => true
  | .measurementComplete _ _ _ _ => true
  | .graceExpiry _ => true
  | .voicePlayEnd _ => true
  | .gapEnd _ => true
  | .deadlineExpiry _ => true
  | .voiceIdle _ => true

end Sys2Proof
end

