-- ==== Sys2Proof/Decode.lean ====
section
/-! DEFINITION. How the bytes of a select period spell a command (R182, section 12.2, R201), total on any bytes, and the bytes of a
request. No row of the opcode table gives bits, so no word spells a command for `decodeTableWord`. -/

namespace Sys2Proof

/-- The order of a code (section 12.2), with the link and frame that carry it. -/
def orderOf : Nat → Option (Link → Frame → Instr)
  | 16 => some .claim
  | 17 => some .release
  | 18 => some .amend
  | 32 => some .setProgram
  | 33 => some .setVolume
  | 34 => some .setTrim
  | 35 => some .setDelay
  | 36 => some .setSpeedCurve
  | 37 => some .speed
  | 38 => some .muteSet
  | 39 => some .muteClear
  | 48 => some .tuneA
  | 49 => some .seekA
  | 50 => some .presetStore
  | 51 => some .presetRecall
  | 52 => some .scanPolicy
  | 53 => some .afPolicy
  | 54 => some .listRead
  | 64 => some .trafficMode
  | 65 => some .pause
  | 66 => some .resume
  | 67 => some .goLive
  | 68 => some .shiftPolicy
  | 80 => some .callState
  | 81 => some .callPlace
  | 82 => some .micSelect
  | 83 => some .micMuteSet
  | 84 => some .micMuteClear
  | 85 => some .callVolume
  | 96 => some .stationSource
  | 97 => some .stationTune
  | 98 => some .stationVolume
  | 99 => some .stationSwap
  | 100 => some .jackMeasure
  | 101 => some .stationCap
  | 102 => some .rearLock
  | 112 => some .chimeDefine
  | 113 => some .chimeStart
  | 114 => some .chimeStop
  | 115 => some .chimeRenew
  | 116 => some .chimeStopAll
  | 117 => some .chimeRead
  | 128 => some .storeOpen
  | 129 => some .storeData
  | 130 => some .storeClose
  | 131 => some .regionSet
  | 132 => some .rightsSet
  | 144 => some .watchSet
  | 145 => some .watchClear
  | 146 => some .eventsRead
  | 147 => some .statusRead
  | 160 => some .power
  | 161 => some .wakeSet
  | 176 => some .linkReset
  | 177 => some .hubReset
  | _ => none

/-- The command that a select period of link `l` with these whole bytes carries: fewer than two are a null frame (R182). -/
def requestOf (l : Link) : List Byte → Instr
  | c :: n :: rest =>
    match orderOf c.toNat with
    | some mk => mk l ⟨n, rest⟩
    | none => .unknownOrder l c ⟨n, rest⟩
  | [_] => .nullFrame ⟨l, 1⟩
  | [] => .nullFrame ⟨l, 0⟩

/-- The code of an order, and the link and frame that carry it. -/
def Instr.request : Instr → Option (Byte × Link × Frame)
  | .claim l f => some (16, l, f)
  | .release l f => some (17, l, f)
  | .amend l f => some (18, l, f)
  | .setProgram l f => some (32, l, f)
  | .setVolume l f => some (33, l, f)
  | .setTrim l f => some (34, l, f)
  | .setDelay l f => some (35, l, f)
  | .setSpeedCurve l f => some (36, l, f)
  | .speed l f => some (37, l, f)
  | .muteSet l f => some (38, l, f)
  | .muteClear l f => some (39, l, f)
  | .tuneA l f => some (48, l, f)
  | .seekA l f => some (49, l, f)
  | .presetStore l f => some (50, l, f)
  | .presetRecall l f => some (51, l, f)
  | .scanPolicy l f => some (52, l, f)
  | .afPolicy l f => some (53, l, f)
  | .listRead l f => some (54, l, f)
  | .trafficMode l f => some (64, l, f)
  | .pause l f => some (65, l, f)
  | .resume l f => some (66, l, f)
  | .goLive l f => some (67, l, f)
  | .shiftPolicy l f => some (68, l, f)
  | .callState l f => some (80, l, f)
  | .callPlace l f => some (81, l, f)
  | .micSelect l f => some (82, l, f)
  | .micMuteSet l f => some (83, l, f)
  | .micMuteClear l f => some (84, l, f)
  | .callVolume l f => some (85, l, f)
  | .stationSource l f => some (96, l, f)
  | .stationTune l f => some (97, l, f)
  | .stationVolume l f => some (98, l, f)
  | .stationSwap l f => some (99, l, f)
  | .jackMeasure l f => some (100, l, f)
  | .stationCap l f => some (101, l, f)
  | .rearLock l f => some (102, l, f)
  | .chimeDefine l f => some (112, l, f)
  | .chimeStart l f => some (113, l, f)
  | .chimeStop l f => some (114, l, f)
  | .chimeRenew l f => some (115, l, f)
  | .chimeStopAll l f => some (116, l, f)
  | .chimeRead l f => some (117, l, f)
  | .storeOpen l f => some (128, l, f)
  | .storeData l f => some (129, l, f)
  | .storeClose l f => some (130, l, f)
  | .regionSet l f => some (131, l, f)
  | .rightsSet l f => some (132, l, f)
  | .watchSet l f => some (144, l, f)
  | .watchClear l f => some (145, l, f)
  | .eventsRead l f => some (146, l, f)
  | .statusRead l f => some (147, l, f)
  | .power l f => some (160, l, f)
  | .wakeSet l f => some (161, l, f)
  | .linkReset l f => some (176, l, f)
  | .hubReset l f => some (177, l, f)
  | .unknownOrder l c f => some (c, l, f)
  | .nullFrame _ => none
  | .wait _ => none
  | .replyReady _ => none
  | .powerOn _ _ _ => none
  | .storeReady => none
  | .ignitionRise => none
  | .refreshTimerExpiry => none
  | .frameEvent _ => none
  | .frameSync _ _ => none
  | .overdueSlip _ => none
  | .acquireGiveUp _ => none
  | .holdoverTimeout _ => none
  | .clipGuardRelease _ => none
  | .delayFadeOutEnd _ => none
  | .delayFadeInEnd _ => none
  | .speedStale => none
  | .tunerMeasurement _ _ => none
  | .settleEnd _ _ => none
  | .seekChannelEnd _ => none
  | .afPrefadeEnd => none
  | .afCheckMeasurement _ => none
  | .afGapEnd => none
  | .afVerifyTimeout => none
  | .dataGroup _ _ => none
  | .dataTimeout _ => none
  | .sweepChannelEnd _ => none
  | .rejectionTick => none
  | .aEligibleExpiry => none
  | .replayDrained => none
  | .memoReplayEnd => none
  | .windowJudged => none
  | .jackInsertion _ => none
  | .jackRemoval _ => none
  | .measurementComplete _ _ _ _ => none
  | .graceExpiry _ => none
  | .voicePlayEnd _ => none
  | .gapEnd _ => none
  | .deadlineExpiry _ => none
  | .voiceIdle _ => none

/-- The bytes of a request frame (section 12.1): order code, operand length, and the bytes that follow. -/
def Instr.requestBytes (i : Instr) : Option (List Byte) := i.request.map fun (c, _, f) => c :: f.len :: f.bytes

/-- The command that a word spells by the opcode table's bits: the table gives none of its rows any. -/
def decodeTableWord (_nbits _w : Nat) : Option Instr := none

end Sys2Proof
end

