-- ==== Sys2Proof/Config.lean ====
section
/-! DEFINITION. What the manual leaves open and no run of the model may settle: the free values. Nothing in Lean can evaluate
them, so a claim that holds holds whatever they are. -/

namespace Sys2Proof

/-- FREE VALUE (log entry 30). R177 says that a posted stream request is served before the next frame event, in the order of its
class, and not when. How long the request that stream requester `r` (0 capture, 1 replay, 2..5 the voices) posted at the moment
`posted` waits for the store, where no requester of its class that is served first makes it wait longer, is therefore open. Only
the store group of STATUS_READ (R181) shows it. -/
opaque Config.streamDelay (r : Nat) (posted : Time) : Time

/-- FREE VALUE (log entry 23). How long the ignition sense input, high from the moment `rise` on, stays high before it falls; none if it
does not fall. The fall has no row of the table, and no rule says when it comes. -/
opaque Config.ignitionStays (rise : Time) : Option Time

end Sys2Proof
end

