-- ==== Sys2Proof/Machine/State.lean ====
section
/-! DEFINITION. The state of the hub, block by block, as plain data, with the value each piece takes at power-on. Every field
cites the rule that names it. -/

namespace Sys2Proof.Machine

/-- What a link holds, one value for each of the four (section 10). -/
structure PerLink (α : Type) where
  cockpit : α
  telephony : α
  rear : α
  body : α
deriving DecidableEq, Repr

def PerLink.get {α : Type} (p : PerLink α) : Link → α
  | .cockpit => p.cockpit
  | .telephony => p.telephony
  | .rear => p.rear
  | .body => p.body

def PerLink.set {α : Type} (p : PerLink α) (l : Link) (a : α) : PerLink α :=
  match l with
  | .cockpit => { p with cockpit := a }
  | .telephony => { p with telephony := a }
  | .rear => { p with rear := a }
  | .body => { p with body := a }

def PerLink.all {α : Type} (a : α) : PerLink α := ⟨a, a, a, a⟩

/-- A set of links: bit n for the link of code n. -/
abbrev LinkSet := BitVec 4

/-- A set of zones: bit z for zone z (section 12.1). -/
abbrev ZoneSet := BitVec 7

/-! ## Names that several blocks share -/

/-- The seven zones (R15). -/
inductive Zone where
  | front | rear | cargo | sub | headrest | station1 | station2
deriving DecidableEq, Repr

/-- The side of a sink (R15, R16). -/
inductive Side where
  | left | right | sum
deriving DecidableEq, Repr

/-- The twelve sources (section 1.5). -/
inductive Source where
  | tunerA | tunerB | mediaFront | mediaRear | nav | callDown
  | voice (n : Fin 4)
  | shift | silence
deriving DecidableEq, Repr

/-- The tiers of claims (R18). -/
inductive Tier where
  | normal | call | urgent
deriving DecidableEq, Repr

inductive Kind where
  | exclusive | overlay
deriving DecidableEq, Repr

inductive Ramp where
  | slow | medium | fast
deriving DecidableEq, Repr

/-- The parties that post claims (R18). -/
inductive Claimant where
  | link (l : Link)
  | voice (n : Fin 4)
  | radio
  | call
deriving DecidableEq, Repr

inductive Band where
  | fm | mw
deriving DecidableEq, Repr

/-- A band and a frequency in kHz (R67). -/
structure Freq where
  band : Band
  khz : Nat
deriving DecidableEq, Repr

/-! ## Clock -/

/-- The model's clock (log entry 1): the moment reached, the moment at which the next frame event is due, and how many of the 48
sample periods before that event have been run. -/
structure Clock where
  now : Time
  frameDue : Time
  periods : Nat
deriving DecidableEq, Repr

/-! ## Port Block (chapter 1) -/

inductive TrackerState where
  | absent | acquire | locked | holdover
deriving DecidableEq, Repr

/-- A rate in Hz as an exact fraction. -/
structure Rate where
  num : Nat
  den : Nat
deriving DecidableEq, Repr

/-- A rate converter of R11: the elastic buffer of sample sets, oldest first, the started flag, the phase in 1/65,536 and the
conversion step. -/
structure Converter where
  buffer : List (List Int)
  started : Bool
  phase : Nat
  step : Nat
deriving DecidableEq, Repr

/-- A rate tracker (section 1.3), with its input converter and the sample sets it has delivered since the last frame event. -/
structure Tracker where
  state : TrackerState
  nominal : Option Nat
  estimate : Rate
  periods : List Time
  good : Nat
  slips : Nat
  /-- A sync has been met since which no overdue slip was counted: the next period is judged (R8). -/
  measuring : Bool
  /-- The moment of the last sync, and that of the last sync or overdue slip, from which the next overdue one is timed. -/
  lastSync : Time
  waitFrom : Time
  holdoverAt : Time
  conv : Converter
  delivered : List (List Int)
deriving DecidableEq, Repr

/-- What a tuner whose demodulator output is live makes of it in one sample period: its band (R67) and its separation (R71). -/
structure Heard where
  band : Band
  sep : Nat
deriving DecidableEq, Repr

structure Ports where
  p0 : Tracker
  p1 : Tracker
  p2 : Tracker
  /-- T0 and T1 (R7): for each sample period since the last frame event, how the tuner's output was heard, or none while it was
  zero (R14, R70). -/
  t0 : List (Option Heard)
  t1 : List (Option Heard)
  /-- P2's output direction (R5, R11): the uplink's converter, and the sample in the slot last sent, absent if none is sent. -/
  uplink : Converter
  uplinkSlot : Option Int
deriving DecidableEq, Repr

/-! ## Claim Table (chapter 2) -/

/-- A claim record (R18); its handle is its place in the table. -/
structure Claim where
  claimant : Claimant
  tier : Tier
  kind : Kind
  zones : ZoneSet
  source : Source
  level : Option Int
  duck : Option Int
  ramp : Ramp
  ending : Bool
  seq : Nat
deriving DecidableEq, Repr

/-- The 16 entries by handle (R19) and the sequence counter (R20). -/
structure ClaimTable where
  entries : List (Option Claim)
  counter : Nat
deriving DecidableEq, Repr

/-! ## Mix Engine (chapter 3) -/

inductive Role where
  | base | overlay | tail
deriving DecidableEq, Repr

/-- Whence a contribution comes: a claim's handle, or the zone's program (R47). -/
inductive Origin where
  | handle (h : Nat)
  | program
deriving DecidableEq, Repr

/-- A contribution (R47). -/
structure Contribution where
  origin : Origin
  source : Source
  kind : Option Kind
  role : Role
  target : Int
  applied : Int
  ramp : Ramp
  fast : Bool
deriving DecidableEq, Repr

inductive DelayState where
  | steady | fadeOut | fadeIn
deriving DecidableEq, Repr

/-- What one sink holds: its contribution list and waiting list (R47), duck (R25), boost of the last frame (R66), clip guard,
clean count and last clip flag (R61), trim (R44), delay with its state (R63), the report of the last frame event that FADE_OUT has
sent a whole frame at 360 (R63, log entry 9), the last 960 sums, newest first (R62), the 48 samples computed at the last frame
event and the 48 being sent (R2). -/
structure Sink where
  list : List Contribution
  waiting : List Nat
  duck : Int
  boost : Int
  guard : Nat
  clean : Nat
  clip : Bool
  trim : Int
  delay : Nat
  delayState : DelayState
  pendingDelay : Option Nat
  fade : Nat
  faded : Bool
  line : List Int
  computed : List Int
  sending : List Int
deriving DecidableEq, Repr

structure Mix where
  /-- The cabin program's selected source (R41). -/
  selected : Source
  /-- Zone volumes of FRONT, REAR, CARGO, SUB and HEADREST (R43). -/
  volumes : List Int
  /-- Source trims (R44). -/
  trimFront : Int
  trimRear : Int
  trimNav : Int
  /-- Mute sets of the seven zones (R45). -/
  mutes : List LinkSet
  /-- Held speed, stale flag and the moment of the last SPEED (R59). -/
  speed : Nat
  stale : Bool
  speedAt : Time
  /-- Six breakpoints and the enable set (R60). -/
  curve : List (Nat × Int)
  curveZones : ZoneSet
  sinks : List Sink
deriving DecidableEq, Repr

/-! ## Tuner Controller (chapter 4) -/

/-- Decoded station data (R72). -/
structure Decoded where
  identity : Option Nat
  name : Option (List Byte)
  tp : Option Bool
  ta : Option Bool
  alternates : Option (List Nat)
deriving DecidableEq, Repr

/-- The station data decoder: the decoded data, and what R72 needs between groups (the identity of the group before, the name
segments received, the partial alternate list with its count). -/
structure Decoder where
  data : Decoded
  lastIdentity : Option Nat
  segments : List (Option (Byte × Byte))
  altCount : Option Nat
  altParts : List (Option Nat)
deriving DecidableEq, Repr

/-- The last measurement's values with its quality (R68, R95). -/
structure Reading where
  level : Nat
  multipath : Nat
  adjacent : Nat
  q : Nat
deriving DecidableEq, Repr

/-- What both tuners hold: held frequency (R67), last measurement, Qs, whether Qs is set aside until a first measurement (R69, R74),
the separation of the last measurement that set Qs (R71), decoder, whether the trim's last change was marked fast (R95) and whether a
fast change is yet to reach the Mix Engine (R52), and the moments that the timed events count from. -/
structure Receiver where
  freq : Freq
  last : Reading
  qs : Nat
  aside : Bool
  sep : Nat
  decoder : Decoder
  markedFast : Bool
  fastDue : Bool
  since : Time
  measuredAt : Time
  groupAt : Time
deriving DecidableEq, Repr

/-- Tuner A's states (R73). -/
inductive AState where
  | off | settling | tuned | seeking | afCheck | afVerify
deriving DecidableEq, Repr

/-- Where an AF_CHECK stands (R91, R92, log entry 12): the pre-fade toward a check or toward AF_VERIFY, the gap before its
measurement, or the rest of the gap after a failed one. -/
inductive CheckPhase where
  | prefadeCheck | prefadeVerify | gap | failed
deriving DecidableEq, Repr

inductive Direction where
  | up | down
deriving DecidableEq, Repr

inductive TuneCause where
  | tuneA | seekA | presetRecall | runEntry | hubReset | af
deriving DecidableEq, Repr

inductive TuneResult where
  | tuned | found | notFound | resumed | switched
deriving DecidableEq, Repr

/-- The last tune record (R74). -/
structure TuneRecord where
  cause : TuneCause
  result : TuneResult
  freq : Freq
deriving DecidableEq, Repr

/-- Tuner A (R73). `report` is the cause and result that the TUNE_DONE at the end of SETTLING will carry, absent for the
silent return of R92; `candidate` is the alternate frequency being checked or verified. -/
structure TunerA where
  rx : Receiver
  state : AState
  phase : CheckPhase
  /-- The output is released in AF_VERIFY, its settle, if any, being over (R92). -/
  released : Bool
  candidate : Option Nat
  home : Option Freq
  saved : Option Decoder
  seekDir : Option Direction
  seekStart : Option Freq
  low : Nat
  cursor : Option Nat
  report : Option (TuneCause × TuneResult)
  lastTune : Option TuneRecord
  verifyAt : Time
deriving DecidableEq, Repr

/-- Tuner B's states (R85). -/
inductive BState where
  | off | idle | scan | watch | held | refresh
deriving DecidableEq, Repr

/-- Tuner B (R85, R86): whether it is settling in WATCH or HELD, whether the swept channel is in its dwell, whether the sweep
has changed the list, and its holder. -/
structure TunerB where
  rx : Receiver
  state : BState
  settling : Bool
  dwell : Bool
  changed : Bool
  holder : Option StationId
deriving DecidableEq, Repr

/-- An entry of the Station List (R78). -/
structure Entry where
  freq : Freq
  qs : Nat
  identity : Option Nat
  name : Option (List Byte)
  tp : Option Bool
  alternates : List Nat
  missed : Nat
  preset : Option Nat
  rejected : Option Nat
  seen : Bool
deriving DecidableEq, Repr

/-- The Station List with its version (R78), and the settings of SCAN_POLICY and AF_POLICY (R87, R90). -/
structure Radio where
  stations : List Entry
  version : Nat
  scan : Bool
  rearFirst : Bool
  afOn : Bool
  afThreshold : Nat
  secondAt : Time
deriving DecidableEq, Repr

/-! ## Traffic and Shift Unit (chapter 5) -/

inductive TrafficSource where
  | none | tuner (t : TunerId)
deriving DecidableEq, Repr

inductive MemoOutcome where
  | none | captured | missed
deriving DecidableEq, Repr

/-- The traffic record (R96) with the settings of SHIFT_POLICY (R107). -/
structure Traffic where
  on : Bool
  memo : Bool
  source : TrafficSource
  eligible : Bool
  /-- The A eligible flag's hold timer: the moment it started, absent while stopped (R97). -/
  holdAt : Option Time
  watch : Option Freq
  announcing : Bool
  outcome : Option MemoOutcome
  retained : Option Nat
  pauseOnCall : Bool
  autoResume : Bool
deriving DecidableEq, Repr

inductive ShiftState where
  | off | capture | replay | memoCapture | memoHeld | memoReplay
deriving DecidableEq, Repr

inductive Purpose where
  | pause | memo
deriving DecidableEq, Repr

inductive PauseCause where
  | order | call
deriving DecidableEq, Repr

/-- The Shift Buffer record (R101). `drained` is the report of the last frame event in REPLAY or MEMO_REPLAY that it left the fill
at 0 (R103, log entry 9). -/
structure ShiftBuffer where
  state : ShiftState
  purpose : Option Purpose
  cause : Option PauseCause
  captured : Option TunerId
  running : Bool
  write : Option Addr
  replay : Option Addr
  fill : Nat
  wrapped : Bool
  drained : Bool
deriving DecidableEq, Repr

/-! ## Call Processor (chapter 6) -/

inductive CallPhase where
  | idle | ringing | active | held
deriving DecidableEq, Repr

inductive Placement where
  | cabin | driver | station (st : StationId)
deriving DecidableEq, Repr

inductive MicMode where
  | driver | passenger | rearLeft | rearRight | conference
deriving DecidableEq, Repr

/-- The uplink microphones: M0..M3 and the two headset microphones (R116). -/
inductive Mic where
  | cabin (n : Fin 4)
  | jack (st : StationId)
deriving DecidableEq, Repr

inductive EchoState where
  | off | converging | converged | diverged
deriving DecidableEq, Repr

/-- The echo canceller (section 6.5): 2,048 coefficients, the last 2,048 reference samples, newest first, the last 256
microphone samples and estimates of the double-talk sums, newest first, and the window. P is the reference history's sum of
squares and is computed from it. -/
structure Canceller where
  state : EchoState
  coeffs : List Int
  history : List Int
  dtMic : List Int
  dtEst : List Int
  count : Nat
  active : Nat
  sumMic : Int
  sumErr : Int
  erle : Option Int
  adapted : Bool
deriving DecidableEq, Repr

/-- The call record (R116), conference selection (R123), the reference set of the last frame event as zones (R127), which R63 and
R133 ask for, and the 16 uplink samples of the last frame event (R126). -/
structure Call where
  state : CallPhase
  placement : Placement
  mode : MicMode
  mic : Mic
  hold : Nat
  mutes : LinkSet
  volume : Int
  echo : Canceller
  choice : Fin 4
  recent : List (List Int)
  refZones : ZoneSet
  uplink : List Int
deriving DecidableEq, Repr

/-! ## Rear Stations (chapter 7) -/

inductive JackClass where
  | vacant | short | headphone | headset | line
deriving DecidableEq, Repr

/-- A station record (R137) with its jack monitor (R142, R146). The holder flag mirrors Tuner B's holder and is read there. -/
structure Station where
  source : Source
  volume : Int
  swap : Bool
  jack : JackClass
  load : Option Nat
  mic : Option Bool
  /-- The grace timer: the moment it started, absent while stopped (R149). -/
  graceAt : Option Time
  inserted : Bool
  measuring : Bool
  measureAt : Time
  count : Nat
  /-- The headset microphone is being sampled (R146). -/
  sampling : Bool
deriving DecidableEq, Repr

structure Stations where
  one : Station
  two : Station
  cap : Int
  lock : Bool
deriving DecidableEq, Repr

/-! ## Chime Player (chapter 8) -/

inductive RepeatMode where
  | once
  | count (n : Nat)
  | untilStop (ms : Nat)
  | chain (next : Option Nat)
deriving DecidableEq, Repr

/-- A descriptor that is defined (R153). -/
structure Descriptor where
  valid : Bool
  start : Addr
  length : Nat
  mode : RepeatMode
  gap : Nat
  priority : Nat
  zones : ZoneSet
  level : Int
  duck : Int
  definer : Link
deriving DecidableEq, Repr

inductive VoiceState where
  | idle | playing | gap | stopping
deriving DecidableEq, Repr

/-- The ending causes of voices and of last-ended records (R155, section 12.1). -/
inductive EndCause where
  | completed | stopped | expired | preempted | chainBroken | reset | dropped | notPlayed | power
deriving DecidableEq, Repr

/-- A request for a descriptor and the link that asked: a queue entry (R160) or a successor (R162). -/
structure Request where
  desc : Nat
  link : Link
deriving DecidableEq, Repr

/-- A voice record (R155). `faded` is the Mix Engine's report of R158: at the last frame event in STOPPING no contribution of
the voice's claim stood below 360. -/
structure Voice where
  state : VoiceState
  desc : Option Nat
  position : Nat
  remaining : Nat
  repeats : Option Nat
  gapLeft : Nat
  restart : Bool
  deadline : Option Time
  starter : Option Link
  number : Nat
  cause : Option EndCause
  successor : Option Request
  faded : Bool
deriving DecidableEq, Repr

/-- A last-ended record (R158, R159). -/
structure Ended where
  desc : Nat
  voice : Option (Fin 4)
  cause : EndCause
deriving DecidableEq, Repr

structure Chime where
  descs : List (Option Descriptor)
  voices : List Voice
  queue : List Request
  counter : Nat
  ended : PerLink (Option Ended)
deriving DecidableEq, Repr

/-! ## Sample Store (chapter 9) -/

inductive Region where
  | chime | clip | shift
deriving DecidableEq, Repr

/-- A read right and a write right (R173). -/
structure Right where
  read : Bool
  write : Bool
deriving DecidableEq, Repr

/-- An open transfer channel (R174); a closed one is an absent one. -/
structure Channel where
  write : Bool
  base : Addr
  current : Addr
  count : Nat
  remaining : Nat
deriving DecidableEq, Repr

/-- A STORE_DATA that has words waiting to be moved (R175, R178): those of a WRITE still to be written, how many are still to
move, and those of a READ that have been read, in address order. -/
structure Transfer where
  words : List Word
  left : Nat
  got : List Word
deriving DecidableEq, Repr

/-- The Sample Store: its words in one canonical form (addresses strictly rising, no word listed that is zero, which an
unlisted word reads as, R179), the bounds (R170), the rights (R173), the channels (R174), the words that STORE_DATA has waiting
and the bulk pointer (R178), whether it is initialising and since when (R179), and for each stream requester the moment of its last
post, if what it posted was not withdrawn or known to be served since (R177, R181). -/
structure Store where
  words : List (Nat × Word)
  u0 : Nat
  u1 : Nat
  chimeRights : PerLink Right
  clipRights : PerLink Right
  shiftRights : PerLink Right
  channels : PerLink (Option Channel)
  waiting : PerLink (Option Transfer)
  pointer : Link
  initialising : Bool
  initAt : Time
  posted : List (Option Time)
deriving DecidableEq, Repr

/-! ## Link Block (chapter 10) -/

/-- The statuses of a reply (R185). -/
inductive Status where
  | done | accepted | wait | unknownOrder | notPermitted | badOperand | full | inUse | locked | notReady | noSuch
deriving DecidableEq, Repr

/-- A reply: its status, its result length and its results. Only a STORE_DATA reply's length is not its number of result
bytes (R200). -/
structure Reply where
  status : Status
  length : Nat
  results : List Byte
deriving DecidableEq, Repr

/-- A link's reply slot (R183): a reply held, or NOT_READY_YET with the answer that the owning block is to fill it with. -/
inductive Slot where
  | held (r : Reply)
  | pending (answer : Reply)
deriving DecidableEq, Repr

/-- The reason of a TA_MISSED (R100). -/
inductive MissReason where
  | noRegion | busy
deriving DecidableEq, Repr

/-- The causes of a discard (R113). -/
inductive DiscardCause where
  | retune | program | trafficOff | region | power | hubReset
deriving DecidableEq, Repr

/-- An advisory: its kind and detail (R189). -/
inductive Advisory where
  | taMissed (reason : MissReason) (source : TrafficSource)
  | placementFallback (st : StationId) (state : CallPhase)
  | shiftDiscarded (cause : DiscardCause) (left : ShiftState) (fill : Nat)
  | portLost (p : Port)
  | descriptorInvalidated (indices : BitVec 32)
  | voicePreempted (v : Fin 4) (old new : Nat)
deriving DecidableEq, Repr

/-- What the Link Block holds for one link: reply slot (R183), the bytes shifted out in the last select period (R182), enable sets
(R187), latch (R188), advisory list (R189) and restart flag (R193). A set of conditions has bit c for condition c. -/
structure LinkState where
  slot : Slot
  shifted : Option (List Byte)
  riseEnable : BitVec 16
  fallEnable : BitVec 16
  riseLatch : BitVec 16
  fallLatch : BitVec 16
  advisories : List Advisory
  restart : Bool
deriving DecidableEq, Repr

/-! ## Power Control (chapter 11) -/

inductive PowerState where
  | run | quiet | sleep
deriving DecidableEq, Repr

/-- The last entry cause (R195, R196). -/
inductive EntryCause where
  | power | ignition | chime | jack | call
deriving DecidableEq, Repr

/-- The ignition sense level (R196, R199): low, or high, with the moment at which it falls, if it will. -/
inductive Sense where
  | low
  | high (falls : Option Time)
deriving DecidableEq, Repr

/-- Power Control (R194 to R198). The refresh timer, while it runs, is the moment it started and the interval in minutes it
counts toward. The amplifier enable is asserted exactly in RUN and is computed. -/
structure Power where
  state : PowerState
  entry : Option EntryCause
  wakeIgnition : Bool
  wakeChime : Bool
  wakeJack : Bool
  wakeCall : Bool
  interval : Nat
  timer : Option (Time × Nat)
  ignition : Sense
deriving DecidableEq, Repr

/-! ## The machine -/

structure State where
  pending : List Instr
  clock : Clock
  ports : Ports
  table : ClaimTable
  mix : Mix
  tunA : TunerA
  tunB : TunerB
  radio : Radio
  traffic : Traffic
  shift : ShiftBuffer
  call : Call
  stations : Stations
  chime : Chime
  store : Store
  links : PerLink LinkState
  power : Power
deriving DecidableEq, Repr

/-- The hub never stops with a fault: the manual gives every event an outcome, so there is no reason to name. -/
inductive Fault where
deriving DecidableEq, Repr

/-- The reasons for which a command has no meaning in the model. -/
inductive Refusal where
  /-- Raised by `exec` alone, for a command of the table that has no meaning yet. Safe: nothing can be proved of its effect.
  No arm raises it now. -/
  | notModelled (mnemonic : String)
deriving DecidableEq, Repr

/-! ## Updates, one for each field -/

namespace State

def withPending (s : State) (x : List Instr) : State := { s with pending := x }
def withClock (s : State) (x : Clock) : State := { s with clock := x }
def withPorts (s : State) (x : Ports) : State := { s with ports := x }
def withTable (s : State) (x : ClaimTable) : State := { s with table := x }
def withMix (s : State) (x : Mix) : State := { s with mix := x }
def withTunA (s : State) (x : TunerA) : State := { s with tunA := x }
def withTunB (s : State) (x : TunerB) : State := { s with tunB := x }
def withRadio (s : State) (x : Radio) : State := { s with radio := x }
def withTraffic (s : State) (x : Traffic) : State := { s with traffic := x }
def withShift (s : State) (x : ShiftBuffer) : State := { s with shift := x }
def withCall (s : State) (x : Call) : State := { s with call := x }
def withStations (s : State) (x : Stations) : State := { s with stations := x }
def withChime (s : State) (x : Chime) : State := { s with chime := x }
def withStore (s : State) (x : Store) : State := { s with store := x }
def withLinks (s : State) (x : PerLink LinkState) : State := { s with links := x }
def withPower (s : State) (x : Power) : State := { s with power := x }

end State

/-! ## Power-on values -/

def Converter.empty : Converter := { buffer := [], started := false, phase := 0, step := 0 }

/-- R12: ABSENT, empty buffer, no nominal rate. The estimate and the step have no value given for power-on: 0 (log entry 20). -/
def Tracker.fresh : Tracker :=
  { state := .absent, nominal := none, estimate := ⟨0, 1⟩, periods := [], good := 0, slips := 0, measuring := false,
    lastSync := 0, waitFrom := 0, holdoverAt := 0, conv := .empty, delivered := [] }

def Ports.fresh : Ports := { p0 := .fresh, p1 := .fresh, p2 := .fresh, t0 := [], t1 := [], uplink := .empty, uplinkSlot := none }

/-- R37. -/
def ClaimTable.fresh : ClaimTable := { entries := List.replicate 16 none, counter := 0 }

def silentFrame : List Int := List.replicate 48 0

/-- R64. The boost and the clip flag of the last frame, which R66 reports, have no value before the first frame event after power-on or
HUB_RESET; they are taken as 0 and clear (log entry 20). -/
def Sink.fresh : Sink :=
  { list := [], waiting := [], duck := 0, boost := 0, guard := 0, clean := 0, clip := false, trim := 0, delay := 0,
    delayState := .steady, pendingDelay := none, fade := 0, faded := false, line := List.replicate 960 0,
    computed := silentFrame, sending := silentFrame }

/-- R64. -/
def Mix.fresh : Mix :=
  { selected := .silence, volumes := List.replicate 5 120, trimFront := 0, trimRear := 0, trimNav := 0,
    mutes := List.replicate 7 0, speed := 0, stale := true, speedAt := 0,
    curve := [(0, 0), (50, 0), (100, 0), (150, 0), (200, 0), (250, 0)], curveZones := 0,
    sinks := List.replicate 20 .fresh }

def Decoded.empty : Decoded := { identity := none, name := none, tp := none, ta := none, alternates := none }

def Decoder.empty : Decoder :=
  { data := .empty, lastIdentity := none, segments := List.replicate 4 none, altCount := none, altParts := [] }

/-- R67, R94: FM 87.5 MHz, Qs 0, no decoded data. The last measurement has no value given: zeros (log entry 20). -/
def Receiver.fresh : Receiver :=
  { freq := ⟨.fm, 87500⟩, last := ⟨0, 0, 0, 0⟩, qs := 0, aside := true, sep := 0, decoder := .empty, markedFast := false,
    fastDue := false, since := 0, measuredAt := 0, groupAt := 0 }

/-- R94. -/
def TunerA.fresh : TunerA :=
  { rx := .fresh, state := .off, phase := .prefadeCheck, released := false, candidate := none, home := none, saved := none,
    seekDir := none, seekStart := none, low := 0, cursor := none, report := none, lastTune := none, verifyAt := 0 }

/-- R94. -/
def TunerB.fresh : TunerB :=
  { rx := .fresh, state := .off, settling := false, dwell := false, changed := false, holder := none }

/-- R94. -/
def Radio.fresh : Radio :=
  { stations := [], version := 0, scan := true, rearFirst := false, afOn := true, afThreshold := 35, secondAt := 0 }

/-- R96, R114. -/
def Traffic.fresh : Traffic :=
  { on := false, memo := false, source := .none, eligible := false, holdAt := none, watch := none, announcing := false,
    outcome := none, retained := none, pauseOnCall := false, autoResume := true }

/-- R101, the column "while OFF". -/
def ShiftBuffer.off : ShiftBuffer :=
  { state := .off, purpose := none, cause := none, captured := none, running := false, write := none, replay := none,
    fill := 0, wrapped := false, drained := false }

/-- R134. That the last sample adapted has no value at power-on or HUB_RESET; it is taken as false (log entry 20). -/
def Canceller.off : Canceller :=
  { state := .off, coeffs := List.replicate 2048 0, history := List.replicate 2048 0, dtMic := List.replicate 256 0,
    dtEst := List.replicate 256 0, count := 0, active := 0, sumMic := 0, sumErr := 0, erle := none, adapted := false }

def noRecent : List (List Int) := List.replicate 4 (List.replicate 1024 0)

/-- R116, R134. -/
def Call.fresh : Call :=
  { state := .idle, placement := .cabin, mode := .driver, mic := .cabin 0, hold := 0, mutes := 0, volume := 48,
    echo := .off, choice := 0, recent := noRecent, refZones := 0, uplink := List.replicate 16 0 }

/-- R137, R150, with the sense switch as read at power-on: a jack sensed INSERTED starts a measurement at once. -/
def Station.fresh (inserted : Bool) : Station :=
  { source := .mediaRear, volume := 96, swap := false, jack := .vacant, load := none, mic := none, graceAt := none,
    inserted := inserted, measuring := inserted, measureAt := 0, count := 0, sampling := false }

/-- R155, R167: IDLE, with every field absent that R155 lets be absent. For position, remaining, gap left, restart pending and start
number R155 has no absent value: they are 0 and clear (log entry 20). -/
def Voice.fresh : Voice :=
  { state := .idle, desc := none, position := 0, remaining := 0, repeats := none, gapLeft := 0, restart := false,
    deadline := none, starter := none, number := 0, cause := none, successor := none, faded := false }

/-- R167. -/
def Chime.fresh : Chime :=
  { descs := List.replicate 32 none, voices := List.replicate 4 .fresh, queue := [], counter := 0, ended := .all none }

def Right.none : Right := ⟨false, false⟩
def Right.readOnly : Right := ⟨true, false⟩
def Right.both : Right := ⟨true, true⟩

/-- R170, R173, R179, R180. -/
def Store.fresh : Store :=
  { words := [], u0 := 32, u1 := 64,
    chimeRights := ⟨.both, .none, .none, .both⟩, clipRights := ⟨.both, .none, .none, .readOnly⟩,
    shiftRights := .all .none, channels := .all none, waiting := .all none, pointer := .cockpit, initialising := true,
    initAt := 0, posted := List.replicate 6 none }

def Reply.empty : Reply := { status := .done, length := 0, results := [] }

/-- R183, R187, R193. -/
def LinkState.fresh : LinkState :=
  { slot := .held .empty, shifted := none, riseEnable := 0, fallEnable := 0, riseLatch := 0, fallLatch := 0,
    advisories := [], restart := true }

/-- R196 to R198: the power state reads SLEEP during the fill, and the last entry cause is absent. -/
def Power.fresh (ignition : Sense) : Power :=
  { state := .sleep, entry := none, wakeIgnition := true, wakeChime := true, wakeJack := true, wakeCall := true,
    interval := 15, timer := none, ignition := ignition }

/-- The ignition sense from a moment on at which it is high: it falls when it will (log entry 23). -/
def highFrom (now : Time) : Sense := .high ((Config.ignitionStays now).map (now + ·))

/-- The hub at power-on, with the levels that its ignition sense input and its two sense switches then have. -/
def State.powerOn (ignition jack1 jack2 : Bool) : State :=
  { pending := [], clock := ⟨0, 0, 0⟩, ports := .fresh, table := .fresh, mix := .fresh, tunA := .fresh, tunB := .fresh,
    radio := .fresh, traffic := .fresh, shift := .off, call := .fresh,
    stations := { one := .fresh jack1, two := .fresh jack2, cap := 48, lock := false },
    chime := .fresh, store := .fresh, links := .all .fresh, power := .fresh (if ignition then highFrom 0 else .low) }

/-- The machine right after reset: just powered on, its store filling, the ignition sense low and both jacks empty (log
entry 21). -/
def State.reset : State := State.powerOn false false false

end Sys2Proof.Machine
end

