-- ==== Sys2Proof/Machine/Arith.lean ====
section
/-! DEFINITION. The arithmetic of the manual: saturation and rounding (its "Rounding" convention), the gain law, the widening
and rounding of 16-bit samples, and big-endian bytes. On `Int`, `/` with a positive divisor is the manual's floor. -/

namespace Sys2Proof.Machine

/-- `x` brought to the nearest end of `lo..hi`. -/
def clampInt (lo hi x : Int) : Int := max lo (min hi x)

/-- `x` brought to the nearest end of `lo..hi`. -/
def clampNat (lo hi x : Nat) : Nat := max lo (min hi x)

/-- Saturation to 24 bits (R58). -/
def sat24 (x : Int) : Int := clampInt (-8388608) 8388607 x

/-- Saturation to 16 bits (R102, R126). -/
def sat16 (x : Int) : Int := clampInt (-32768) 32767 x

/-- Saturation to 32 bits (R129). -/
def sat32 (x : Int) : Int := clampInt (-2147483648) 2147483647 x

/-- `num / den` rounded to the nearest integer, halves up (log entry 5). -/
def roundDiv (num den : Nat) : Nat := (2 * num + den) / (2 * den)

/-- R1: a 16-bit sample widened. -/
def widen (x : Int) : Int := x * 256

/-- R102: a 24-bit sample rounded to 16 bits. -/
def round16 (x : Int) : Int := sat16 ((x + 128) / 256)

/-- The mantissa table M(k) of R56. -/
def mantissas : List Int :=
  [32768, 31835, 30929, 30048, 29193, 28362, 27554, 26770, 26008, 25268, 24548, 23849,
   23170, 22511, 21870, 21247, 20643, 20055, 19484, 18929, 18390, 17867, 17358, 16864]

/-- The multiplier of an attenuation in -24..360, in units of 1/32,768 (R56). -/
def gain (a : Int) : Int :=
  if a = 360 then 0
  else
    let q := a / 24
    let m := mantissas.getD (a - 24 * q).toNat 0
    if q < 0 then 2 * m
    else if q = 0 then m
    else (m + 2 ^ (q.toNat - 1)) / 2 ^ q.toNat

/-- The product of a sample and a multiplier, rounded half up (R57). -/
def product (x g : Int) : Int := (x * g + 16384) / 32768

/-- A microphone sample from the number of ones among its 192 bits (R6). -/
def micSample (ones : Nat) : Int := (65535 * (ones : Int) + 96) / 192 - 32768

/-- A list cut or filled with `d` to `n` members. -/
def fit {α : Type} (n : Nat) (d : α) (xs : List α) : List α := (xs ++ List.replicate n d).take n

def sumOf (xs : List Int) : Int := xs.foldl (· + ·) 0

def sumSquares (xs : List Int) : Int := xs.foldl (fun acc x => acc + x * x) 0

/-- The largest of a list of numbers, 0 for the empty list. -/
def maxOf (xs : List Int) : Int := xs.foldl max 0

/-! ## Halves and bytes -/

/-- The upper half of a store word as a signed sample. -/
def upper (w : Word) : Int := (w.extractLsb' 16 16).toInt

/-- The lower half of a store word as a signed sample. -/
def lower (w : Word) : Int := (w.extractLsb' 0 16).toInt

/-- A stereo pair of 16-bit samples as one word, left in the upper half (R102). -/
def packPair (l r : Int) : Word := BitVec.ofInt 16 l ++ BitVec.ofInt 16 r

/-- The 24-bit sample in the first 24 bits of a 32-bit slot; the last 8 bits are ignored (R3, R4). -/
def slotSample (w : Word) : Int := (w.extractLsb' 8 24).toInt

/-- An output slot: a 24-bit sample in its first 24 bits, then 8 zero bits (R17). -/
def slotOf (x : Int) : Word := BitVec.ofInt 24 x ++ (0 : BitVec 8)

def byteOf (n : Nat) : Byte := BitVec.ofNat 8 n

/-- `n` on `k` bytes, most significant first. -/
def beNat (k n : Nat) : List Byte := (List.range k).map fun i => BitVec.ofNat 8 (n >>> (8 * (k - 1 - i)))

/-- `x` in two's complement on `k` bytes, most significant first. -/
def beInt (k : Nat) (x : Int) : List Byte := beNat k (x % 2 ^ (8 * k)).toNat

def be2 (n : Nat) : List Byte := beNat 2 n
def be4 (n : Nat) : List Byte := beNat 4 n

/-- A word in the byte order of the control links (chapter 12). -/
def wordBytes (w : Word) : List Byte := be4 w.toNat

end Sys2Proof.Machine
end

