-- ==== Sys2Proof/Machine/Operands.lean ====
section
/-! DEFINITION. Operand forms: how a request frame's bytes are read (R182, R184, R200, R201), the code tables of sections 12.1
and 12.2, and the codes of the values that replies report. A code to which the tables assign no name reads as none. -/

namespace Sys2Proof.Machine

/-! ## Frames -/

/-- The operand bytes of an order that accepts exactly `n` of them: none where the frame carries fewer bytes than it declares
(R184, check 1) or declares another length (check 3). Bytes beyond the declared ones are ignored (R182). -/
def operands (n : Nat) (f : Frame) : Option (List Byte) :=
  if f.bytes.length < f.len.toNat then none
  else if f.len.toNat ≠ n then none
  else some (f.bytes.take n)

/-- The two forms of STORE_DATA (R200): WRITE with its words, READ with the number wanted. -/
inductive DataForm where
  | write (words : List Word)
  | read (wanted : Nat)
deriving DecidableEq, Repr

/-- Byte `i` of the operands, as an unsigned number. -/
def u8 (b : List Byte) (i : Nat) : Nat := (b.getD i 0).toNat

/-- Bytes `i`, `i + 1` as an unsigned number, most significant first (R201). -/
def u16 (b : List Byte) (i : Nat) : Nat := u8 b i * 256 + u8 b (i + 1)

/-- Bytes `i`, `i + 1` in two's complement (R201). -/
def s16 (b : List Byte) (i : Nat) : Int := (BitVec.ofNat 16 (u16 b i)).toInt

/-- Bytes `i` to `i + 3` as an unsigned number (R201). -/
def u32 (b : List Byte) (i : Nat) : Nat := u16 b i * 65536 + u16 b (i + 2)

/-- The words of a run of bytes, four to a word. -/
def wordsOf (n : Nat) (b : List Byte) : List Word := (List.range n).map fun i => BitVec.ofNat 32 (u32 b (4 * i))

/-- STORE_DATA's operands (R184 check 1, R200): a length of 1..64 carries that many words, one of 128..255 asks for the length
less 128 words, clamped to 64 (R175); any other length is not accepted. -/
def dataOperands (f : Frame) : Option DataForm :=
  let n := f.len.toNat
  if 1 ≤ n ∧ n ≤ 64 then
    if f.bytes.length < 4 * n then none else some (.write (wordsOf n f.bytes))
  else if 128 ≤ n then some (.read (min 64 (n - 128)))
  else none

/-! ## Codes that operands carry -/

def onOff : Nat → Option Bool
  | 0 => some false
  | 1 => some true
  | _ => none

def Link.code : Link → Nat
  | .cockpit => 0 | .telephony => 1 | .rear => 2 | .body => 3

def linkOf : Nat → Option Link
  | 0 => some .cockpit | 1 => some .telephony | 2 => some .rear | 3 => some .body
  | _ => none

def tierOf : Nat → Option Tier
  | 1 => some .normal | 2 => some .call | 3 => some .urgent
  | _ => none

def kindOf : Nat → Option Kind
  | 0 => some .exclusive | 1 => some .overlay
  | _ => none

def rampOf : Nat → Option Ramp
  | 0 => some .slow | 1 => some .medium | 2 => some .fast
  | _ => none

def sourceOf : Nat → Option Source
  | 0 => some .tunerA | 1 => some .tunerB | 2 => some .mediaFront | 3 => some .mediaRear | 4 => some .nav
  | 5 => some .callDown | 6 => some (.voice 0) | 7 => some (.voice 1) | 8 => some (.voice 2) | 9 => some (.voice 3)
  | 10 => some .shift | 11 => some .silence
  | _ => none

def bandOf : Nat → Option Band
  | 0 => some .fm | 1 => some .mw
  | _ => none

def directionOf : Nat → Option Direction
  | 0 => some .up | 1 => some .down
  | _ => none

def regionOf : Nat → Option Region
  | 0 => some .chime | 1 => some .clip | 2 => some .shift
  | _ => none

def callOf : Nat → Option CallPhase
  | 0 => some .idle | 1 => some .ringing | 2 => some .active | 3 => some .held
  | _ => none

def placementOf : Nat → Option Placement
  | 0 => some .cabin | 1 => some .driver | 2 => some (.station .one) | 3 => some (.station .two)
  | _ => none

def micModeOf : Nat → Option MicMode
  | 0 => some .driver | 1 => some .passenger | 2 => some .rearLeft | 3 => some .rearRight | 4 => some .conference
  | _ => none

def powerOf : Nat → Option PowerState
  | 0 => some .run | 1 => some .quiet | 2 => some .sleep
  | _ => none

def stationOf : Nat → Option StationId
  | 1 => some .one | 2 => some .two
  | _ => none

/-- A zone set, one bit a zone. Bit 7 names a zone number outside the seven (R200). -/
def zoneSetOf (n : Nat) : Option ZoneSet := if n < 128 then some (BitVec.ofNat 7 n) else none

/-- A frequency on its band's raster (R67). -/
def Freq.onRaster (f : Freq) : Bool :=
  match f.band with
  | .fm => 87500 ≤ f.khz && f.khz ≤ 108000 && f.khz % 100 == 0
  | .mw => 531 ≤ f.khz && f.khz ≤ 1602 && (f.khz - 531) % 9 == 0

/-- The band and frequency operands at byte `i`, none where R67 refuses them. -/
def freqAt (b : List Byte) (i : Nat) : Option Freq := do
  let band ← bandOf (u8 b i)
  let f : Freq := ⟨band, u32 b (i + 1)⟩
  if f.onRaster then some f else none

/-- The chime repeat mode and its parameter (section 12.2), the parameter clamped as R154 states; none for an unknown mode and
for a CHAIN next index above 31 other than 255, which stands for absent. -/
def repeatOf (mode param : Nat) : Option RepeatMode :=
  match mode with
  | 0 => some .once
  | 1 => some (.count (clampNat 2 255 param))
  | 2 => some (.untilStop (clampNat 100 5000 param))
  | 3 => if param = 255 then some (.chain none) else if param ≤ 31 then some (.chain (some param)) else none
  | _ => none

/-! ## Fields of replies -/

def flag (b : Bool) : Byte := if b then 1 else 0

/-- An optional field whose bytes, when present, number `n` (section 12.1). -/
def optional (n : Nat) : Option (List Byte) → List Byte
  | some bs => 1 :: bs
  | none => 0 :: List.replicate n 0

def optByte (x : Option Nat) : List Byte := optional 1 (x.map fun n => [byteOf n])
def opt2 (x : Option Nat) : List Byte := optional 2 (x.map be2)
def opt4 (x : Option Nat) : List Byte := optional 4 (x.map be4)
def optFlag (x : Option Bool) : List Byte := optional 1 (x.map fun b => [flag b])

/-- A list of fields preceded by its entry count (R200), in one byte (log entry 40). -/
def counted {α : Type} (f : α → List Byte) (xs : List α) : List Byte := byteOf xs.length :: xs.flatMap f

/-! ## Codes that replies report -/

def Status.code : Status → Nat
  | .done => 0 | .accepted => 1 | .wait => 2 | .unknownOrder => 3 | .notPermitted => 4 | .badOperand => 5 | .full => 6
  | .inUse => 7 | .locked => 8 | .notReady => 9 | .noSuch => 10

def Tier.code : Tier → Nat
  | .normal => 1 | .call => 2 | .urgent => 3

def Kind.code : Kind → Nat
  | .exclusive => 0 | .overlay => 1

def Ramp.code : Ramp → Nat
  | .slow => 0 | .medium => 1 | .fast => 2

def Source.code : Source → Nat
  | .tunerA => 0 | .tunerB => 1 | .mediaFront => 2 | .mediaRear => 3 | .nav => 4 | .callDown => 5
  | .voice n => 6 + n.val
  | .shift => 10 | .silence => 11

def Claimant.code : Claimant → Nat
  | .link l => Link.code l
  | .voice n => 4 + n.val
  | .radio => 8 | .call => 9

def Origin.code : Origin → Nat
  | .handle h => h
  | .program => 255

def Role.code : Role → Nat
  | .base => 0 | .overlay => 1 | .tail => 2

def DelayState.code : DelayState → Nat
  | .steady => 0 | .fadeOut => 1 | .fadeIn => 2

def TrackerState.code : TrackerState → Nat
  | .absent => 0 | .acquire => 1 | .locked => 2 | .holdover => 3

def Port.code : Port → Nat
  | .p0 => 0 | .p1 => 1 | .p2 => 2

def Band.code : Band → Nat
  | .fm => 0 | .mw => 1

def Direction.code : Direction → Nat
  | .up => 0 | .down => 1

def AState.code : AState → Nat
  | .off => 0 | .settling => 1 | .tuned => 2 | .seeking => 3 | .afCheck => 4 | .afVerify => 5

def BState.code : BState → Nat
  | .off => 0 | .idle => 1 | .scan => 2 | .watch => 3 | .held => 4 | .refresh => 5

def TuneCause.code : TuneCause → Nat
  | .tuneA => 0 | .seekA => 1 | .presetRecall => 2 | .runEntry => 3 | .hubReset => 4 | .af => 5

def TuneResult.code : TuneResult → Nat
  | .tuned => 0 | .found => 1 | .notFound => 2 | .resumed => 3 | .switched => 4

def ShiftState.code : ShiftState → Nat
  | .off => 0 | .capture => 1 | .replay => 2 | .memoCapture => 3 | .memoHeld => 4 | .memoReplay => 5

def Purpose.code : Purpose → Nat
  | .pause => 0 | .memo => 1

def PauseCause.code : PauseCause → Nat
  | .order => 0 | .call => 1

def TunerId.code : TunerId → Nat
  | .a => 0 | .b => 1

def TrafficSource.code : TrafficSource → Nat
  | .none => 255
  | .tuner t => TunerId.code t

def MemoOutcome.code : MemoOutcome → Nat
  | .none => 0 | .captured => 1 | .missed => 2

def MissReason.code : MissReason → Nat
  | .noRegion => 0 | .busy => 1

def DiscardCause.code : DiscardCause → Nat
  | .retune => 0 | .program => 1 | .trafficOff => 2 | .region => 3 | .power => 4 | .hubReset => 5

def EchoState.code : EchoState → Nat
  | .off => 0 | .converging => 1 | .converged => 2 | .diverged => 3

def StationId.code : StationId → Nat
  | .one => 1 | .two => 2

def Mic.code : Mic → Nat
  | .cabin n => n.val
  | .jack .one => 4 | .jack .two => 5

def JackClass.code : JackClass → Nat
  | .vacant => 0 | .short => 1 | .headphone => 2 | .headset => 3 | .line => 4

def CallPhase.code : CallPhase → Nat
  | .idle => 0 | .ringing => 1 | .active => 2 | .held => 3

def Placement.code : Placement → Nat
  | .cabin => 0 | .driver => 1 | .station .one => 2 | .station .two => 3

def MicMode.code : MicMode → Nat
  | .driver => 0 | .passenger => 1 | .rearLeft => 2 | .rearRight => 3 | .conference => 4

def VoiceState.code : VoiceState → Nat
  | .idle => 0 | .playing => 1 | .gap => 2 | .stopping => 3

def EndCause.code : EndCause → Nat
  | .completed => 0 | .stopped => 1 | .expired => 2 | .preempted => 3 | .chainBroken => 4 | .reset => 5 | .dropped => 6
  | .notPlayed => 7 | .power => 8

def EntryCause.code : EntryCause → Nat
  | .power => 0 | .ignition => 1 | .chime => 2 | .jack => 3 | .call => 4

def PowerState.code : PowerState → Nat
  | .run => 0 | .quiet => 1 | .sleep => 2

end Sys2Proof.Machine
end

