-- ==== Sys2Proof/Machine/Ops.lean ====
section
/-! DEFINITION. The named operations over the hub's registers and its memory: zones and sinks (R15), members of the block
records, the words of the Sample Store and its regions (R169, R170), durations, and the marks of replies. -/

namespace Sys2Proof.Machine

/-! ## Zones and sinks (R15) -/

def Zone.code : Zone → Nat
  | .front => 0 | .rear => 1 | .cargo => 2 | .sub => 3 | .headrest => 4 | .station1 => 5 | .station2 => 6

def Zone.every : List Zone := [.front, .rear, .cargo, .sub, .headrest, .station1, .station2]

def Zone.ofSink (k : Nat) : Zone :=
  if k < 7 then .front
  else if k < 11 then .rear
  else if k < 13 then .cargo
  else if k < 14 then .sub
  else if k < 16 then .headrest
  else if k < 18 then .station1
  else .station2

/-- The station whose zone this is. -/
def Zone.station : Zone → Option StationId
  | .station1 => some .one
  | .station2 => some .two
  | _ => none

def Side.ofSink (k : Nat) : Side :=
  if k = 4 ∨ k = 13 then .sum
  else if k < 4 then (if k % 2 = 0 then .left else .right)
  else if k < 13 then (if k % 2 = 1 then .left else .right)
  else (if k % 2 = 0 then .left else .right)

def hasZone (zs : ZoneSet) (z : Zone) : Bool := zs.getLsbD z.code

def zoneSet (zs : List Zone) : ZoneSet := BitVec.ofNat 7 ((zs.map fun z => 2 ^ z.code).foldl (· ||| ·) 0)

/-- FRONT, REAR, CARGO, SUB and HEADREST. -/
def speakerZones : ZoneSet := 0b0011111

/-- STATION1 and STATION2. -/
def stationZones : ZoneSet := 0b1100000

/-- The zones of the RADIO claim (R35). -/
def radioZones : ZoneSet := 0b0001111

/-- Every zone of `zs` is one of `of`. -/
def within (zs of : ZoneSet) : Bool := zs &&& ~~~of == 0

def sinksOf (zs : ZoneSet) : List Nat := (List.range 20).filter fun k => hasZone zs (Zone.ofSink k)

/-! ## Sets of links -/

def linkBit (l : Link) : LinkSet := BitVec.ofNat 4 (2 ^ Link.code l)

def hasLink (set : LinkSet) (l : Link) : Bool := set.getLsbD (Link.code l)

def addLink (set : LinkSet) (l : Link) : LinkSet := set ||| linkBit l

def dropLink (set : LinkSet) (l : Link) : LinkSet := set &&& ~~~linkBit l

def Link.every : List Link := [.cockpit, .telephony, .rear, .body]

/-! ## Members of the block records -/

namespace State

def claim (s : State) (h : Nat) : Option Claim := s.table.entries.getD h none

def setClaim (s : State) (h : Nat) (c : Option Claim) : State :=
  s.withTable { s.table with entries := s.table.entries.set h c }

def sink (s : State) (k : Nat) : Sink := s.mix.sinks.getD k .fresh

def setSink (s : State) (k : Nat) (x : Sink) : State := s.withMix { s.mix with sinks := s.mix.sinks.set k x }

def voice (s : State) (n : Nat) : Voice := s.chime.voices.getD n .fresh

def setVoice (s : State) (n : Nat) (v : Voice) : State :=
  s.withChime { s.chime with voices := s.chime.voices.set n v }

def desc (s : State) (d : Nat) : Option Descriptor := s.chime.descs.getD d none

def setDesc (s : State) (d : Nat) (x : Descriptor) : State :=
  s.withChime { s.chime with descs := s.chime.descs.set d (some x) }

def link (s : State) (l : Link) : LinkState := s.links.get l

def setLink (s : State) (l : Link) (x : LinkState) : State := s.withLinks (s.links.set l x)

def setSlot (s : State) (l : Link) (x : Slot) : State := s.setLink l { s.link l with slot := x }

def station (s : State) : StationId → Station
  | .one => s.stations.one
  | .two => s.stations.two

def setStation (s : State) (st : StationId) (x : Station) : State :=
  match st with
  | .one => s.withStations { s.stations with one := x }
  | .two => s.withStations { s.stations with two := x }

def tracker (s : State) : Port → Tracker
  | .p0 => s.ports.p0
  | .p1 => s.ports.p1
  | .p2 => s.ports.p2

def setTracker (s : State) (p : Port) (x : Tracker) : State :=
  match p with
  | .p0 => s.withPorts { s.ports with p0 := x }
  | .p1 => s.withPorts { s.ports with p1 := x }
  | .p2 => s.withPorts { s.ports with p2 := x }

def receiver (s : State) : TunerId → Receiver
  | .a => s.tunA.rx
  | .b => s.tunB.rx

def setReceiver (s : State) (t : TunerId) (x : Receiver) : State :=
  match t with
  | .a => s.withTunA { s.tunA with rx := x }
  | .b => s.withTunB { s.tunB with rx := x }

def mute (s : State) (z : Zone) : LinkSet := s.mix.mutes.getD z.code 0

def channel (s : State) (l : Link) : Option Channel := s.store.channels.get l

def setChannel (s : State) (l : Link) (c : Option Channel) : State :=
  s.withStore { s.store with channels := s.store.channels.set l c }

end State

def other : StationId → StationId
  | .one => .two
  | .two => .one

/-! ## Durations, in the units of the clock -/

def samplePeriod : Time := 1000000
def microseconds (n : Nat) : Time := n * 48000
def milliseconds (n : Nat) : Time := n * 48000000
def seconds (n : Nat) : Time := milliseconds (1000 * n)
def minutes (n : Nat) : Time := seconds (60 * n)

/-- Whole milliseconds in a duration. -/
def inMilliseconds (t : Time) : Nat := t / 48000000

/-! ## The words of the Sample Store (R169) -/

/-- What the word at `a` reads as; a word not listed reads as zero (R179). -/
def readWord : List (Nat × Word) → Nat → Word
  | [], _ => 0
  | (b, x) :: rest, a => if a = b then x else if a < b then 0 else readWord rest a

/-- The listing after `v` is written at `a`; writing zero takes the word off the list. -/
def writeWord : List (Nat × Word) → Nat → Word → List (Nat × Word)
  | [], a, v => if v = 0 then [] else [(a, v)]
  | (b, x) :: rest, a, v =>
    if a < b then (if v = 0 then (b, x) :: rest else (a, v) :: (b, x) :: rest)
    else if a = b then (if v = 0 then rest else (a, v) :: rest)
    else (b, x) :: writeWord rest a v

/-- The canonical form: addresses above `lo` strictly rising, inside the store, and no zero word listed. -/
def wordsAbove : Option Nat → List (Nat × Word) → Bool
  | _, [] => true
  | lo, (a, v) :: rest =>
    (match lo with | none => true | some b => decide (b < a)) && decide (a < 16777216) && v != 0 && wordsAbove (some a) rest

def Store.wf (st : Store) : Bool := wordsAbove none st.words

def Store.read (st : Store) (a : Addr) : Word := readWord st.words a.toNat

def Store.write (st : Store) (a : Addr) (v : Word) : Store := { st with words := writeWord st.words a.toNat v }

/-! ## Regions (R170): ranges are half open, in word addresses -/

def Store.bounds (st : Store) : Region → Nat × Nat
  | .chime => (0, st.u0 * 65536)
  | .clip => (st.u0 * 65536, st.u1 * 65536)
  | .shift => (st.u1 * 65536, 16777216)

/-- Every word of the non-empty range `[a, b)` lies in the region. -/
def Store.inRegion (st : Store) (a b : Nat) (r : Region) : Bool :=
  decide ((st.bounds r).1 ≤ a) && decide (b ≤ (st.bounds r).2) && decide (a < b)

/-- The region that contains the range, if a single one does. -/
def Store.regionOf (st : Store) (a b : Nat) : Option Region :=
  [Region.chime, .clip, .shift].find? (st.inRegion a b)

def Store.rights (st : Store) : Region → PerLink Right
  | .chime => st.chimeRights
  | .clip => st.clipRights
  | .shift => st.shiftRights

/-- Size of the SHIFT region in words (R101). -/
def Store.shiftSize (st : Store) : Nat := (256 - st.u1) * 65536

/-- First word of the SHIFT region (R101). -/
def Store.shiftFirst (st : Store) : Addr := BitVec.ofNat 24 (st.u1 * 65536)

/-- Two half-open ranges share a word. -/
def overlap (a b c d : Nat) : Bool := decide (a < d) && decide (c < b) && decide (a < b) && decide (c < d)

/-- The range of an open channel (R174). -/
def Channel.range (c : Channel) : Nat × Nat := (c.base.toNat, c.base.toNat + c.count)

/-- The range overlaps an open WRITE channel of some link. -/
def Store.writeOpenOver (st : Store) (a b : Nat) : Bool :=
  Link.every.any fun l =>
    match st.channels.get l with
    | some c => c.write && overlap a b c.range.1 c.range.2
    | none => false

/-! ## Replies (R182, R183, R185) -/

/-- The reply frame: status, result length, results, pending flag (R182, R201). -/
def Reply.bytes (r : Reply) (pending : Bool) : List Byte :=
  [byteOf r.status.code, byteOf r.length] ++ r.results ++ [flag pending]

/-- A reply without results. -/
def Reply.plain (st : Status) : Reply := { status := st, length := 0, results := [] }

/-- DONE with results. -/
def Reply.answer (bs : List Byte) : Reply := { status := .done, length := bs.length, results := bs }

end Sys2Proof.Machine
end

