-- ==== Sys2Proof/Machine/Table.lean ====
section
/-! DEFINITION. The Claim Table: its one arbiter (R23, R24), what it places and suppresses, displacement (R33), and the
posting of a claim with the renumbering that may come before it (R20, R21). -/

namespace Sys2Proof.Machine

/-- The rank of a tier; a program counts as 0 (section 2.2). -/
def Tier.rank : Tier → Nat
  | .normal => 1 | .call => 2 | .urgent => 3

/-- The claims held, with their handles, by ascending handle. -/
def ClaimTable.held (t : ClaimTable) : List (Nat × Claim) :=
  t.entries.zipIdx.filterMap fun (c, h) => c.map fun c => (h, c)

def Claim.covers (c : Claim) (z : Zone) : Bool := hasZone c.zones z

/-- `a` outranks `b`: a higher tier, or the same tier and a newer sequence number (R23). -/
def Claim.outranks (a b : Claim) : Bool :=
  decide (b.tier.rank < a.tier.rank) || (a.tier.rank == b.tier.rank && decide (b.seq < a.seq))

/-- The member of a list that outranks the members before it and is outranked by none after it. -/
def topClaim (cs : List (Nat × Claim)) : Option (Nat × Claim) :=
  cs.foldl (fun best c =>
    match best with
    | none => some c
    | some b => if c.2.outranks b.2 then some c else some b) none

/-- The EXCLUSIVE claims that cover a zone. -/
def ClaimTable.exclusives (t : ClaimTable) (z : Zone) : List (Nat × Claim) :=
  t.held.filter fun c => c.2.kind = .exclusive && c.2.covers z

/-- The zone's base: the newest EXCLUSIVE claim of the highest tier that covers it, or none for the program (R23). -/
def ClaimTable.base (t : ClaimTable) (z : Zone) : Option (Nat × Claim) := topClaim (t.exclusives z)

def ClaimTable.baseHandle (t : ClaimTable) (z : Zone) : Option Nat := (t.base z).map (·.1)

def ClaimTable.baseRank (t : ClaimTable) (z : Zone) : Nat :=
  match t.base z with
  | some c => c.2.tier.rank
  | none => 0

/-- The OVERLAY claims that cover a zone. -/
def ClaimTable.overlays (t : ClaimTable) (z : Zone) : List (Nat × Claim) :=
  t.held.filter fun c => c.2.kind = .overlay && c.2.covers z

/-- The overlays mixed on a zone: those whose tier is at least the base's (R24). -/
def ClaimTable.mixed (t : ClaimTable) (z : Zone) : List (Nat × Claim) :=
  (t.overlays z).filter fun c => decide (t.baseRank z ≤ c.2.tier.rank)

/-- The overlays suppressed on a zone (R24). -/
def ClaimTable.suppressed (t : ClaimTable) (z : Zone) : List (Nat × Claim) :=
  (t.overlays z).filter fun c => decide (c.2.tier.rank < t.baseRank z)

/-- The zones of which the claim of handle `h` is the base. -/
def ClaimTable.basedZones (t : ClaimTable) (h : Nat) : ZoneSet :=
  zoneSet (Zone.every.filter fun z => t.baseHandle z = some h)

/-- The zones on which the overlay of handle `h` is mixed. -/
def ClaimTable.mixedZones (t : ClaimTable) (h : Nat) : ZoneSet :=
  zoneSet (Zone.every.filter fun z => (t.mixed z).any fun c => c.1 == h)

/-- The claim of handle `h` is EXCLUSIVE and the base of none of its sinks (R33). -/
def ClaimTable.displaced (t : ClaimTable) (h : Nat) (c : Claim) : Bool :=
  c.kind = .exclusive && t.basedZones h == 0

/-- A link's DISPLACED level (R33). -/
def ClaimTable.linkDisplaced (t : ClaimTable) (l : Link) : Bool :=
  t.held.any fun c => c.2.claimant = .link l && t.displaced c.1 c.2

/-- The lowest-numbered free general entry, handles 0..9 (R19). -/
def ClaimTable.freeGeneral (t : ClaimTable) : Option Nat :=
  (List.range 10).find? fun h => (t.entries.getD h none).isNone

/-! ## Posting (R20, R21) -/

def seqMax : Nat := 4294967295

/-- The place of `n` among the numbers, counted from 1. -/
def rankAmong (ns : List Nat) (n : Nat) : Nat := (ns.filter fun m => decide (m < n)).length + 1

/-- R21: the claims, and a retained sequence number of the Traffic and Shift Unit, are numbered 1, 2, 3 and onward in the order
of their sequence numbers, and the counter is set to how many numbers were given. -/
def State.renumber (s : State) : State :=
  let ns := s.table.held.map (fun c => c.2.seq) ++ s.traffic.retained.toList
  let renew : Option Claim → Option Claim := fun c => c.map fun c => { c with seq := rankAmong ns c.seq }
  let s := s.withTable { entries := s.table.entries.map renew, counter := ns.length }
  s.withTraffic { s.traffic with retained := s.traffic.retained.map (rankAmong ns) }

/-- The state in which one more sequence number can be given. -/
def State.readyToPost (s : State) : State := if s.table.counter < seqMax then s else s.renumber

/-- Posting `c` in the entry of handle `h`: the counter rises by 1 and the claim takes the new value (R20). -/
def State.post (s : State) (h : Nat) (c : Claim) : State :=
  let s := s.readyToPost
  s.withTable
    { entries := s.table.entries.set h (some { c with seq := s.table.counter + 1 }), counter := s.table.counter + 1 }

/-- The claim of handle `h`, if there is one, changed in fields that keep its sequence number (R20). -/
def State.changeClaim (s : State) (h : Nat) (f : Claim → Claim) : State := s.setClaim h ((s.claim h).map f)

/-- R18: level and duck are clamped when they enter the record. -/
def clampLevel (x : Int) : Int := clampInt (-24) 359 x
def clampDuck (x : Int) : Int := clampInt 0 120 x

end Sys2Proof.Machine
end

