-- ==== Sys2Proof/Machine/Flags.lean ====
section
/-! DEFINITION. Conditions, watches, the latch and the advisories (R186 to R189): which levels are true, how an edge or a
notice is offered to a watch, and how an advisory joins a list. -/

namespace Sys2Proof.Machine

/-! ## The levels -/

def TunerA.good (t : TunerA) : Bool := (t.state = .tuned || t.state = .afCheck) && decide (30 ≤ t.rx.qs)

/-- Bit `c` of a condition set, if `b`. -/
def conditionBit (c : Nat) (b : Bool) : BitVec 16 := if b then BitVec.ofNat 16 (2 ^ c) else 0

/-- The present levels of conditions 0..10 as link `l` sees them (R186). -/
def State.levels (s : State) (l : Link) : BitVec 16 :=
  conditionBit 0 (s.call.state = .active || s.call.state = .held) |||
  conditionBit 1 (s.call.state = .ringing) |||
  conditionBit 2 s.traffic.announcing |||
  conditionBit 3 (s.shift.state ≠ .off) |||
  conditionBit 4 s.shift.wrapped |||
  conditionBit 5 (s.stations.one.jack ≠ .vacant) |||
  conditionBit 6 (s.stations.two.jack ≠ .vacant) |||
  conditionBit 7 s.tunA.good |||
  conditionBit 8 (s.tunB.state = .held) |||
  conditionBit 9 (s.call.echo.state = .converged) |||
  conditionBit 10 (s.table.linkDisplaced l)

/-! ## Offering edges and notices (R188) -/

/-- The latch takes the members of an offer whose enables are set. -/
def LinkState.offer (x : LinkState) (rise fall : BitVec 16) : LinkState :=
  { x with riseLatch := x.riseLatch ||| (rise &&& x.riseEnable), fallLatch := x.fallLatch ||| (fall &&& x.fallEnable) }

def State.offer (s : State) (l : Link) (rise fall : BitVec 16) : State := s.setLink l ((s.link l).offer rise fall)

def State.offerAll (s : State) (rise fall : BitVec 16) : State :=
  Link.every.foldl (fun s l => s.offer l rise fall) s

/-- A rise, or a notice, of condition `c` offered to every link. -/
def State.riseAll (s : State) (c : Nat) : State := s.offerAll (conditionBit c true) 0

/-- A fall of condition `c` offered to every link. -/
def State.fallAll (s : State) (c : Nat) : State := s.offerAll 0 (conditionBit c true)

/-- A notice of condition `c` for one link. -/
def State.notice (s : State) (l : Link) (c : Nat) : State := s.offer l (conditionBit c true) 0

/-- The levels whose edges the operations that cause them offer themselves: TRAFFIC_ON, SHIFT_ACTIVE and SHIFT_WRAPPED, which
may fall and rise at one event (R99, R186). -/
def offeredInPlace : BitVec 16 := 0b11100

/-- The other levels' edges, found by comparing them before and after an event, offered to each link (R186). A level that ends
where it began gives no edge (R33, log entry 8). -/
def State.offerEdges (before after : State) : State :=
  Link.every.foldl (fun s l =>
    let was := before.levels l
    let is := after.levels l
    s.offer l (is &&& ~~~was &&& ~~~offeredInPlace) (was &&& ~~~is &&& ~~~offeredInPlace)) after

/-- A latch is non-empty. The link's attention line is asserted exactly then (R188). -/
def LinkState.attention (x : LinkState) : Bool := x.riseLatch != 0 || x.fallLatch != 0

/-! ## Advisories (R189) -/

/-- An advisory joins the end of a list that keeps the 4 newest. -/
def joinAdvisory (xs : List Advisory) (a : Advisory) : List Advisory :=
  if xs.length < 4 then xs ++ [a] else xs.drop (xs.length - 3) ++ [a]

/-- An advisory raised for a link: it joins the list, and the notice ADVISORY is offered. -/
def State.advise (s : State) (l : Link) (a : Advisory) : State :=
  (s.setLink l { s.link l with advisories := joinAdvisory (s.link l).advisories a }).notice l 15

end Sys2Proof.Machine
end

