-- ==== Sys2Proof/Machine/Clock.lean ====
section
/-! DEFINITION. The clock and what runs with it in each 48 kHz sample period of RUN: the rate converters, which give one output
sample (R2, R11), and the tuners, each heard as it then stands (R14). The table has no row for the passage of time: time passes when
the queue is empty, and an event that the manual places at a moment brings the clock to that moment (log entries 1, 2). -/

namespace Sys2Proof.Machine

/-! ## Rate converters (R11) -/

/-- How many used slots a sample set of the port has (R3, R4, R5). -/
def portSlots : Port → Nat
  | .p0 => 3 | .p1 => 2 | .p2 => 1

/-- The output between two sets at phase `f`, slot by slot. -/
def interpolate (f : Nat) (x0 x1 : List Int) : List Int :=
  List.zipWith (fun a b => a + ((b - a) * (f : Int) + 32768) / 65536) x0 x1

/-- The converter with its buffer emptied and its started flag cleared. -/
def Converter.emptied (c : Converter) : Converter := { c with buffer := [], started := false, phase := 0 }

/-- Filling and starting: a set that finds 32 sets held is discarded; holding 16 sets starts the converter at phase 0. -/
def Converter.push (c : Converter) (set : List Int) : Converter :=
  let c := if c.buffer.length < 32 then { c with buffer := c.buffer ++ [set] } else c
  if !c.started && decide (16 ≤ c.buffer.length) then { c with started := true, phase := 0 } else c

/-- One output sample of `n` slots, and the converter after it: zero while not started, zero and a restart when fewer than 2
sets are held, and otherwise the interpolation of the two oldest sets. -/
def Converter.pull (c : Converter) (n : Nat) : List Int × Converter :=
  if !c.started then (List.replicate n 0, c)
  else
    match c.buffer with
    | x0 :: x1 :: _ =>
      let f := c.phase + c.step
      (interpolate c.phase x0 x1, { c with buffer := c.buffer.drop (f / 65536), phase := f % 65536 })
    | _ => (List.replicate n 0, { c with started := false, phase := 0 })

/-- The tracker holds its port: the converter runs and sample sets are kept (R9, R11). -/
def Tracker.holding (t : Tracker) : Bool := t.state = .locked || t.state = .holdover

/-- One sample period of a port's sources (R13). -/
def Tracker.period (p : Port) (t : Tracker) : Tracker :=
  if t.holding then
    let (x, c) := t.conv.pull (portSlots p)
    { t with conv := c, delivered := t.delivered ++ [x] }
  else { t with delivered := t.delivered ++ [List.replicate (portSlots p) 0] }

/-! ## What the tuners deliver (R14, R70) -/

/-- Tuner A is released: finished settling on a frequency it is to be heard on (R70). -/
def TunerA.open (t : TunerA) : Bool := t.state = .tuned || (t.state = .afVerify && t.released)

/-- Tuner A stands in a pre-fade (R91, R92). -/
def TunerA.prefading (t : TunerA) : Bool := t.state = .afCheck && (t.phase = .prefadeCheck || t.phase = .prefadeVerify)

/-- Tuner A's demodulator output is live (R70). -/
def TunerA.live (t : TunerA) : Bool := t.open || t.prefading

/-- Tuner B is released: in WATCH or HELD after its settle (R70). Its demodulator output is live exactly then. -/
def TunerB.open (t : TunerB) : Bool := (t.state = .watch || t.state = .held) && !t.settling

/-- How a tuner with a live output, or none where it is not, is heard. -/
def Receiver.heard (r : Receiver) (live : Bool) : Option Heard := if live then some ⟨r.freq.band, r.sep⟩ else none

/-! ## Sample periods -/

/-- One sample period of every port-fed source and of both tuners, which are heard as `a` and `b`. -/
def Ports.period (a b : Option Heard) (x : Ports) : Ports :=
  { x with p0 := x.p0.period .p0, p1 := x.p1.period .p1, p2 := x.p2.period .p2, t0 := x.t0 ++ [a], t1 := x.t1 ++ [b] }

def Ports.periods (a b : Option Heard) : Nat → Ports → Ports
  | 0, x => x
  | n + 1, x => Ports.periods a b n (x.period a b)

/-! ## The clock -/

/-- The sample periods, of the 48 before the next frame event, that have passed at moment `t` (R2). -/
def Clock.passed (c : Clock) (t : Time) : Nat := 48 - min 48 ((c.frameDue - t + samplePeriod - 1) / samplePeriod)

/-- Time passes up to the moment `t`, or not at all if that moment has passed. In RUN the converters run, and the tuners are heard
as they now stand (R2, R11, R14). -/
def State.reach (s : State) (t : Time) : State :=
  let now := max s.clock.now t
  if s.power.state = .run then
    let n := s.clock.passed now
    let a := s.tunA.rx.heard s.tunA.live
    let b := s.tunB.rx.heard s.tunB.open
    (s.withPorts (Ports.periods a b (n - s.clock.periods) s.ports)).withClock
      { s.clock with now := now, periods := max n s.clock.periods }
  else s.withClock { s.clock with now := now }

/-- What the passage of one sample period does. -/
def State.tick (s : State) : State := s.reach (s.clock.now + samplePeriod)

end Sys2Proof.Machine
end

