-- ==== Sys2Proof/Machine/Order.lean ====
section
/-! DEFINITION. The frame exchange (R182 to R184): how an order is taken on its link, checked, answered into the link's reply
slot, and how an event of a block is closed by offering the edges it caused. Every meaning is made with `order` or `event`. -/

namespace Sys2Proof.Machine

abbrev Result := Host.Outcome State Fault Refusal

/-- In a select period of `n` whole bytes on link `l` the hub shifts out a reply's frame, as much of it as the period lasts, and
zeros behind it; the pending flag says whether the latch was non-empty at the start of the period (R182). -/
def State.shiftOut (s : State) (l : Link) (n : Nat) (r : Reply) : State :=
  s.setLink l { s.link l with shifted := some (fit n 0 (r.bytes (s.link l).attention)) }

/-- The whole bytes of the select period that carries a request: its two header bytes and those behind them. -/
def clocked (f : Frame) : Nat := f.bytes.length + 2

/-- A request that finds its reply slot not ready is answered WAIT and discarded (R183). Otherwise its select period shifts
out the held reply; the order is taken, with its effects and their edges at this event, and the slot waits for the answer. -/
def takeOrder (l : Link) (f : Frame) (body : State → Reply × State) (s : State) : State :=
  match (s.link l).slot with
  | .pending _ => s.shiftOut l (clocked f) (.plain .wait)
  | .held r =>
    let s := s.shiftOut l (clocked f) r
    (State.offerEdges s (body s).2).setSlot l (.pending (body s).1)

/-- The Link Block's checks (R184): a frame whose operands the order does not accept, then a link that R185 does not name. -/
def checked {α : Type} (l : Link) (links : List Link) (ops : Option α) (body : α → State → Reply × State) (s : State) :
    Reply × State :=
  match ops with
  | none => (.plain .badOperand, s)
  | some b => if links.contains l then body b s else (.plain .notPermitted, s)

/-- An order on link `l` with its frame, the links that may issue it, its operands, and the owning block's answer. -/
def order {α : Type} (l : Link) (f : Frame) (links : List Link) (ops : Option α) (body : α → State → Reply × State)
    (s : State) : Result :=
  .next (takeOrder l f (checked l links ops body) s)

/-- An event of a block, with the edges it causes. -/
def event (f : State → State) (s : State) : Result := .next (State.offerEdges s (f s))

/-- A refusal with a status, or any reply that changes nothing. -/
def answer (st : Status) (s : State) : Reply × State := (.plain st, s)


/-! The links that R185 names. -/

def byCockpit : List Link := [.cockpit]
def byBody : List Link := [.body]
def byTelephony : List Link := [.telephony]
def byCockpitRear : List Link := [.cockpit, .rear]
def byCockpitBody : List Link := [.cockpit, .body]
def byCockpitTelephony : List Link := [.cockpit, .telephony]
def byCockpitRearBody : List Link := [.cockpit, .rear, .body]
def byAll : List Link := [.cockpit, .telephony, .rear, .body]

end Sys2Proof.Machine
end

