-- ==== Sys2Proof/Machine/Shift.lean ====
section
/-! DEFINITION. The Traffic and Shift Unit's shared operations: the Shift Buffer's states (R101), the RADIO claim (R35),
announcements (R99), the memo (R100, R109 to R111) and the discard (R113). -/

namespace Sys2Proof.Machine

/-! ## What the unit reads and reports -/

def sourceOfTuner : TunerId → Source
  | .a => .tunerA
  | .b => .tunerB

/-- The decoded data that Tuner A offers to the other blocks: the saved copy while there is one, that is, in the gap of a check
and in AF_VERIFY (R91, R92). -/
def TunerA.offered (t : TunerA) : Decoded :=
  match t.saved with
  | some d => d.data
  | none => t.rx.decoder.data

/-- The cabin program's playing source (R41). -/
def State.playing (s : State) : Source :=
  match s.shift.purpose, s.shift.state with
  | some .pause, .capture => .silence
  | some .pause, .replay => .shift
  | _, _ => s.mix.selected

/-- The Shift Buffer is capturing from the tuner (R112). -/
def ShiftBuffer.capturing (b : ShiftBuffer) (t : TunerId) : Bool := b.running && b.captured = some t

/-! ## The stream requests (R177): requester 0 is capture, 1 replay, 2 + n voice n -/

/-- The requests of requester `r` onward that stand at moment `now`, one that is served first standing if `above`: a request waits
while one before it in the class stands, and for its own time (log entry 30). -/
def standing (now : Time) : Nat → Bool → List (Option Time) → List (Option Time)
  | _, _, [] => []
  | r, above, none :: rest => none :: standing now (r + 1) above rest
  | r, above, some p :: rest =>
    let stands := above || decide (now < p + Config.streamDelay r p)
    (if stands then some p else none) :: standing now (r + 1) (above || stands) rest

/-- The requests that now stand, as the moments of their posting. -/
def State.standing (s : State) : List (Option Time) := Machine.standing s.clock.now 0 false s.store.posted

/-- Stream requester `r` posts a request, what has been served before being forgotten, or withdraws it. -/
def State.setPosted (s : State) (r : Nat) (x : Bool) : State :=
  s.withStore { s.store with posted := if x then s.standing.set r (some s.clock.now) else s.store.posted.set r none }

/-- A Shift Buffer that is to replay posts its request for the words of the next frame event (R177). -/
def State.postReplay (s : State) : State :=
  s.setPosted 1 ((s.shift.state = .replay || s.shift.state = .memoReplay) && decide (0 < s.shift.fill))

/-- The Shift Buffer leaves OFF with capture running (R101): both positions at the region's first word, SHIFT_ACTIVE rises. -/
def State.startCapture (s : State) (st : ShiftState) (p : Purpose) (cause : Option PauseCause) (t : TunerId) : State :=
  (s.withShift
    { state := st, purpose := some p, cause := cause, captured := some t, running := true,
      write := some s.store.shiftFirst, replay := some s.store.shiftFirst, fill := 0, wrapped := false, drained := false }).riseAll 3

/-- The Shift Buffer enters OFF (R101): its fields take their values while OFF, and the levels that were true fall. -/
def State.shiftOff (s : State) : State :=
  let t := ((s.withShift .off).setPosted 0 false).setPosted 1 false
  let t := if s.shift.state = .off then t else t.fallAll 3
  if s.shift.wrapped then t.fallAll 4 else t

/-! ## The RADIO claim (R35) -/

def radioHandle : Nat := 10
def callHandle : Nat := 11
def voiceHandle (n : Nat) : Nat := 12 + n

/-- The RADIO claim with its source; `State.post` gives its sequence number. -/
def radioClaim (src : Source) : Claim :=
  { claimant := .radio, tier := .normal, kind := .exclusive, zones := radioZones, source := src, level := some 0, duck := none,
    ramp := .medium, ending := false, seq := 0 }

/-- The RADIO claim is the base of at least one sink. -/
def State.radioIsBase (s : State) : Bool := s.table.basedZones radioHandle != 0

/-- R110: a NORMAL EXCLUSIVE claim on the RADIO claim's zones that carried sequence number `r` would be the base of one. -/
def ClaimTable.wouldBeBase (t : ClaimTable) (r : Nat) : Bool :=
  [Zone.front, .rear, .cargo, .sub].any fun z =>
    (t.exclusives z).all fun c => c.2.tier = .normal && decide (c.2.seq ≤ r)

/-! ## Memo capture and replay -/

/-- A memo considered (R100) for an announcement from tuner `t`. -/
def State.considerMemo (s : State) (t : TunerId) : State :=
  if !s.traffic.memo then s
  else
    match s.shift.state with
    | .off =>
      if s.store.shiftSize = 0 then
        (s.withTraffic { s.traffic with outcome := some .missed }).advise .cockpit (.taMissed .noRegion (.tuner t))
      else
        (s.withTraffic { s.traffic with outcome := some .captured }).startCapture .memoCapture .memo none t
    | .capture | .replay =>
      (s.withTraffic { s.traffic with outcome := some .missed }).advise .cockpit (.taMissed .busy (.tuner t))
    | .memoCapture | .memoHeld | .memoReplay => s

/-- The announcement from tuner `t` is unheard and no memo of it has been considered to its end: its outcome is NONE, and the
RADIO claim, with a tuner source, is the base of none of its sinks (R100). -/
def State.unheard (s : State) : Option TunerId :=
  match s.traffic.source, s.claim radioHandle with
  | .tuner t, some c =>
    if s.traffic.announcing && s.traffic.outcome = some .none && c.source ≠ .shift && !s.radioIsBase then some t else none
  | _, _ => none

/-- A memo capture becomes a replay behind it: the claim's source becomes SHIFT, keeping its sequence number (R35, R109). -/
def State.replayMemo (s : State) : State :=
  ((s.withShift { s.shift with state := .memoReplay }).changeClaim radioHandle fun c => { c with source := .shift }).postReplay

/-- What the unit does at each change of the Claim Table's contents (R26, R100, R109, R110). A held memo that is to be replayed
posts its claim while the retained sequence number is still held, so that a renumbering which that post needs still counts it (R21,
R110, log entry 59). -/
def State.tableChanged (s : State) : State :=
  match s.shift.state with
  | .memoCapture => if s.traffic.announcing && s.radioIsBase then s.replayMemo else s
  | .memoHeld =>
    match s.traffic.retained with
    | some r =>
      if s.table.wouldBeBase r then
        let s := s.withShift { s.shift with state := .memoReplay, running := false }
        let s := s.post radioHandle (radioClaim .shift)
        (s.withTraffic { s.traffic with retained := none }).postReplay
      else s
    | none => s
  | .memoReplay => s
  | .off | .capture | .replay =>
    match s.unheard with
    | some t => s.considerMemo t
    | none => s

/-! ## Announcements (R99) -/

/-- An announcement from tuner `t` starts: TRAFFIC_ON rises, and the claim is posted, or the announcement is added to the memo
that the Shift Buffer holds (R111), after whose post the retained sequence number is absent (log entry 59). -/
def State.startAnnouncement (s : State) (t : TunerId) : State :=
  let s := (s.withTraffic { s.traffic with announcing := true, outcome := some .none }).riseAll 2
  match s.shift.state with
  | .off | .capture | .replay => (s.post radioHandle (radioClaim (sourceOfTuner t))).tableChanged
  | .memoHeld =>
    let s := s.post radioHandle (radioClaim (sourceOfTuner t))
    let s := s.withTraffic { s.traffic with retained := none, outcome := some .captured }
    let s := s.withShift { s.shift with state := .memoCapture, captured := some t, running := true }
    if s.radioIsBase then s.replayMemo else s
  | .memoReplay =>
    let s := s.withTraffic { s.traffic with outcome := some .captured }
    s.withShift { s.shift with captured := some t, running := true }
  | .memoCapture => s

/-- The announcement ends: TRAFFIC_ON falls, a memo capture becomes a held memo that retains the claim's sequence number, and a
RADIO claim on a tuner source is removed (R99, R109, R110). What capture has posted still stands (log entry 31). -/
def State.endAnnouncement (s : State) : State :=
  let s : State := (s.withTraffic { s.traffic with announcing := false, outcome := none }).fallAll 2
  let s : State :=
    match s.shift.state with
    | .memoCapture =>
      (s.withTraffic { s.traffic with retained := (s.claim radioHandle).map fun c => c.seq }).withShift
        { s.shift with state := .memoHeld, running := false }
    | .memoReplay => s.withShift { s.shift with running := false }
    | .off | .capture | .replay | .memoHeld => s
  match s.claim radioHandle with
  | some c => if c.source = .shift then s else (s.setClaim radioHandle none).tableChanged
  | none => s

/-! ## Discard (R113) -/

/-- After a memo is discarded, a RADIO claim with source SHIFT goes back to the traffic source, keeping its sequence number, if
an announcement is in progress, and is removed otherwise. -/
def State.dropMemoClaim (s : State) : State :=
  let s := s.withTraffic { s.traffic with retained := none }
  match s.claim radioHandle with
  | some c =>
    if c.source = .shift then
      match s.traffic.announcing, s.traffic.source with
      | true, .tuner t => (s.changeClaim radioHandle fun c => { c with source := sourceOfTuner t }).tableChanged
      | _, _ => (s.setClaim radioHandle none).tableChanged
    else s
  | none => s

/-- The Shift Buffer is discarded for a cause; while OFF there is nothing to discard. -/
def State.discard (s : State) (cause : DiscardCause) : State :=
  if s.shift.state = .off then s
  else
    let t := s.shiftOff
    let t :=
      if cause = .hubReset then t else t.advise .cockpit (.shiftDiscarded cause s.shift.state s.shift.fill)
    if s.shift.purpose = some .memo then t.dropMemoClaim else t

/-- A programme retune of tuner `t` reported to the unit (R74, R85): it discards what was captured from that tuner. -/
def State.retuned (s : State) (t : TunerId) : State :=
  if s.shift.captured = some t then s.discard .retune else s

end Sys2Proof.Machine
end

