-- ==== Sys2Proof/Machine/Radio.lean ====
section
/-! DEFINITION. The Tuner Controller's shared operations: quality, soft mute and blend (R68 to R71), the station data decoder
(R72), the Station List (R78, R80), the tune of Tuner A (R74), Tuner B's assignment (R85), and the choice of the traffic source
that follows every change of either tuner (R97 to R99). -/

namespace Sys2Proof.Machine

/-! ## Measurement, soft mute and blend -/

/-- Q of a measurement on a band; on MW the multipath is always 0 (R68). -/
def quality (band : Band) (m : Meas) : Nat :=
  let multi := match band with | .fm => m.multipath | .mw => 0
  (clampInt 0 100 (2 * (m.level : Int) - 20 - multi - ((m.adjacent / 2 : Nat) : Int))).toNat

/-- Qs after a later measurement of quality `q` (R69). -/
def smooth (qs q : Nat) : Nat := (3 * qs + q + 2) / 4

/-- The soft-mute trim (R70). -/
def softTrim (qs : Nat) : Int := if qs < 20 then (20 - (qs : Int)) * 4 else 0

/-- The stereo separation, 0..16 (R71). -/
def separation (qs : Nat) : Nat := if 60 ≤ qs then 16 else if qs ≤ 30 then 0 else (qs - 30) * 16 / 30

/-- One demodulated pair blended toward mono (R71). -/
def blend (sep : Nat) (l r : Int) : Int × Int :=
  let mid := (l + r) / 2
  let t := (sep : Int) * ((l - r) / 2) / 16
  (sat24 (mid + t), sat24 (mid - t))

/-- A receiver takes a measurement: the first after a tune sets Qs, a later one smooths it (R69), and the separation follows, to
hold until the next (R71). -/
def Receiver.measure (r : Receiver) (m : Meas) (now : Time) : Receiver :=
  let q := quality r.freq.band m
  let multi := match r.freq.band with | .fm => m.multipath | .mw => 0
  let qs := if r.aside then q else smooth r.qs q
  { r with last := ⟨m.level, multi, m.adjacent, q⟩, qs := qs, aside := false, sep := separation qs, measuredAt := now }

/-- A change of the tuner's trim marked fast (R44, R70). -/
def Receiver.marked (r : Receiver) : Receiver := { r with markedFast := true, fastDue := true }

/-- A measurement of a released tuner: a change of soft mute carries no mark (R70). -/
def Receiver.measureReleased (r : Receiver) (m : Meas) (now : Time) : Receiver :=
  let x := r.measure m now
  if softTrim x.qs = softTrim r.qs then x else { x with markedFast := false }

/-- A tuner falls silent: its trim, if it was not 360 already, changes to 360, marked fast (R70). -/
def Receiver.hush (r : Receiver) (wasOpen : Bool) : Receiver := if wasOpen then r.marked else r

/-- A receiver tuned to a frequency: its data is cleared and its Qs set aside until the first measurement (R74, R85). While set
aside it reads 0 (log entry 11); the separation holds (R71). -/
def Receiver.tune (r : Receiver) (f : Freq) (now : Time) : Receiver :=
  { r with freq := f, qs := 0, aside := true, decoder := .empty, since := now, groupAt := now }

def TunerA.trim (t : TunerA) : Int := if t.open then softTrim t.rx.qs else 360

def TunerB.trim (t : TunerB) : Int := if t.open then softTrim t.rx.qs else 360

/-- Tuner B performs a sweep (R86). -/
def TunerB.sweeping (t : TunerB) : Bool := t.state = .scan || t.state = .refresh

/-! ## Station data (R72) -/

/-- The identity of a good group: present, or changed, once two consecutive groups carry it; a change makes the name and the
alternate list absent, with what was received of them. -/
def Decoder.takeIdentity (d : Decoder) (i : Nat) : Decoder :=
  let d' := { d with lastIdentity := some i }
  if d.lastIdentity ≠ some i then d'
  else
    match d.data.identity with
    | none => { d' with data := { d.data with identity := some i } }
    | some j =>
      if j = i then d'
      else
        { data := { d.data with identity := some i, name := none, alternates := none }, lastIdentity := some i,
          segments := List.replicate 4 none, altCount := none, altParts := [] }

/-- The characters `2s` and `2s + 1` of a name replaced. -/
def replaceSegment (name : List Byte) (s : Nat) (c0 c1 : Byte) : List Byte := (name.set (2 * s) c0).set (2 * s + 1) c1

/-- Every member is present. -/
def allPresent {α : Type} (xs : List (Option α)) : Bool := xs.all Option.isSome

def Decoder.takeSegment (d : Decoder) (s : Nat) (c0 c1 : Byte) : Decoder :=
  match d.data.name with
  | some n => { d with data := { d.data with name := some (replaceSegment n s c0 c1) } }
  | none =>
    let segs := d.segments.set s (some (c0, c1))
    let d := { d with segments := segs }
    if allPresent segs then
      { d with data := { d.data with name := some ((segs.filterMap id).flatMap fun p => [p.1, p.2]) } }
    else d

/-- One position of a partial alternate list; a frequency off the FM raster counts as not received. -/
def placeAlternate (parts : List (Option Nat)) (p f : Nat) : List (Option Nat) :=
  if Freq.onRaster ⟨.fm, f⟩ then parts.set p (some f) else parts

/-- An alternate segment: a different count starts the partial list again; the complete list replaces the one before it. -/
def Decoder.takeAlternates (d : Decoder) (count p f0 f1 : Nat) : Decoder :=
  let parts := if d.altCount = some count then d.altParts else List.replicate count none
  let parts := placeAlternate (placeAlternate parts p f0) (p + 1) f1
  if allPresent parts then
    { d with data := { d.data with alternates := some (parts.filterMap id) }, altCount := none, altParts := [] }
  else { d with altCount := some count, altParts := parts }

/-- A good group decoded. -/
def Decoder.take (d : Decoder) (g : DataGroup) : Decoder :=
  let d := d.takeIdentity g.identity.toNat
  let d := { d with data := { d.data with tp := some g.tp, ta := some g.ta } }
  match g.payload with
  | .name s c0 c1 => d.takeSegment s.val c0 c1
  | .alternates count p f0 f1 => d.takeAlternates count p f0 f1

/-- The fields decoded replace those of a saved copy; the rest keep the saved values (R92). -/
def Decoded.over (new old : Decoded) : Decoded :=
  { identity := new.identity <|> old.identity, name := new.name <|> old.name, tp := new.tp <|> old.tp,
    ta := new.ta <|> old.ta, alternates := new.alternates <|> old.alternates }

/-! ## The Station List (R78, R80) -/

/-- The list order: FM before MW, then ascending frequency. -/
def Freq.before (f g : Freq) : Bool :=
  decide (f.band.code < g.band.code) || (f.band = g.band && decide (f.khz < g.khz))

def insertEntry (e : Entry) : List Entry → List Entry
  | [] => [e]
  | x :: rest => if e.freq.before x.freq then e :: x :: rest else x :: insertEntry e rest

def findEntry (xs : List Entry) (f : Freq) : Option Entry := xs.find? fun e => e.freq = f

def dropEntry (xs : List Entry) (f : Freq) : List Entry := xs.filter fun e => e.freq ≠ f

/-- The entry of frequency `f`, if there is one, changed in other fields. -/
def changeEntry (xs : List Entry) (f : Freq) (g : Entry → Entry) : List Entry :=
  xs.map fun e => if e.freq = f then g e else e

/-- The frequencies whose entries are A's entries. -/
def TunerA.ownFreqs (t : TunerA) : List Freq :=
  t.rx.freq :: (if t.state = .afCheck || t.state = .afVerify then t.home.toList else [])

/-- A's entries, and entries with a preset, are protected. -/
def TunerA.shields (t : TunerA) (e : Entry) : Bool := e.preset.isSome || t.ownFreqs.contains e.freq

/-- The victim of the replacement rule: the lowest Qs among entries not protected, the first in list order among equals. -/
def victim (shielded : Entry → Bool) (xs : List Entry) : Option Entry :=
  (xs.filter fun e => !shielded e).foldl (fun best e =>
    match best with
    | none => some e
    | some b => if e.qs < b.qs then some e else some b) none

/-- The list after an entry is due to be inserted, or none where the replacement rule drops it (R80). -/
def placeEntry (shielded : Entry → Bool) (xs : List Entry) (e : Entry) : Option (List Entry) :=
  if xs.length < 48 then some (insertEntry e xs)
  else
    match victim shielded xs with
    | some v => if v.qs < e.qs then some (insertEntry e (dropEntry xs v.freq)) else none
    | none => none

/-- The list replaced at an event that raises its version by 1 (R78). -/
def Radio.withNewVersion (r : Radio) (xs : List Entry) : Radio :=
  { r with stations := xs, version := (r.version + 1) % 65536 }

def Radio.withStations (r : Radio) (xs : List Entry) : Radio := { r with stations := xs }

/-! ## Tuner A (R74) -/

/-- Tuner A is tuned to a frequency. Whatever tune, seek or alternate operation was in progress is abandoned. `report` is what
the TUNE_DONE at the end of the settle will carry. R74 has the low count 0 when SETTLING ends; it is 0 from the tune on here (log
entry 55). -/
def State.tuneA (s : State) (f : Freq) (report : Option (TuneCause × TuneResult)) : State :=
  s.withTunA
    { s.tunA with
      rx := (s.tunA.rx.hush s.tunA.open).tune f s.clock.now, state := .settling, released := false, candidate := none, home := none,
      saved := none, seekDir := none, seekStart := none, low := 0, report := report }

/-- TUNE_DONE raised with its record set (R74). -/
def State.tuneDone (s : State) (r : TuneCause × TuneResult) : State :=
  (s.withTunA { s.tunA with lastTune := some ⟨r.1, r.2, s.tunA.rx.freq⟩ }).riseAll 12

/-! ## Tuner B (R85) -/

/-- A tuner stops without a tune, a seek, a sweep, a pre-fade or a gap: a change of its trim to 360 carries no fast mark (R70, log
entry 54). -/
def Receiver.silence (r : Receiver) (wasOpen : Bool) : Receiver :=
  if wasOpen then { r with markedFast := false, fastDue := false } else r

/-- Tuner B enters a state, tuned to `f` where the state calls for it; a sweep in progress is abandoned (R81). The change is
reported to the Traffic and Shift Unit as a programme retune. -/
def State.enterB (s : State) (st : BState) (f : Option Freq) : State :=
  let rx := match f with
    | some f => (s.tunB.rx.hush s.tunB.open).tune f s.clock.now
    | none => s.tunB.rx.silence s.tunB.open
  (s.withTunB { s.tunB with rx := rx, state := st, settling := st = .watch || st = .held, dwell := false, changed := false }).retuned .b

def firstChannel : Freq := ⟨.fm, 87500⟩

/-- A new sweep begins at FM 87.5 MHz, in SCAN or REFRESH (R86); the seen flags that an abandoned sweep set are cleared (R81). -/
def State.startSweep (s : State) (st : BState) : State :=
  (s.withRadio (s.radio.withStations (s.radio.stations.map fun e => { e with seen := false }))).enterB st (some firstChannel)

/-- Tuner B takes the state its assignment gives, in RUN (R85). -/
def State.assignB (s : State) : State :=
  if s.power.state ≠ .run then s
  else
    match s.tunB.holder, s.traffic.watch with
    | some _, _ => if s.tunB.state = .held then s else s.enterB .held (some s.tunB.rx.freq)
    | none, some f =>
      if s.tunB.state = .watch && s.tunB.rx.freq = f then s else s.enterB .watch (some f)
    | none, none =>
      if s.radio.scan then (if s.tunB.state = .scan then s else s.startSweep .scan)
      else if s.tunB.state = .idle then s
      else s.enterB .idle none

/-! ## The traffic source (R97 to R99) -/

/-- The three conditions under which Tuner A is eligible (R97). -/
def TunerA.serving (t : TunerA) : Bool :=
  t.rx.freq.band = .fm && (t.state = .tuned || t.state = .afCheck || t.state = .afVerify) && t.offered.tp = some true

/-- The A eligible flag and its hold timer follow the conditions (R97). -/
def State.followEligible (s : State) : State :=
  if s.tunA.serving then s.withTraffic { s.traffic with eligible := true, holdAt := none }
  else if s.traffic.eligible && s.traffic.holdAt.isNone then
    s.withTraffic { s.traffic with holdAt := some s.clock.now }
  else s

/-- The entry a watch request is set on: the FM entry with TP set of highest Qs, the first among equals (R98). -/
def watchChoice (xs : List Entry) : Option Freq :=
  ((xs.filter fun e => e.freq.band = .fm && e.tp = some true).foldl (fun best e =>
    match best with
    | none => some e
    | some b => if b.qs < e.qs then some e else some b) none).map (·.freq)

/-- A standing request is kept while its entry stays in the list with its TP flag set (R98). -/
def watchStands (xs : List Entry) (f : Freq) : Bool :=
  match findEntry xs f with
  | some e => e.tp = some true
  | none => false

/-- The watch request follows the traffic setting, the A eligible flag and the Station List (R97, R98). -/
def State.followWatch (s : State) : State :=
  let w :=
    if !s.traffic.on || s.traffic.eligible then none
    else
      match s.traffic.watch with
      | some f => if watchStands s.radio.stations f then some f else watchChoice s.radio.stations
      | none => watchChoice s.radio.stations
  s.withTraffic { s.traffic with watch := w }

/-- The traffic source that the settings and the tuners now give (R97). -/
def State.sourceNow (s : State) : TrafficSource :=
  if !s.traffic.on then .none
  else if s.traffic.eligible then .tuner .a
  else if s.traffic.watch.isSome && s.tunB.state = .watch then .tuner .b
  else .none

/-- The TA flag that a traffic source offers; an absent flag counts as not set (R99). Tuner A offers its data in a settle too, where only
a failed verification leaves it any (log entry 14). -/
def State.taOf (s : State) : TrafficSource → Bool
  | .none => false
  | .tuner .a => s.tunA.offered.ta = some true
  | .tuner .b => s.tunB.state = .watch && s.tunB.rx.decoder.data.ta = some true

/-- The traffic source is chosen, and the announcement ends or starts with it (R97, R99). -/
def State.followSource (s : State) : State :=
  let src := s.sourceNow
  let s :=
    if s.traffic.announcing && !(src = s.traffic.source && s.taOf src) then s.endAnnouncement else s
  let s := s.withTraffic { s.traffic with source := src }
  match src with
  | .tuner t => if !s.traffic.announcing && s.taOf src then s.startAnnouncement t else s
  | .none => s

/-- What follows every change of a tuner, of the Station List, of the holder, of the power state and of the settings that bear on
them: eligibility, the watch request, Tuner B's assignment, and the traffic source with its announcement. -/
def State.reassess (s : State) : State := s.followEligible.followWatch.assignB.followSource

/-- A programme retune of Tuner A: the tune, its report to the Traffic and Shift Unit, and what follows (R74). -/
def State.retuneA (s : State) (f : Freq) (r : TuneCause × TuneResult) : State :=
  ((s.tuneA f (some r)).retuned .a).reassess

end Sys2Proof.Machine
end

