-- ==== Sys2Proof/Machine/Claims.lean ====
section
/-! DEFINITION. The claim orders of the links: CLAIM, RELEASE and AMEND (section 2.4). -/

namespace Sys2Proof.Machine

/-- The sources a link's claim may name (R22). -/
def Source.claimable : Source → Bool
  | .tunerA | .tunerB | .mediaFront | .mediaRear | .nav | .silence => true
  | .callDown | .voice _ | .shift => false

/-- The tiers and zones of a link's authority (R22). -/
def mayClaim (l : Link) (t : Tier) (zs : ZoneSet) : Bool :=
  match l with
  | .cockpit => t = .normal
  | .telephony => false
  | .rear => t = .normal && within zs stationZones
  | .body => t ≠ .call && within zs speakerZones

/-- The claim that an accepted CLAIM posts (R29). An EXCLUSIVE claim's duck is absent. -/
def linkClaim (l : Link) (tier : Tier) (kind : Kind) (zones : ZoneSet) (src : Source) (level duck : Int) (ramp : Ramp) :
    Claim :=
  { claimant := .link l, tier := tier, kind := kind, zones := zones, source := src, level := some (clampLevel level),
    duck := match kind with | .overlay => some (clampDuck duck) | .exclusive => none,
    ramp := ramp, ending := false, seq := 0 }

/-- The placed zones of a CLAIM's reply (R29). -/
def placedZones (t : ClaimTable) (h : Nat) : Kind → ZoneSet
  | .exclusive => t.basedZones h
  | .overlay => t.mixedZones h

/-- An accepted CLAIM: handle, sequence number and placed zones (R29). -/
def postLinkClaim (h : Nat) (c : Claim) (s : State) : Reply × State :=
  let s := s.post h c
  (.answer ([byteOf h] ++ be4 s.table.counter ++ [byteOf (placedZones s.table h c.kind).toNat]), s.tableChanged)

/-- R28, from its third check on. Operands: tier, kind, zone set, source, level, duck, ramp class. -/
def claimBody (l : Link) (b : List Byte) (s : State) : Reply × State :=
  match tierOf (u8 b 0), kindOf (u8 b 1), zoneSetOf (u8 b 2), sourceOf (u8 b 3), rampOf (u8 b 8) with
  | some tier, some kind, some zones, some src, some ramp =>
    if zones = 0 || !src.claimable then answer .badOperand s
    else if !mayClaim l tier zones then answer .notPermitted s
    else if l = .rear && s.stations.lock then answer .locked s
    else
      match s.table.freeGeneral with
      | none => answer .full s
      | some h => postLinkClaim h (linkClaim l tier kind zones src (s16 b 4) (s16 b 6) ramp) s
  | _, _, _, _, _ => answer .badOperand s

def execClaim (l : Link) (f : Frame) (s : State) : Result :=
  order l f byCockpitRearBody (operands 9 f) (claimBody l) s

/-- R30. Operand: handle. -/
def releaseBody (l : Link) (b : List Byte) (s : State) : Reply × State :=
  let h := u8 b 0
  if 15 < h then answer .badOperand s
  else
    match s.claim h with
    | none => answer .noSuch s
    | some c => if c.claimant = .link l then answer .done (s.setClaim h none).tableChanged else answer .notPermitted s

def execRelease (l : Link) (f : Frame) (s : State) : Result := order l f byAll (operands 1 f) (releaseBody l) s

/-- The claim after an AMEND (R31). -/
def Claim.amended (c : Claim) (level duck : Int) (ramp : Ramp) : Claim :=
  { c with level := some (clampLevel level),
           duck := match c.kind with | .overlay => some (clampDuck duck) | .exclusive => c.duck,
           ramp := ramp }

/-- R31. Operands: handle, level, duck, ramp class. -/
def amendBody (l : Link) (b : List Byte) (s : State) : Reply × State :=
  let h := u8 b 0
  match rampOf (u8 b 5) with
  | none => answer .badOperand s
  | some ramp =>
    if 15 < h then answer .badOperand s
    else
      match s.claim h with
      | none => answer .noSuch s
      | some c =>
        if c.claimant ≠ .link l then answer .notPermitted s
        else if l = .rear && s.stations.lock then answer .locked s
        else answer .done (s.setClaim h (some (c.amended (s16 b 1) (s16 b 3) ramp))).tableChanged

def execAmend (l : Link) (f : Frame) (s : State) : Result := order l f byAll (operands 6 f) (amendBody l) s

end Sys2Proof.Machine
end

