-- ==== Sys2Proof/Machine/Echo.lean ====
section
/-! DEFINITION. The Call Processor's shared operations: the CALL claim and the entry actions of the call states (R36, R118),
placement with its fallback (R119, R120), the uplink microphone (R121), and the canceller's reset and sample (R126 to R133). -/

namespace Sys2Proof.Machine

/-! ## The CALL claim (R36) -/

def placementZones : Placement → ZoneSet
  | .cabin => 0b0000011
  | .driver => 0b0010000
  | .station .one => 0b0100000
  | .station .two => 0b1000000

/-- The claim of a call that is not IDLE; `State.post` gives its sequence number. -/
def callClaim (p : CallPhase) (place : Placement) : Claim :=
  { claimant := .call, tier := .call,
    kind := if p = .active then .exclusive else .overlay,
    zones := placementZones place,
    source := if p = .held then .silence else .callDown,
    level := none,
    duck := if p = .active then none else some 36,
    ramp := .medium, ending := false, seq := 0 }

/-- The CALL claim follows a change of call state: posted on leaving IDLE, removed on entering it, moved to the newest
sequence number when its kind changes, and otherwise changed in place (R20, R36, R118). -/
def State.followCallClaim (s : State) (was is : CallPhase) : State :=
  let new := callClaim is s.call.placement
  if is = .idle then s.setClaim callHandle none
  else if was = .idle || (callClaim was s.call.placement).kind ≠ new.kind then s.post callHandle new
  else s.changeClaim callHandle fun c => { new with seq := c.seq }

/-! ## The canceller's states (R118, R133) -/

def noCoeffs : List Int := List.replicate 2048 0

/-- The window's count, sums and active count returned to 0 (R131). -/
def Canceller.clearWindow (e : Canceller) : Canceller := { e with count := 0, active := 0, sumMic := 0, sumErr := 0 }

/-- The canceller enters OFF: coefficients, reference history and window cleared (R118). -/
def Canceller.stop (e : Canceller) : Canceller :=
  { e.clearWindow with state := .off, coeffs := noCoeffs, history := List.replicate 2048 0 }

/-- From OFF the canceller enters CONVERGING with coefficients zero; otherwise it keeps its state and coefficients (R118). -/
def Canceller.engage (e : Canceller) : Canceller :=
  if e.state = .off then { e with state := .converging, coeffs := noCoeffs } else e

/-- A canceller reset (R133); OFF is left as it is. -/
def Canceller.reset (e : Canceller) : Canceller :=
  if e.state = .off then e else { e.clearWindow with state := .converging, coeffs := noCoeffs }

def State.withEcho (s : State) (e : Canceller) : State := s.withCall { s.call with echo := e }

def State.resetEcho (s : State) : State := s.withEcho s.call.echo.reset

/-! ## The Shift Buffer on call events (R108) -/

/-- A pause becomes a replay, as RESUME and an auto-resume make it (R105, R108). What capture has posted still stands, for the words
recorded at the last frame event (log entry 31). -/
def State.resumeReplay (s : State) : State := (s.withShift { s.shift with state := .replay, running := false }).postReplay

def State.callEnteredActive (s : State) : State :=
  if s.traffic.pauseOnCall && s.power.state = .run && s.shift.state = .off && s.mix.selected = .tunerA
      && s.store.shiftSize ≠ 0 then
    s.startCapture .capture .pause (some .call) .a
  else s

def State.callEnteredIdle (s : State) : State :=
  if s.shift.state = .capture && s.shift.cause = some .call && s.traffic.autoResume then s.resumeReplay else s

/-! ## Entering a call state (R118) -/

def State.enterCall (s : State) (p : CallPhase) : State :=
  let was := s.call.state
  let s := ((s.withCall { s.call with state := p }).followCallClaim was p).tableChanged
  match p with
  | .ringing => s.withEcho s.call.echo.stop
  | .active => (s.withEcho s.call.echo.engage).callEnteredActive
  | .held => s.withEcho s.call.echo.engage
  | .idle => (s.withEcho s.call.echo.stop).callEnteredIdle

/-! ## The uplink microphone (R121) -/

/-- The microphone that placement, jack class and mic mode give. -/
def State.micChoice (s : State) : Mic :=
  let byMode : Mic :=
    match s.call.mode with
    | .driver => .cabin 0
    | .passenger => .cabin 1
    | .rearLeft => .cabin 2
    | .rearRight => .cabin 3
    | .conference => .cabin s.call.choice
  match s.call.placement with
  | .station st => if (s.station st).jack = .headset then .jack st else byMode
  | .cabin | .driver => byMode

/-- The choice made again; a microphone other than the one in use resets the canceller. -/
def State.chooseMic (s : State) : State :=
  if s.micChoice = s.call.mic then s else (s.withCall { s.call with mic := s.micChoice }).resetEcho

/-! ## Placement (R119, R120) -/

/-- The placement becomes `p`, with the CALL claim's zone set, the microphone and the canceller. -/
def State.placeCall (s : State) (p : Placement) : State :=
  let s := s.withCall { s.call with placement := p }
  let s :=
    if s.call.state = .idle then s
    else (s.changeClaim callHandle fun c => { c with zones := placementZones p }).tableChanged
  s.chooseMic.resetEcho

/-- The placement falls back to CABIN as the placed station's class becomes OPEN or SHORT (R120). What the new placement makes of an
announcement comes first, so that a TA_MISSED joins COCKPIT's list before PLACEMENT_FALLBACK (log entry 70). -/
def State.placementFallback (s : State) (st : StationId) : State :=
  let t := s.placeCall .cabin
  if s.call.state = .idle then t
  else (t.advise .telephony (.placementFallback st s.call.state)).advise .cockpit (.placementFallback st s.call.state)

/-- A change of a station's jack class (R145): the placed station's class moves the placement or the microphone. A class that
stays as it was has no effect. -/
def State.setClass (s : State) (st : StationId) (c : JackClass) : State :=
  if (s.station st).jack = c then s
  else
    let s := s.setStation st { s.station st with jack := c }
    if s.call.placement ≠ .station st then s
    else if c = .vacant || c = .short then s.placementFallback st
    else s.chooseMic

/-! ## The uplink and the canceller's sample (R126 to R131) -/

/-- The reference power P: the sum of squares of the reference history. -/
def Canceller.power (e : Canceller) : Int := sumSquares e.history

/-- 2^20, the power from which the cabin counts as sounding. -/
def powerFloor : Int := 1048576

def dot (w x : List Int) : Int := sumOf (List.zipWith (· * ·) w x)

/-- The estimate of the echo (R128, step 2). -/
def Canceller.estimate (e : Canceller) : Int := sat16 ((dot e.coeffs e.history + 536870912) / 1073741824)

/-- The uplink sample of error `err` (R126), for a call that is ACTIVE and no mic mute. -/
def Canceller.uplink (e : Canceller) (err : Int) : Int :=
  let loud := (e.state = .converging || e.state = .diverged) && decide (powerFloor ≤ e.power)
  sat16 (product err (gain (if loud then 24 else 0)))

/-- Double talk, looked for in CONVERGED only (R130). -/
def Canceller.doubleTalk (e : Canceller) : Bool :=
  e.state = .converged && decide (2 * sumSquares e.dtEst < sumSquares e.dtMic)

/-- The canceller adapts at a sample of an ACTIVE call (R130). -/
def Canceller.adapts (e : Canceller) (muted : Bool) : Bool :=
  e.state ≠ .off && !muted && decide (powerFloor ≤ e.power) && !e.doubleTalk

/-- The change of a coefficient: `N / D` rounded half up, N = μ·e·x·2^30 with μ = 1/4, or 1/16 in CONVERGED (R129). -/
def Canceller.delta (e : Canceller) (err x : Int) : Int :=
  let n := err * x * (if e.state = .converged then 67108864 else 268435456)
  let d := e.power + powerFloor
  (2 * n + d) / (2 * d)

/-- Every coefficient updated and saturated (R129). -/
def Canceller.adapt (e : Canceller) (err : Int) : Canceller :=
  { e with coeffs := List.zipWith (fun w x => sat32 (w + e.delta err x)) e.coeffs e.history }

/-- One sample of an ACTIVE call with the canceller not OFF (R128): the reference `x` and the microphone sample `m` give the
uplink sample and the canceller after it. The double-talk sums take in the sample last, so double talk is looked for in the
sums before it. -/
def Canceller.sample (e : Canceller) (muted : Bool) (x m : Int) : Int × Canceller :=
  let e := { e with history := x :: e.history.dropLast }
  let y := e.estimate
  let err := sat16 (m - y)
  let up := if muted then 0 else e.uplink err
  let adapts := e.adapts muted
  let e' := if adapts then e.adapt err else e
  (up,
    { e' with
      adapted := adapts,
      dtMic := m :: e.dtMic.dropLast, dtEst := y :: e.dtEst.dropLast,
      count := e.count + 1,
      sumMic := e.sumMic + m * m, sumErr := e.sumErr + err * err,
      active := if powerFloor ≤ e.power then e.active + 1 else e.active })

/-- The samples of one frame event in order. -/
def Canceller.samples (e : Canceller) (muted : Bool) : List Int → List Int → List Int × Canceller
  | x :: xs, m :: ms =>
    let (u, e) := e.sample muted x m
    let (us, e) := Canceller.samples e muted xs ms
    (u :: us, e)
  | _, _ => ([], e)

/-! ## The window (R131, R132) -/

/-- ERLE of a window, in dB: floor(10·log10(mic / err)), exactly, as the greatest k of -4..60 with 10^k·err^10 ≤ mic^10. -/
def erleOf (mic err : Int) : Int :=
  if err = 0 then 60
  else
    let fits : Int → Bool := fun k =>
      if 0 ≤ k then decide (10 ^ k.toNat * err ^ 10 ≤ mic ^ 10) else decide (err ^ 10 ≤ 10 ^ (-k).toNat * mic ^ 10)
    match ((List.range 65).map fun (i : Nat) => (60 : Int) - (i : Int)).find? fits with
    | some k => k
    | none => -4

/-- A window judged (R132), its count, sums and active count then returned to 0. -/
def Canceller.judge (e : Canceller) : Canceller :=
  let k := erleOf e.sumMic e.sumErr
  let e' : Canceller :=
    match e.state with
    | .off => e
    | .diverged => { e with state := .converging }
    | .converging | .converged =>
      if e.active < 4000 then e
      else if 2 * e.sumMic < e.sumErr then { e with state := .diverged, coeffs := noCoeffs }
      else if e.state = .converging then { e with state := if 18 ≤ k then EchoState.converged else EchoState.converging, erle := some k }
      else { e with state := if k < 12 then EchoState.converging else EchoState.converged, erle := some k }
  e'.clearWindow

end Sys2Proof.Machine
end

