-- ==== Sys2Proof/Machine/MixOrders.lean ====
section
/-! DEFINITION. The orders that set what the Mix Engine holds (sections 3.1, 3.2, 3.9, 3.11) and the events of its own that
follow a frame event: the release of a clip guard and the two ends of a delay change. -/

namespace Sys2Proof.Machine

/-! ## Program, volumes and trims -/

/-- The sources a cabin program may select (R41). -/
def Source.selectable : Source → Bool
  | .tunerA | .mediaFront | .mediaRear | .silence => true
  | .tunerB | .nav | .callDown | .voice _ | .shift => false

/-- A change of the selected source discards a paused broadcast (R42, R113). -/
def State.selectSource (s : State) (src : Source) : State :=
  let t := s.withMix { s.mix with selected := src }
  if s.shift.purpose = some .pause then t.discard .program else t

/-- R42. Operand: source. -/
def setProgramBody (b : List Byte) (s : State) : Reply × State :=
  match sourceOf (u8 b 0) with
  | some src =>
    if !src.selectable then answer .badOperand s
    else if src = s.mix.selected then answer .done s
    else answer .done (s.selectSource src)
  | none => answer .badOperand s

def execSetProgram (l : Link) (f : Frame) (s : State) : Result := order l f byCockpit (operands 1 f) setProgramBody s

/-- The speaker zones in the order in which the volumes are held. -/
def Zone.speakers : List Zone := [.front, .rear, .cargo, .sub, .headrest]

/-- The zone volumes with each named zone's replaced. -/
def setVolumes (vs : List Int) (zs : ZoneSet) (v : Int) : List Int :=
  Zone.speakers.foldl (fun vs z => if hasZone zs z then vs.set z.code v else vs) vs

/-- R43. Operands: zone set, volume. -/
def setVolumeBody (b : List Byte) (s : State) : Reply × State :=
  match zoneSetOf (u8 b 0) with
  | some zs =>
    if zs = 0 || !within zs speakerZones then answer .badOperand s
    else answer .done (s.withMix { s.mix with volumes := setVolumes s.mix.volumes zs (clampInt 0 360 (s16 b 1)) })
  | none => answer .badOperand s

def execSetVolume (l : Link) (f : Frame) (s : State) : Result := order l f byCockpit (operands 3 f) setVolumeBody s

/-- R44. Operands: selector (a sink, or 32, 33, 34 for a source), value. -/
def setTrimBody (b : List Byte) (s : State) : Reply × State :=
  let k := u8 b 0
  let v := s16 b 1
  if k < 20 then answer .done (s.setSink k { s.sink k with trim := clampInt (-24) 48 v })
  else if k = 32 then answer .done (s.withMix { s.mix with trimFront := clampInt 0 48 v })
  else if k = 33 then answer .done (s.withMix { s.mix with trimRear := clampInt 0 48 v })
  else if k = 34 then answer .done (s.withMix { s.mix with trimNav := clampInt 0 48 v })
  else answer .badOperand s

def execSetTrim (l : Link) (f : Frame) (s : State) : Result := order l f byCockpit (operands 3 f) setTrimBody s

/-! ## Delays (R63) -/

/-- A sink given the clamped delay `d` in RUN. -/
def Sink.requestDelay (x : Sink) (d : Nat) : Sink :=
  match x.delayState with
  | .steady => if d = x.delay then x else { x with pendingDelay := some d, delayState := .fadeOut }
  | .fadeOut => { x with pendingDelay := some d }
  | .fadeIn => { x with pendingDelay := some d, delayState := .fadeOut }

/-- R63. Operands: sink, delay in samples. -/
def setDelayBody (b : List Byte) (s : State) : Reply × State :=
  let k := u8 b 0
  let d := clampNat 0 960 (u16 b 1)
  if 19 < k then answer .badOperand s
  else if s.power.state = .run then answer .done (s.setSink k ((s.sink k).requestDelay d))
  else answer .done (s.setSink k { s.sink k with delay := d })

def execSetDelay (l : Link) (f : Frame) (s : State) : Result := order l f byCockpit (operands 3 f) setDelayBody s

/-- The fade has reached 360 and the frame at 360 is over: the delay takes the pending value and the sink enters FADE_IN. A value
that actually changes, on a sink of the reference set, resets the canceller (R63, R133). -/
def State.fadeOutEnd (s : State) (k : Nat) : State :=
  let x := s.sink k
  if x.delayState = .fadeOut ∧ x.faded = true then
    let d := x.pendingDelay.getD x.delay
    let t := s.setSink k { x with delay := d, pendingDelay := none, delayState := .fadeIn, faded := false }
    if d ≠ x.delay && hasZone s.call.refZones (Zone.ofSink k) then t.resetEcho else t
  else s

/-- The fade has returned to 0: the sink's delay state becomes STEADY. -/
def State.fadeInEnd (s : State) (k : Nat) : State :=
  let x := s.sink k
  if x.delayState = .fadeIn ∧ x.fade = 0 then s.setSink k { x with delayState := .steady } else s

def execDelayFadeOutEnd (sink : Fin 20) (s : State) : Result := event (fun s => s.fadeOutEnd sink.val) s

def execDelayFadeInEnd (sink : Fin 20) (s : State) : Result := event (fun s => s.fadeInEnd sink.val) s

/-! ## Clip guard (R61) -/

/-- The clean count has reached 16: the guard falls by 1 if it is above 0, and the count returns to 0. -/
def State.releaseGuard (s : State) (k : Nat) : State :=
  let x := s.sink k
  if 16 ≤ x.clean then s.setSink k { x with guard := x.guard - 1, clean := 0 } else s

def execClipGuardRelease (sink : Fin 20) (s : State) : Result := event (fun s => s.releaseGuard sink.val) s

/-! ## Speed compensation (R59, R60) -/

/-- The six breakpoints of the operands, clamped. -/
def curveOf (b : List Byte) : List (Nat × Int) :=
  (List.range 6).map fun i => (clampNat 0 250 (u16 b (4 * i)), clampInt 0 48 (s16 b (4 * i + 2)))

/-- The speeds rise strictly. -/
def ascending : List (Nat × Int) → Bool
  | a :: b :: rest => decide (a.1 < b.1) && ascending (b :: rest)
  | _ => true

/-- R60. Operands: six pairs of speed and boost, then the zone set. -/
def setSpeedCurveBody (b : List Byte) (s : State) : Reply × State :=
  match zoneSetOf (u8 b 24) with
  | some zs =>
    if !ascending (curveOf b) || !within zs speakerZones then answer .badOperand s
    else answer .done (s.withMix { s.mix with curve := curveOf b, curveZones := zs })
  | none => answer .badOperand s

def execSetSpeedCurve (l : Link) (f : Frame) (s : State) : Result := order l f byCockpit (operands 25 f) setSpeedCurveBody s

/-- R59. Operand: speed in km/h. -/
def speedBody (b : List Byte) (s : State) : Reply × State :=
  answer .done (s.withMix { s.mix with speed := clampNat 0 250 (u16 b 0), stale := false, speedAt := s.clock.now })

def execSpeed (l : Link) (f : Frame) (s : State) : Result := order l f byBody (operands 2 f) speedBody s

/-- 2 s have passed since the last SPEED: the stale flag is set (R59). -/
def State.speedGrowsStale (s : State) : State :=
  if s.mix.stale then s else
    let s := s.reach (s.mix.speedAt + seconds 2)
    s.withMix { s.mix with stale := true }

def execSpeedStale (s : State) : Result := event State.speedGrowsStale s

/-! ## Mute sets (R45, R46) -/

/-- The zones of a link's authority over mute sets. -/
def mayMute (l : Link) (zs : ZoneSet) : Bool :=
  match l with
  | .cockpit => true
  | .telephony => false
  | .rear => within zs stationZones
  | .body => within zs speakerZones

/-- The mute set of each named zone changed. -/
def changeMutes (mutes : List LinkSet) (zs : ZoneSet) (f : LinkSet → LinkSet) : List LinkSet :=
  Zone.every.foldl (fun ms z => if hasZone zs z then ms.set z.code (f (ms.getD z.code 0)) else ms) mutes

/-- R46, from its second check on. Operand: zone set. -/
def muteBody (l : Link) (f : LinkSet → LinkSet) (b : List Byte) (s : State) : Reply × State :=
  match zoneSetOf (u8 b 0) with
  | some zs =>
    if zs = 0 then answer .badOperand s
    else if !mayMute l zs then answer .notPermitted s
    else if l = .rear && s.stations.lock then answer .locked s
    else answer .done (s.withMix { s.mix with mutes := changeMutes s.mix.mutes zs f })
  | none => answer .badOperand s

def execMuteSet (l : Link) (f : Frame) (s : State) : Result :=
  order l f byCockpitRearBody (operands 1 f) (muteBody l fun set => addLink set l) s

def execMuteClear (l : Link) (f : Frame) (s : State) : Result :=
  order l f byCockpitRearBody (operands 1 f) (muteBody l fun set => dropLink set l) s

end Sys2Proof.Machine
end

