-- ==== Sys2Proof/Machine/Ports.lean ====
section
/-! DEFINITION. The rate trackers (section 1.3): how a frame period is judged, how a tracker moves among ABSENT, ACQUIRE, LOCKED
and HOLDOVER, and the four events at which it does. Rates are exact fractions, so every window is tested without rounding. -/

namespace Sys2Proof.Machine

/-! ## Rates and windows (R8) -/

/-- The nominal rates of a port in Hz. -/
def nominals : Port → List Nat
  | .p0 => [48000]
  | .p1 => [44100, 48000]
  | .p2 => [16000]

/-- The rate of one frame period: the clock runs at 48,000,000,000 units a second. -/
def rateOfPeriod (p : Time) : Rate := ⟨48000000000, p⟩

/-- A rate lies inside the window of ±2% around a centre rate, its ends included (log entry 33). -/
def Rate.near (r c : Rate) : Bool :=
  decide (98 * c.num * r.den ≤ 100 * r.num * c.den) && decide (100 * r.num * c.den ≤ 102 * c.num * r.den)

/-- A measured period fits a nominal rate. -/
def fits (p : Time) (hz : Nat) : Bool := decide (0 < p) && (rateOfPeriod p).near ⟨hz, 1⟩

/-- The rate that the window is centred on. -/
def Tracker.centre (t : Tracker) : Rate :=
  match t.state, t.nominal with
  | .acquire, some hz => ⟨hz, 1⟩
  | _, _ => t.estimate

/-- The period lies inside the tracker's window. -/
def Tracker.inWindow (t : Tracker) (p : Time) : Bool := decide (0 < p) && (rateOfPeriod p).near t.centre

/-- 1.02 times the window's centre period, to the whole unit (R8). -/
def Tracker.patience (t : Tracker) : Time :=
  let c := t.centre
  (102 * 48000000000 * c.den) / (100 * c.num)

/-- The mean rate of the good periods kept: how many they are over the time they took (log entry 32). -/
def meanRate (ps : List Time) : Rate := ⟨48000000000 * ps.length, (ps.foldl (· + ·) 0)⟩

/-- A rate limited to ±2% of the nominal one. -/
def Rate.limited (r : Rate) (hz : Nat) : Rate :=
  if 100 * r.num < 98 * hz * r.den then ⟨98 * hz, 100⟩
  else if 102 * hz * r.den < 100 * r.num then ⟨102 * hz, 100⟩
  else r

/-- The conversion step of an input: 65,536 times the rate over 48 kHz, to the nearest integer. -/
def Rate.inputStep (r : Rate) : Nat := roundDiv (65536 * r.num) (48000 * r.den)

/-- The conversion step of P2's output: 65,536 times 16 kHz over the rate, to the nearest integer. -/
def Rate.outputStep (r : Rate) : Nat := roundDiv (65536 * 16000 * r.den) r.num

/-- The periods kept with one more, the 64 newest. -/
def keepPeriod (ps : List Time) (p : Time) : List Time := (ps ++ [p]).drop (ps.length + 1 - 64)

/-- The estimated rate taken afresh from the periods kept, and the step from it (R8). -/
def Tracker.refine (t : Tracker) : Tracker :=
  let r := (meanRate t.periods).limited (t.nominal.getD 48000)
  { t with estimate := r, conv := { t.conv with step := r.inputStep } }

/-! ## Moves of a tracker (R9, R10) -/

/-- ABSENT: no nominal rate, counts 0, the buffer empty. The estimated rate and the step keep their last values (log entry 61). -/
def Tracker.lost (t : Tracker) : Tracker :=
  { t with state := .absent, nominal := none, good := 0, slips := 0, periods := [], measuring := false,
           conv := t.conv.emptied }

/-- In ACQUIRE, a period offered as a first period (R9). -/
def Tracker.offerFirst (p : Port) (t : Tracker) (period : Time) : Tracker :=
  match (nominals p).find? (fits period) with
  | some hz => { t with nominal := some hz, good := 1, slips := 0, periods := [period] }
  | none => { t with nominal := none, good := 0, periods := [] }

/-- The good count has reached 64 in ACQUIRE (R9). -/
def Tracker.lock (t : Tracker) : Tracker :=
  let t := t.refine
  { t with state := .locked, slips := 0, conv := t.conv.emptied }

/-- A slip in ACQUIRE clears the selection. -/
def Tracker.deselect (t : Tracker) : Tracker := { t with nominal := none, good := 0, slips := min 3 (t.slips + 1), periods := [] }

/-- A slip counted in LOCKED or HOLDOVER; the third in LOCKED brings HOLDOVER (R10). -/
def Tracker.slip (t : Tracker) (now : Time) : Tracker :=
  let t := { t with good := 0, slips := min 3 (t.slips + 1) }
  if t.state = .locked && t.slips = 3 then { t with state := .holdover, holdoverAt := now } else t

/-- A good period (R8, R10). In HOLDOVER the first one after a slip is kept but does not refine the estimate. -/
def Tracker.goodPeriod (t : Tracker) (period : Time) : Tracker :=
  let refines := t.state = .locked || (t.state = .holdover && decide (1 ≤ t.good))
  let t := { t with good := min 64 (t.good + 1), slips := 0, periods := keepPeriod t.periods period }
  let t := if refines then t.refine else t
  if t.good = 64 then
    match t.state with
    | .acquire => t.lock
    | .holdover => { t with state := .locked }
    | .absent | .locked => t
  else t

/-- A slip whose period lies in the window of another nominal rate of the port (R10). -/
def Tracker.otherNominal (p : Port) (t : Tracker) (period : Time) : Bool :=
  (nominals p).any fun hz => t.nominal ≠ some hz && fits period hz

/-- A measured period judged (R8 to R10). -/
def Tracker.judge (p : Port) (t : Tracker) (period now : Time) : Tracker :=
  match t.state with
  | .absent => t
  | .acquire =>
    match t.nominal with
    | none => Tracker.offerFirst p t period
    | some _ => if t.inWindow period then t.goodPeriod period else Tracker.offerFirst p t.deselect period
  | .locked => if t.inWindow period then t.goodPeriod period else t.slip now
  | .holdover =>
    if t.inWindow period then t.goodPeriod period
    else if t.otherNominal p period then
      Tracker.offerFirst p { t with state := .acquire, good := 0, slips := 0, conv := t.conv.emptied } period
    else t.slip now

/-- A frame sync at moment `now`, ending a period of `gap`: the set it brings enters the buffer, and the period is judged unless
a measurement begins with this sync (R8, R9, R11). A period longer than the tracker's patience is judged like any other, as R4 has it, where
no OVERDUE_SLIP came before its sync (log entry 69). -/
def Tracker.sync (p : Port) (t : Tracker) (gap now : Time) (set : List Int) : Tracker :=
  let t := if t.holding then { t with conv := t.conv.push set } else t
  let t :=
    if t.state = .absent then { t.lost with state := .acquire }
    else if t.measuring then Tracker.judge p t gap now else t
  { t with lastSync := now, waitFrom := now, measuring := true }

/-! ## Sample sets and P2's output (R3, R4, R5, R11) -/

def PortFrame.port : PortFrame → Port
  | .cockpit .. => .p0
  | .rear .. => .p1
  | .telephony _ => .p2

/-- The used slots of a frame as internal samples: the fourth slot of P0 is discarded, and a sample of P2 is widened (R1). -/
def PortFrame.samples : PortFrame → List Int
  | .cockpit s0 s1 s2 _ => [slotSample s0, slotSample s1, slotSample s2]
  | .rear s0 s1 => [slotSample s0, slotSample s1]
  | .telephony x => [widen x.toInt]

/-- The output slot sent in one frame of P2: none in ABSENT, zero in ACQUIRE, the converted uplink otherwise (R5). -/
def Ports.sendUplink (x : Ports) : Ports :=
  match x.p2.state with
  | .absent => { x with uplinkSlot := none }
  | .acquire => { x with uplinkSlot := some 0 }
  | .locked | .holdover =>
    let (out, c) := { x.uplink with step := x.p2.estimate.outputStep }.pull 1
    { x with uplink := c, uplinkSlot := some (out.headD 0) }

/-- P2's output converter is emptied whenever its input converter is, that is, on leaving LOCKED or HOLDOVER and on entering
LOCKED from ACQUIRE (R9, R10, R11, log entry 41). In ABSENT no output slot is sent (R5). -/
def Ports.followP2 (before : TrackerState) (x : Ports) : Ports :=
  let held : TrackerState → Bool := fun st => st = .locked || st = .holdover
  if held before && held x.p2.state then x
  else { x with uplink := x.uplink.emptied, uplinkSlot := if x.p2.state = .absent then none else x.uplinkSlot }

def State.withTracker (s : State) (p : Port) (t : Tracker) : State :=
  let u := s.setTracker p t
  match p with
  | .p2 => u.withPorts (u.ports.followP2 s.ports.p2.state)
  | .p0 | .p1 => u

/-! ## The events -/

/-- A frame sync: the port's frame that it ends comes `gap` after the sync before it. No frame sync is measured outside RUN. -/
def State.takeSync (s : State) (gap : Time) (set : PortFrame) : State :=
  if s.power.state ≠ .run then s
  else
    let p := PortFrame.port set
    let s := s.reach ((s.tracker p).lastSync + gap)
    let s := s.withTracker p (Tracker.sync p (s.tracker p) gap s.clock.now (PortFrame.samples set))
    match p with
    | .p2 => s.withPorts s.ports.sendUplink
    | .p0 | .p1 => s

def execFrameSync (gap : Time) (set : PortFrame) (s : State) : Result := event (fun s => s.takeSync gap set) s

/-- No sync has come within 1.02 window periods of the last sync or overdue slip. A tracker with no window has none overdue. -/
def State.takeOverdue (s : State) (p : Port) : State :=
  let t := s.tracker p
  if s.power.state ≠ .run then s
  else
    match t.state with
    | .absent => s
    | .acquire =>
      if t.nominal.isNone then s
      else
        let s := s.reach (t.waitFrom + t.patience)
        s.withTracker p { (s.tracker p).deselect with waitFrom := s.clock.now, measuring := false }
    | .locked | .holdover =>
      let s := s.reach (t.waitFrom + t.patience)
      s.withTracker p { (s.tracker p).slip s.clock.now with waitFrom := s.clock.now, measuring := false }

def execOverdueSlip (p : Port) (s : State) : Result := event (fun s => s.takeOverdue p) s

/-- 100 ms have passed in ACQUIRE without a frame sync (R9). -/
def State.takeGiveUp (s : State) (p : Port) : State :=
  if (s.tracker p).state = .acquire then
    let s := s.reach ((s.tracker p).lastSync + milliseconds 100)
    s.withTracker p (s.tracker p).lost
  else s

def execAcquireGiveUp (p : Port) (s : State) : Result := event (fun s => s.takeGiveUp p) s

/-- The links concerned with a port (R10). -/
def portLinks : Port → List Link
  | .p0 => [.cockpit]
  | .p1 => [.rear, .cockpit]
  | .p2 => [.telephony, .cockpit]

/-- The holdover timer has reached 100 ms: the port is lost, and PORT_LOST goes to the links concerned (R10). -/
def State.takeHoldoverTimeout (s : State) (p : Port) : State :=
  if (s.tracker p).state = .holdover then
    let s := s.reach ((s.tracker p).holdoverAt + milliseconds 100)
    (portLinks p).foldl (fun s l => s.advise l (.portLost p)) (s.withTracker p (s.tracker p).lost)
  else s

def execHoldoverTimeout (p : Port) (s : State) : Result := event (fun s => s.takeHoldoverTimeout p) s

end Sys2Proof.Machine
end

