-- ==== Sys2Proof/Machine/Mix.lean ====
section
/-! DEFINITION. The Mix Engine's work on one sink at a frame event (R48 to R58, R60 to R62): the list brought into line with the
Claim Table, the duck, the targets, the ramps, the samples, the clip guard and the output path. -/

namespace Sys2Proof.Machine

/-! ## What the view asks of a zone -/

/-- What a base or a mixed overlay is known by (R27), with the ramp class it enters with. -/
structure Wanted where
  origin : Origin
  source : Source
  kind : Option Kind
  ramp : Ramp
deriving DecidableEq, Repr

def Claim.wanted (h : Nat) (c : Claim) : Wanted := ⟨.handle h, c.source, some c.kind, c.ramp⟩

/-- The program of a zone (R15, R41). -/
def State.programSource (s : State) (z : Zone) : Source :=
  match z.station with
  | some st => (s.station st).source
  | none => s.playing

def State.wantedBase (s : State) (z : Zone) : Wanted :=
  match s.table.base z with
  | some (h, c) => c.wanted h
  | none => ⟨.program, s.programSource z, none, .medium⟩

/-- The contribution is that of `w`. -/
def Contribution.isOf (x : Contribution) (w : Wanted) : Bool :=
  x.origin = w.origin && x.source = w.source && x.kind = w.kind

/-- The view still places a non-tail contribution on the sink (R49). -/
def Contribution.placed (x : Contribution) (base : Wanted) (mixed : List (Nat × Claim)) : Bool :=
  match x.role with
  | .base => x.isOf base
  | .overlay => mixed.any fun c => x.isOf (c.2.wanted c.1)
  | .tail => true

/-! ## Departures (R49) -/

def Contribution.depart (x : Contribution) : Contribution := { x with role := .tail, target := 360 }

def bases (xs : List Contribution) : List Contribution := xs.filter fun x => x.role = .base
def tails (xs : List Contribution) : List Contribution := xs.filter fun x => x.role = .tail
def overlays (xs : List Contribution) : List Contribution := xs.filter fun x => x.role = .overlay

/-- The list after the departures: the base, the tails from oldest to newest, the overlays (R47). What departs at one frame event
joins the tails in its order in the list (log entry 35). -/
def departures (xs : List Contribution) (base : Wanted) (mixed : List (Nat × Claim)) : List Contribution :=
  let stays := fun x : Contribution => x.placed base mixed
  (bases xs).filter stays ++ tails xs ++ (xs.filter fun x => !stays x).map Contribution.depart ++ (overlays xs).filter stays

/-! ## Arrivals (R50) -/

/-- The newest member of a list that satisfies `p`, and the list without it. -/
def takeNewest {α : Type} (p : α → Bool) : List α → Option (α × List α)
  | [] => none
  | x :: xs =>
    match takeNewest p xs with
    | some (y, ys) => some (y, x :: ys)
    | none => if p x then some (x, xs) else none

/-- The list without its oldest tail, if it has one. -/
def dropOldestTail : List Contribution → Option (List Contribution)
  | [] => none
  | x :: xs => if x.role = .tail then some xs else (dropOldestTail xs).map (x :: ·)

/-- A contribution at its role's place: a base first, an overlay last. -/
def place (r : Role) (x : Contribution) (xs : List Contribution) : List Contribution :=
  if r = .base then { x with role := r } :: xs else xs ++ [{ x with role := r }]

def Wanted.fresh (w : Wanted) (r : Role) : Contribution :=
  { origin := w.origin, source := w.source, kind := w.kind, role := r, target := 360, applied := 360, ramp := w.ramp,
    fast := false }

/-- One arrival: the list with it, or none where it finds no room. -/
def arrive (r : Role) (w : Wanted) (xs : List Contribution) : Option (List Contribution) :=
  match takeNewest (fun x : Contribution => x.role = .tail && x.isOf w) xs with
  | some (x, rest) => some (place r x rest)
  | none =>
    if xs.length < 6 then some (place r (w.fresh r) xs)
    else (dropOldestTail xs).map (place r (w.fresh r))

/-- The overlays in turn: those that find no room make up the waiting list. -/
def arriveAll : List (Nat × Claim) → List Contribution → List Contribution × List Nat
  | [], xs => (xs, [])
  | (h, c) :: rest, xs =>
    match arrive .overlay (c.wanted h) xs with
    | some ys => arriveAll rest ys
    | none => let (ys, ws) := arriveAll rest xs; (ys, h :: ws)

def insertBySeq (c : Nat × Claim) : List (Nat × Claim) → List (Nat × Claim)
  | [] => [c]
  | x :: xs => if c.2.seq < x.2.seq then c :: x :: xs else x :: insertBySeq c xs

/-- By ascending sequence number. -/
def bySeq (cs : List (Nat × Claim)) : List (Nat × Claim) := cs.foldr insertBySeq []

/-- The base of the zone on the list, entered if it is not there. -/
def arriveBase (base : Wanted) (xs : List Contribution) : List Contribution :=
  if (bases xs).isEmpty then (arrive .base base xs).getD xs else xs

/-- The overlays due to arrive, those waiting first in their order, then the new ones by sequence number. -/
def dueOverlays (mixed : List (Nat × Claim)) (waiting : List Nat) (xs : List Contribution) : List (Nat × Claim) :=
  let absent := mixed.filter fun c => !((overlays xs).any fun x => x.origin = .handle c.1)
  (waiting.filterMap fun h => absent.find? fun c => c.1 == h) ++ bySeq (absent.filter fun c => !waiting.contains c.1)

/-- Step 1 of R48: the contribution list and the waiting list brought into line with the view. -/
def align (xs : List Contribution) (waiting : List Nat) (base : Wanted) (mixed : List (Nat × Claim)) :
    List Contribution × List Nat :=
  let xs := arriveBase base (departures xs base mixed)
  arriveAll (dueOverlays mixed waiting xs) xs

/-! ## Duck and targets (R25, R53 to R55) -/

/-- The duck that a contribution imposes: that of an overlay whose claim is not ending. -/
def State.duckOf (s : State) (x : Contribution) : Int :=
  match x.role, x.origin with
  | .overlay, .handle h =>
    match s.claim h with
    | some c => if c.ending then 0 else c.duck.getD 0
    | none => 0
  | _, _ => 0

def State.sinkDuck (s : State) (xs : List Contribution) : Int := maxOf (xs.map s.duckOf)

/-- The source-trim term (R44). -/
def State.sourceTrim (s : State) : Source → Int
  | .mediaFront => s.mix.trimFront
  | .mediaRear => s.mix.trimRear
  | .nav => s.mix.trimNav
  | .tunerA => s.tunA.trim
  | .tunerB => s.tunB.trim
  | .callDown | .voice _ | .shift | .silence => 0

/-- The volume that governs a zone: its own, or its station's (R53). -/
def State.zoneVolume (s : State) (z : Zone) : Int :=
  match z.station with
  | some st => (s.station st).volume
  | none => s.mix.volumes.getD z.code 120

/-- The boost at speed `v` (R60); truncation is toward zero. -/
def boostAt (v : Nat) : List (Nat × Int) → Int
  | [] => 0
  | [(_, b)] => b
  | (v0, b0) :: (v1, b1) :: rest =>
    if v < v0 then b0
    else if v < v1 then b0 + ((b1 - b0) * ((v : Int) - (v0 : Int))).tdiv ((v1 : Int) - (v0 : Int))
    else boostAt v ((v1, b1) :: rest)

/-- The boost on a zone, 0 where compensation is not enabled. -/
def State.zoneBoost (s : State) (z : Zone) : Int :=
  if hasZone s.mix.curveZones z && z.station.isNone then boostAt s.mix.speed s.mix.curve else 0

/-- The jack class of a zone's station. -/
def State.zoneClass (s : State) (z : Zone) : Option JackClass := z.station.map fun st => (s.station st).jack

/-- The claim of a contribution, none for PROGRAM. -/
def State.claimOf (s : State) (x : Contribution) : Option Claim :=
  match x.origin with
  | .handle h => s.claim h
  | .program => none

/-- The sum of R53 for a non-tail contribution on a sink of zone `z`. -/
def State.targetSum (s : State) (z : Zone) (duck guard trim : Int) (x : Contribution) : Int :=
  let level : Int :=
    match s.claimOf x with
    | some c => c.level.getD s.call.volume
    | none => 0
  let volume : Int :=
    match s.claimOf x with
    | some c => if c.tier = .normal then s.zoneVolume z else 0
    | none => s.zoneVolume z
  s.sourceTrim x.source + level + volume + (if x.role = .base then duck else 0) + trim + guard - s.zoneBoost z

def State.isEnding (s : State) (x : Contribution) : Bool :=
  match s.claimOf x with
  | some c => c.ending
  | none => false

/-- A volume of 360 silences what it governs: the call volume the CALL claim (R125), a zone's or station's volume the program and the
NORMAL claims (R43, R140). -/
def State.silenced (s : State) (z : Zone) (x : Contribution) : Bool :=
  match s.claimOf x with
  | some c => (c.level.isNone && s.call.volume == 360) || (c.tier = .normal && s.zoneVolume z == 360)
  | none => s.zoneVolume z == 360

/-- The target of a contribution (R54, R55). What a volume of 360 silences has target 360, though the other terms of R53's sum be below 0
together (log entry 65). -/
def State.target (s : State) (z : Zone) (duck guard trim : Int) (x : Contribution) : Int :=
  if x.role = .tail || s.isEnding x || s.mute z != 0 then 360
  else if s.zoneClass z = some .line then clampInt (-24) 360 (24 + s.sourceTrim x.source)
  else if s.silenced z x then 360
  else clampInt (-24) 360 (s.targetSum z duck guard trim x)

/-! ## Ramps (R52) -/

def Ramp.rate : Ramp → Int
  | .slow => 1 | .medium => 4 | .fast => 24

/-- An attenuation moved toward a target by at most a rate. -/
def approach (rate target a : Int) : Int := clampInt (a - rate) (a + rate) target

/-- The class of a non-tail contribution follows its claim; a tail keeps its own. -/
def State.rampOf (s : State) (x : Contribution) : Ramp :=
  if x.role = .tail then x.ramp
  else
    match s.claimOf x with
    | some c => c.ramp
    | none => x.ramp

/-- One contribution given its target and moved toward it. The fast mark is cleared once the target is reached. -/
def State.moveContribution (s : State) (z : Zone) (duck guard trim : Int) (x : Contribution) : Contribution :=
  let t := s.target z duck guard trim x
  let ramp := s.rampOf x
  let a := approach (if x.fast || (x.role ≠ .tail && s.isEnding x) then Ramp.fast.rate else ramp.rate) t x.applied
  { x with target := t, applied := a, ramp := ramp, fast := x.fast && a != t }

/-- A fast change of a tuner's trim since the last frame event marks the contributions of that tuner (R52, log entry 36). -/
def State.markFast (s : State) (x : Contribution) : Contribution :=
  if (x.source = .tunerA && s.tunA.rx.fastDue) || (x.source = .tunerB && s.tunB.rx.fastDue) then { x with fast := true } else x

/-! ## Samples (R16, R55 to R58) -/

/-- The samples that every source offers in a frame, as pairs; a mono source offers each sample on both sides. -/
abbrev Offers := Source → List (Int × Int)

/-- The sample that a pair offers to a side (R16). -/
def Side.pick : Side → Int × Int → Int
  | .left, p => p.1
  | .right, p => p.2
  | .sum, p => (p.1 + p.2) / 2

def Side.swapped : Side → Side
  | .left => .right
  | .right => .left
  | .sum => .sum

/-- The side on which sink `k` takes its samples, with its station's swap. -/
def State.sideOf (s : State) (k : Nat) : Side :=
  match (Zone.ofSink k).station with
  | some st => if (s.station st).swap then (Side.ofSink k).swapped else Side.ofSink k
  | none => Side.ofSink k

/-- The attenuation used in the gain law (R55): on a station with headphones or a headset, at least the cap (log entry 37). -/
def State.used (s : State) (z : Zone) (applied : Int) : Int :=
  match s.zoneClass z with
  | none | some .vacant | some .short | some .line => applied
  | some .headphone | some .headset => max applied s.stations.cap

/-- The sums of a sink's products over the frame, before saturation. -/
def State.sums (s : State) (k : Nat) (offers : Offers) (xs : List Contribution) : List Int :=
  xs.foldl (fun acc x =>
    let g := gain (s.used (Zone.ofSink k) x.applied)
    List.zipWith (fun a p => a + product ((s.sideOf k).pick p) g) acc (fit 48 (0, 0) (offers x.source)))
    silentFrame

/-! ## Clip guard and output path (R61 to R63) -/

/-- A sink after its frame's clip flag is known. A clean count that reaches 16 is left to CLIP_GUARD_RELEASE (log entry 9). -/
def Sink.takeClip (x : Sink) (clip : Bool) : Sink :=
  if clip then { x with clip := true, guard := min 24 (x.guard + 2), clean := 0 }
  else { x with clip := false, clean := x.clean + 1 }

/-- The output fade of this frame. -/
def Sink.fadeNow (x : Sink) : Nat :=
  match x.delayState with
  | .steady => x.fade
  | .fadeOut => min 360 (x.fade + 24)
  | .fadeIn => x.fade - 24

/-- The 48 output samples from the frame's sums, and the sink with its line fed (R62). `silent` forces the output of a station
whose class is OPEN or SHORT. A frame of FADE_OUT that goes out at 360 throughout is reported (R63). -/
def Sink.send (x : Sink) (sums : List Int) (silent : Bool) : Sink :=
  let all := sums.reverse ++ x.line
  let o := x.fadeNow
  let delayed := ((all.drop x.delay).take 48).reverse
  let out := if silent then silentFrame else delayed.map fun y => product y (gain o)
  { x with fade := o, faded := x.delayState = .fadeOut && o == 360, line := all.take 960, sending := x.computed, computed := out }

/-- The station's output is forced to zero (R62). -/
def State.forcedSilent (s : State) (z : Zone) : Bool :=
  s.zoneClass z = some .vacant || s.zoneClass z = some .short

/-- All of R48 for sink `k`. -/
def State.mixSink (s : State) (offers : Offers) (k : Nat) (x : Sink) : Sink :=
  let z := Zone.ofSink k
  let (xs, waiting) := align (x.list.map s.markFast) x.waiting (s.wantedBase z) (s.table.mixed z)
  let duck := s.sinkDuck xs
  let xs := xs.map (s.moveContribution z duck x.guard x.trim)
  let raw := s.sums k offers xs
  let sums := raw.map sat24
  let kept := xs.filter fun c => !(c.role = .tail && c.applied == 360)
  let x := { x with list := kept, waiting := waiting, duck := duck, boost := s.zoneBoost z }
  (x.takeClip (raw != sums)).send sums (s.forcedSilent z)

/-- Every sink's frame. The work on one sink reads no state of another (R48). -/
def State.mixFrame (s : State) (offers : Offers) : State :=
  s.withMix { s.mix with sinks := s.mix.sinks.zipIdx.map fun (x, k) => s.mixSink offers k x }

end Sys2Proof.Machine
end

