-- ==== Sys2Proof/Machine/Tuning.lean ====
section
/-! DEFINITION. The orders to the tuners and the Station List (sections 4.4, 4.5, 4.7), and their events: measurements, settles,
seek walks, alternate checks and verifications, station data and sweeps. -/

namespace Sys2Proof.Machine

/-- What follows an event of the tuners: the traffic side is assessed again. -/
def tunerEvent (f : State → State) (s : State) : Result := event (fun s => (f s).reassess) s

/-! ## TUNE_A (R75) -/

/-- Operands: band, frequency. -/
def tuneABody (b : List Byte) (s : State) : Reply × State :=
  match freqAt b 0 with
  | none => answer .badOperand s
  | some f =>
    if s.power.state ≠ .run then answer .notReady s
    else answer .accepted (s.retuneA f (.tuneA, .tuned))

def execTuneA (l : Link) (f : Frame) (s : State) : Result := order l f byCockpit (operands 5 f) tuneABody s

/-! ## Seeking (R76, R77) -/

/-- The channel next to `f` in a direction, wrapping at the band's end. -/
def nextChannel (d : Direction) (f : Freq) : Freq :=
  match f.band, d with
  | .fm, .up => if f.khz = 108000 then ⟨.fm, 87500⟩ else ⟨.fm, f.khz + 100⟩
  | .fm, .down => if f.khz = 87500 then ⟨.fm, 108000⟩ else ⟨.fm, f.khz - 100⟩
  | .mw, .up => if f.khz = 1602 then ⟨.mw, 531⟩ else ⟨.mw, f.khz + 9⟩
  | .mw, .down => if f.khz = 531 then ⟨.mw, 1602⟩ else ⟨.mw, f.khz - 9⟩

/-- The list phase: the first receivable entry of the band in the direction, wrapping once. -/
def listPhase (xs : List Entry) (d : Direction) (start : Freq) : Option Freq :=
  let heard := (xs.filter fun e => e.freq.band = start.band && decide (25 ≤ e.qs)).map (·.freq)
  let above := heard.filter fun f => decide (start.khz < f.khz)
  let below := heard.filter fun f => decide (f.khz < start.khz)
  match d with
  | .up => (above ++ below).head?
  | .down => (below.reverse ++ above.reverse).head?

/-- The start frequency of a seek taken now. -/
def TunerA.seekFrom (t : TunerA) : Freq :=
  match t.seekStart with
  | some f => f
  | none => t.home.getD t.rx.freq

/-- The raster phase begins at the channel next to the start; its beginning is reported as a programme retune. The low count is 0
from here on (log entry 55). -/
def State.startWalk (s : State) (d : Direction) (start : Freq) : State :=
  (s.withTunA
    { s.tunA with
      rx := (s.tunA.rx.hush s.tunA.open).tune (nextChannel d start) s.clock.now, state := .seeking, released := false,
      candidate := none, home := none, saved := none, seekDir := some d, seekStart := some start, low := 0,
      report := none }).retuned .a

/-- A seek, in RUN. -/
def State.seek (s : State) (d : Direction) : State :=
  let start := s.tunA.seekFrom
  match listPhase s.radio.stations d start with
  | some f => s.retuneA f (.seekA, .found)
  | none => (s.startWalk d start).reassess

/-- Operand: direction. -/
def seekABody (b : List Byte) (s : State) : Reply × State :=
  match directionOf (u8 b 0) with
  | none => answer .badOperand s
  | some d => if s.power.state ≠ .run then answer .notReady s else answer .accepted (s.seek d)

def execSeekA (l : Link) (f : Frame) (s : State) : Result := order l f byCockpit (operands 1 f) seekABody s

/-- A measurement on a channel of the walk: Q of 30 or more ends the walk there. -/
def State.walkMeasured (s : State) (m : Meas) : State :=
  let rx := s.tunA.rx.measure m s.clock.now
  let s := s.withTunA { s.tunA with rx := rx }
  if 30 ≤ rx.last.q then s.retuneA rx.freq (.seekA, .found) else s

/-- The walk moves on, or has come back to its start. -/
def State.walkOn (s : State) : State :=
  match s.tunA.seekDir, s.tunA.seekStart with
  | some d, some start =>
    let f := nextChannel d s.tunA.rx.freq
    if f = start then s.retuneA start (.seekA, .notFound)
    else s.withTunA { s.tunA with rx := s.tunA.rx.tune f s.clock.now }
  | _, _ => s

/-- The 8 ms on a channel have passed; the event carries the measurement at 8 ms unless it came by itself. -/
def State.seekChannelEnd (s : State) (m : Option Meas) : State :=
  if s.tunA.state ≠ .seeking then s
  else
    let s := s.reach (s.tunA.rx.since + milliseconds 8)
    let s :=
      match m with
      | some m => s.walkMeasured m
      | none => s
    if s.tunA.state = .seeking then s.walkOn else s

def execSeekChannelEnd (m : Option Meas) (s : State) : Result := tunerEvent (fun s => s.seekChannelEnd m) s

/-! ## Presets (R82, R83) -/

/-- The fields of an entry that decoded data supplies. -/
def Decoded.entry (d : Decoded) (f : Freq) (qs : Nat) : Entry :=
  { freq := f, qs := qs, identity := d.identity, name := d.name, tp := d.tp, alternates := d.alternates.getD [], missed := 0,
    preset := none, rejected := none, seen := false }

/-- The entry of `f` takes preset `p`; any other entry that carries it loses it. -/
def givePreset (xs : List Entry) (f : Freq) (p : Nat) : List Entry :=
  xs.map fun e => if e.freq = f then { e with preset := some p } else if e.preset = some p then { e with preset := none } else e

/-- Operand: preset. -/
def presetStoreBody (b : List Byte) (s : State) : Reply × State :=
  let p := clampNat 1 12 (u8 b 0)
  if s.power.state ≠ .run then answer .notReady s
  else if s.tunA.state = .seeking ∨ s.tunA.state = .afVerify then answer .inUse s
  else
    let f := s.tunA.home.getD s.tunA.rx.freq
    let xs :=
      if (findEntry s.radio.stations f).isSome then some s.radio.stations
      else placeEntry s.tunA.shields s.radio.stations (s.tunA.offered.entry f s.tunA.rx.qs)
    match xs with
    | none => answer .full s
    | some xs => answer .done (s.withRadio (s.radio.withNewVersion (givePreset xs f p))).reassess

def execPresetStore (l : Link) (f : Frame) (s : State) : Result := order l f byCockpit (operands 1 f) presetStoreBody s

/-- Operand: preset. -/
def presetRecallBody (b : List Byte) (s : State) : Reply × State :=
  let p := clampNat 1 12 (u8 b 0)
  if s.power.state ≠ .run then answer .notReady s
  else
    match s.radio.stations.find? fun e => e.preset = some p with
    | none => answer .noSuch s
    | some e => answer .accepted (s.retuneA e.freq (.presetRecall, .tuned))

def execPresetRecall (l : Link) (f : Frame) (s : State) : Result := order l f byCockpit (operands 1 f) presetRecallBody s

/-! ## Policies (R87, R90) -/

/-- Operands: scan, rear-before-traffic. -/
def scanPolicyBody (b : List Byte) (s : State) : Reply × State :=
  match onOff (u8 b 0), onOff (u8 b 1) with
  | some scan, some rear => answer .done (s.withRadio { s.radio with scan := scan, rearFirst := rear }).reassess
  | _, _ => answer .badOperand s

def execScanPolicy (l : Link) (f : Frame) (s : State) : Result := order l f byCockpit (operands 2 f) scanPolicyBody s

/-- Operands: switch, threshold. With switching off the low count stays 0. -/
def afPolicyBody (b : List Byte) (s : State) : Reply × State :=
  match onOff (u8 b 0) with
  | some on =>
    let s := s.withRadio { s.radio with afOn := on, afThreshold := clampNat 10 90 (u8 b 1) }
    answer .done (if on then s else s.withTunA { s.tunA with low := 0 })
  | none => answer .badOperand s

def execAfPolicy (l : Link) (f : Frame) (s : State) : Result := order l f byCockpit (operands 2 f) afPolicyBody s

/-! ## LIST_READ (R84) -/

/-- An FM frequency as its channel number (section 12.3). -/
def channelNumber (khz : Nat) : Byte := byteOf ((khz - 87500) / 100)

/-- The 31 bytes of an entry (section 12.3). -/
def Entry.bytes (e : Entry) : List Byte :=
  [byteOf e.freq.band.code] ++ be4 e.freq.khz ++ [byteOf e.qs] ++ opt2 e.identity ++ optional 8 e.name
    ++ [match e.tp with | none => 255 | some b => flag b] ++ [byteOf e.alternates.length]
    ++ fit 8 255 (e.alternates.map channelNumber)
    ++ [byteOf e.missed, byteOf (e.preset.getD 0), byteOf (e.rejected.getD 0)]

/-- Operand: first position. -/
def listReadBody (b : List Byte) (s : State) : Reply × State :=
  let first := u8 b 0
  if 47 < first then answer .badOperand s
  else
    (.answer (be2 s.radio.version ++ [byteOf s.radio.stations.length]
        ++ ((s.radio.stations.drop first).take 6).flatMap Entry.bytes), s)

def execListRead (l : Link) (f : Frame) (s : State) : Result := order l f byCockpitRear (operands 1 f) listReadBody s

/-! ## Alternate switching (R90) -/

/-- The low count after a measurement in TUNED. -/
def State.lowNext (s : State) : Nat :=
  if s.radio.afOn && s.tunA.rx.freq.band = .fm && s.tunA.rx.decoder.data.identity.isSome
      && decide (s.tunA.rx.qs < s.radio.afThreshold) then min 8 (s.tunA.low + 1)
  else 0

/-- A list entry carries a rejection. -/
def rejects (xs : List Entry) (khz : Nat) : Bool :=
  match findEntry xs ⟨.fm, khz⟩ with
  | some e => e.rejected.isSome
  | none => false

/-- The candidates, in kHz. -/
def State.candidates (s : State) : List Nat :=
  let xs := s.radio.stations
  let d := s.tunA.rx.decoder.data
  let listed := (xs.filter fun e => e.freq.band = .fm && d.identity.isSome && e.identity = d.identity).map fun e => e.freq.khz
  (listed ++ d.alternates.getD []).filter fun k => s.tunA.rx.freq ≠ ⟨.fm, k⟩ && !rejects xs k

/-- The candidate chosen while Tuner B scans: that of highest Qs among entries at least 10 above Tuner A's, the lower frequency
among equals. -/
def State.bestListed (s : State) : Option Nat :=
  let cs := s.candidates
  ((s.radio.stations.filter fun e =>
      e.freq.band = .fm && cs.contains e.freq.khz && decide (s.tunA.rx.qs + 10 ≤ e.qs)).foldl (fun best e =>
    match best with
    | none => some e
    | some b => if b.qs < e.qs then some e else some b) none).map fun e => e.freq.khz

def lowest (ks : List Nat) : Option Nat :=
  ks.foldl (fun best k => match best with | none => some k | some b => some (min b k)) none

/-- The first candidate in ascending frequency after the cursor, or the lowest. -/
def afterCursor (cursor : Option Nat) (ks : List Nat) : Option Nat :=
  match cursor with
  | some c => (lowest (ks.filter fun k => decide (c < k))) <|> lowest ks
  | none => lowest ks

/-- A pre-fade begins (R91, R92): the trim becomes 360, marked fast. -/
def State.startPrefade (s : State) (p : CheckPhase) (khz : Nat) : State :=
  s.withTunA
    { s.tunA with state := .afCheck, phase := p, candidate := some khz,
                  rx := { s.tunA.rx.marked with since := s.clock.now } }

/-- The low count holds 8 at a measurement: switching is considered. -/
def State.considerSwitch (s : State) : State :=
  if s.shift.capturing .a then s
  else if s.tunB.state = .scan then
    match s.bestListed with
    | some k => s.startPrefade .prefadeVerify k
    | none => s.withTunA { s.tunA with low := 0 }
  else
    match afterCursor s.tunA.cursor s.candidates with
    | some k => s.startPrefade .prefadeCheck k
    | none => s.withTunA { s.tunA with low := 0 }

/-- A measurement in TUNED. -/
def State.tunedMeasured (s : State) (m : Meas) : State :=
  let s := s.withTunA { s.tunA with rx := s.tunA.rx.measureReleased m s.clock.now }
  let s := s.withTunA { s.tunA with low := s.lowNext }
  if s.tunA.low = 8 then s.considerSwitch else s

/-! ## Measurements (R68, R69) -/

/-- When a receiver's next measurement falls due. -/
def Receiver.due (r : Receiver) : Time := max r.since r.measuredAt + milliseconds 4

def State.measuredA (s : State) (m : Meas) : State :=
  match s.tunA.state with
  | .tuned => (s.reach s.tunA.rx.due).tunedMeasured m
  | .afCheck =>
    if s.tunA.prefading then
      let s := s.reach s.tunA.rx.due
      s.withTunA { s.tunA with rx := s.tunA.rx.measure m s.clock.now }
    else s
  | .afVerify =>
    if s.tunA.released then
      let s := s.reach s.tunA.rx.due
      s.withTunA { s.tunA with rx := s.tunA.rx.measureReleased m s.clock.now }
    else s
  | .seeking => (s.reach s.tunA.rx.due).walkMeasured m
  | .off | .settling => s

def State.measuredB (s : State) (m : Meas) : State :=
  if s.tunB.open then
    let s := s.reach s.tunB.rx.due
    s.withTunB { s.tunB with rx := s.tunB.rx.measureReleased m s.clock.now }
  else if s.tunB.sweeping then
    let s := s.reach s.tunB.rx.due
    s.withTunB { s.tunB with rx := s.tunB.rx.measure m s.clock.now }
  else s

def execTunerMeasurement (t : TunerId) (m : Meas) (s : State) : Result :=
  tunerEvent (fun s => match t with | .a => s.measuredA m | .b => s.measuredB m) s

/-! ## The end of a settle (R74, R85, R92) -/

/-- The first measurement after a tune, with the output released and the trim changed back, marked fast. -/
def Receiver.release (r : Receiver) (m : Meas) (now : Time) : Receiver := (r.measure m now).marked

def State.settledA (s : State) (m : Meas) : State :=
  match s.tunA.state with
  | .settling =>
    let s := s.reach (s.tunA.rx.since + milliseconds 12)
    let report := s.tunA.report
    let s := s.withTunA
      { s.tunA with rx := s.tunA.rx.release m s.clock.now, state := .tuned, released := true, low := 0, report := none }
    match report with
    | some r => s.tuneDone r
    | none => s
  | .afVerify =>
    if s.tunA.released then s
    else
      let s := s.reach (s.tunA.rx.since + milliseconds 12)
      s.withTunA { s.tunA with rx := s.tunA.rx.release m s.clock.now, released := true }
  | .off | .tuned | .seeking | .afCheck => s

def State.settledB (s : State) (m : Meas) : State :=
  if (s.tunB.state = .watch ∨ s.tunB.state = .held) ∧ s.tunB.settling then
    let s := s.reach (s.tunB.rx.since + milliseconds 12)
    s.withTunB { s.tunB with rx := s.tunB.rx.release m s.clock.now, settling := false }
  else s

def execSettleEnd (t : TunerId) (m : Meas) (s : State) : Result :=
  tunerEvent (fun s => match t with | .a => s.settledA m | .b => s.settledB m) s

/-! ## AF_CHECK and AF_VERIFY (R91, R92) -/

/-- A verification has failed: the candidate is rejected, and Tuner A is tuned back to its home frequency with its saved data
(log entry 14). -/
def State.rejectCandidate (s : State) : State :=
  let f := s.tunA.rx.freq
  if (findEntry s.radio.stations f).isSome then
    s.withRadio (s.radio.withStations (changeEntry s.radio.stations f fun e => { e with rejected := some 60 }))
  else
    match placeEntry s.tunA.shields s.radio.stations { Decoded.empty.entry f s.tunA.rx.qs with rejected := some 60 } with
    | some xs => s.withRadio (s.radio.withNewVersion xs)
    | none => s

/-- Back to the home frequency (R92). The saved data is restored, and offered, from that tune on, so that a TA flag it holds is offered
through the settle too (log entry 14); the 2 s without a good group begin afresh there (log entry 56). -/
def State.failVerify (s : State) : State :=
  let home := s.tunA.home.getD s.tunA.rx.freq
  let saved := s.tunA.saved.getD .empty
  let s := s.rejectCandidate.tuneA home none
  s.withTunA { s.tunA with rx := { s.tunA.rx with decoder := saved } }

/-- The candidate has proved to carry the programme: TUNED on it, each field decoded replacing the saved one. -/
def State.passVerify (s : State) (saved : Decoder) : State :=
  let d := s.tunA.rx.decoder
  let s := s.withTunA
    { s.tunA with rx := { s.tunA.rx with decoder := { d with data := d.data.over saved.data } }, state := .tuned,
                  candidate := none, home := none, saved := none, low := 0 }
  s.tuneDone (.af, .switched)

/-- AF_VERIFY ends once the candidate's identity is present. -/
def State.judgeIdentity (s : State) : State :=
  match s.tunA.state, s.tunA.rx.decoder.data.identity, s.tunA.saved with
  | .afVerify, some i, some saved => if saved.data.identity = some i then s.passVerify saved else s.failVerify
  | _, _, _ => s

/-- The pre-fade has lasted 17 ms: the home frequency and saved copy are set, and Tuner A moves to the candidate, for the gap of a
check, in which the held frequency stays the home one, or for AF_VERIFY. -/
def State.prefadeEnd (s : State) : State :=
  if !s.tunA.prefading then s
  else
    let s := s.reach (s.tunA.rx.since + milliseconds 17)
    let t := { s.tunA with home := some s.tunA.rx.freq, saved := some s.tunA.rx.decoder }
    if s.tunA.phase = .prefadeCheck then
      s.withTunA { t with phase := .gap, rx := { t.rx with decoder := .empty, since := s.clock.now } }
    else
      s.withTunA
        { t with state := .afVerify, released := false, verifyAt := s.clock.now,
                 rx := t.rx.tune ⟨.fm, t.candidate.getD t.rx.freq.khz⟩ s.clock.now }

def execAfPrefadeEnd (s : State) : Result := tunerEvent State.prefadeEnd s

/-- The check measurement, 5 ms into the gap. -/
def State.checkMeasured (s : State) (m : Meas) : State :=
  if s.tunA.state = .afCheck ∧ s.tunA.phase = .gap then
    let s := s.reach (s.tunA.rx.since + milliseconds 5)
    let qc := quality .fm m
    let rx := { s.tunA.rx with last := ⟨m.level, m.multipath, m.adjacent, qc⟩ }
    let t := { s.tunA with cursor := s.tunA.candidate, rx := rx }
    if s.tunA.rx.qs + 10 ≤ qc then
      (s.withTunA
        { t with state := .afVerify, released := true, verifyAt := s.clock.now,
                 rx := { rx.marked with freq := ⟨.fm, t.candidate.getD rx.freq.khz⟩, qs := qc, aside := false, sep := separation qc,
                                        measuredAt := s.clock.now } }).judgeIdentity
    else s.withTunA { t with phase := .failed }
  else s

def execAfCheckMeasurement (m : Meas) (s : State) : Result := tunerEvent (fun s => s.checkMeasured m) s

/-- 7 ms after a failed check began its gap, Tuner A resumes TUNED at home with its held Qs and its data. The 2 s without a good
group count on from the last group taken, be it the candidate's (log entry 56). -/
def State.gapEnded (s : State) : State :=
  if s.tunA.state = .afCheck ∧ s.tunA.phase = .failed then
    let s := s.reach (s.tunA.rx.since + milliseconds 7)
    s.withTunA
      { s.tunA with
        state := .tuned, candidate := none, home := none, saved := none, low := 0,
        rx := { s.tunA.rx.marked with decoder := s.tunA.saved.getD .empty, measuredAt := s.clock.now } }
  else s

def execAfGapEnd (s : State) : Result := tunerEvent State.gapEnded s

def State.verifyTimedOut (s : State) : State :=
  if s.tunA.state = .afVerify then (s.reach (s.tunA.verifyAt + milliseconds 500)).failVerify else s

def execAfVerifyTimeout (s : State) : Result := tunerEvent State.verifyTimedOut s

/-! ## Station data (R72) -/

/-- A good group taken by a receiver. -/
def Receiver.takeGroup (r : Receiver) (g : DataGroup) (now : Time) : Receiver :=
  { r with decoder := r.decoder.take g, groupAt := now }

/-- Tuner A decodes: it is tuned to an FM station and past its settle. In the gap of a check the data is the candidate's. -/
def TunerA.decodes (t : TunerA) : Bool :=
  t.rx.freq.band = .fm && (t.state = .tuned || t.state = .afCheck || (t.state = .afVerify && t.released))

/-- Tuner B decodes: on FM, released, or in the dwell of a sweep. -/
def TunerB.decodes (t : TunerB) : Bool := t.rx.freq.band = .fm && (t.open || (t.sweeping && t.dwell))

def State.groupA (s : State) (g : DataGroup) : State :=
  if s.tunA.decodes then
    (s.withTunA { s.tunA with rx := s.tunA.rx.takeGroup g s.clock.now }).judgeIdentity
  else s

def State.groupB (s : State) (g : DataGroup) : State :=
  if s.tunB.decodes then s.withTunB { s.tunB with rx := s.tunB.rx.takeGroup g s.clock.now } else s

def execDataGroup (t : TunerId) (g : DataGroup) (s : State) : Result :=
  tunerEvent (fun s => match t with | .a => s.groupA g | .b => s.groupB g) s

/-- 2 s have passed without a good group: the TP and TA flags become absent. -/
def State.dataLapsed (s : State) (t : TunerId) : State :=
  let d := (s.receiver t).decoder.data
  if d.tp.isNone && d.ta.isNone then s
  else
    let s := s.reach ((s.receiver t).groupAt + seconds 2)
    let r := s.receiver t
    s.setReceiver t { r with decoder := { r.decoder with data := { r.decoder.data with tp := none, ta := none } } }

def execDataTimeout (t : TunerId) (s : State) : Result := tunerEvent (fun s => s.dataLapsed t) s

/-! ## Sweeps (R79, R81, R86) -/

/-- The channel after `f` in a sweep; none after the last. -/
def sweepNext (f : Freq) : Option Freq :=
  match f.band with
  | .fm => if f.khz < 108000 then some ⟨.fm, f.khz + 100⟩ else some ⟨.mw, 531⟩
  | .mw => if f.khz < 1602 then some ⟨.mw, f.khz + 9⟩ else none

/-- An entry met again with final quality `qs` and decoded data `d` (R79). -/
def Entry.met (e : Entry) (qs : Nat) (d : Decoded) : Entry :=
  let e : Entry :=
    if d.identity.isSome && d.identity ≠ e.identity then { e with name := none, tp := none, alternates := [] } else e
  { e with qs := qs, missed := 0, seen := true, identity := d.identity <|> e.identity, name := d.name <|> e.name,
           tp := d.tp <|> e.tp, alternates := d.alternates.getD e.alternates }

/-- Two entries differ in what the version counts, presets apart. -/
def Entry.differs (a b : Entry) : Bool :=
  !(a.identity = b.identity && a.name = b.name && a.tp = b.tp && a.alternates = b.alternates)

/-- The sweep has changed the list. -/
def State.changedList (s : State) (xs : List Entry) : State :=
  (s.withRadio (s.radio.withNewVersion xs)).withTunB { s.tunB with changed := true }

/-- A channel update (R79). -/
def State.updateChannel (s : State) : State :=
  let f := s.tunB.rx.freq
  let qs := s.tunB.rx.qs
  let xs := s.radio.stations
  match findEntry xs f with
  | some e =>
    if 25 ≤ qs then
      let e' := e.met qs s.tunB.rx.decoder.data
      let ys := changeEntry xs f fun _ => e'
      if e'.differs e then s.changedList ys else s.withRadio (s.radio.withStations ys)
    else s.withRadio (s.radio.withStations (changeEntry xs f fun e => { e with qs := qs }))
  | none =>
    if 25 ≤ qs then
      match placeEntry s.tunA.shields xs { s.tunB.rx.decoder.data.entry f qs with seen := true } with
      | some ys => s.changedList ys
      | none => s
    else s

/-- Ageing at a sweep's end: the entries that stay (R81). -/
def aged (shielded : Entry → Bool) (xs : List Entry) : List Entry :=
  let ys := xs.map fun e => if e.seen then e else { e with missed := min 3 (e.missed + 1) }
  (ys.filter fun e => e.seen || decide (e.missed < 3) || shielded e).map fun e => { e with seen := false }

/-- A sweep ends after its last MW channel (R81, R86, R93, R197). -/
def State.endSweep (s : State) : State :=
  let xs := s.radio.stations
  let ys := aged s.tunA.shields xs
  let removed := decide (ys.length < xs.length)
  let t := s.withRadio (if removed then s.radio.withNewVersion ys else s.radio.withStations ys)
  let t := if removed || s.tunB.changed then t.riseAll 11 else t
  if s.tunB.state = .scan then t.startSweep .scan
  else
    let t := t.enterB .off none
    if t.power.state = .quiet then t.withPower { t.power with timer := some (t.clock.now, t.power.interval) } else t

/-- Tuner B moves to the next channel of its sweep. -/
def State.sweepOn (s : State) : State :=
  match sweepNext s.tunB.rx.freq with
  | some f => s.withTunB { s.tunB with rx := s.tunB.rx.tune f s.clock.now, dwell := false }
  | none => s.endSweep

/-- The 8 ms on a channel, or its dwell of 400 ms, have passed; the event carries the measurement that falls due then, unless it
came by itself. -/
def State.sweepChannelEnd (s : State) (m : Option Meas) : State :=
  if !s.tunB.sweeping then s
  else
    let s := s.reach (s.tunB.rx.since + milliseconds (if s.tunB.dwell then 400 else 8))
    let s :=
      match m with
      | some m => s.withTunB { s.tunB with rx := s.tunB.rx.measure m s.clock.now }
      | none => s
    if !s.tunB.dwell && s.tunB.rx.freq.band = .fm && decide (25 ≤ s.tunB.rx.qs) then
      s.withTunB { s.tunB with dwell := true, rx := { s.tunB.rx with since := s.clock.now, groupAt := s.clock.now } }
    else s.updateChannel.sweepOn

def execSweepChannelEnd (m : Option Meas) (s : State) : Result := tunerEvent (fun s => s.sweepChannelEnd m) s

/-! ## Rejections (R78) -/

/-- A second has passed: each rejection counts down, and is absent at 0. -/
def State.countRejections (s : State) : State :=
  let s := s.reach (s.radio.secondAt + seconds 1)
  s.withRadio
    { s.radio with
      secondAt := s.radio.secondAt + seconds 1
      stations := s.radio.stations.map fun e =>
        { e with rejected := match e.rejected with | some n => if n ≤ 1 then none else some (n - 1) | none => none } }

def execRejectionTick (s : State) : Result := event State.countRejections s

end Sys2Proof.Machine
end

