-- ==== Sys2Proof/Machine/Traffic.lean ====
section
/-! DEFINITION. The orders and events of the Traffic and Shift Unit (chapter 5). -/

namespace Sys2Proof.Machine

/-! ## TRAFFIC_MODE (R96) -/

/-- A memo turned on during an unheard announcement is considered at once. -/
def State.memoTurnedOn (s : State) : State :=
  match s.unheard with
  | some t => s.considerMemo t
  | none => s

/-- Both settings take their values, with the effects of each change in the order in which R96 lists them. -/
def State.setTraffic (s : State) (on memo : Bool) : State :=
  let t := (s.withTraffic { s.traffic with on := on, memo := memo }).reassess
  let t := if s.traffic.on && !on && t.shift.purpose = some .memo then t.discard .trafficOff else t
  if memo && !s.traffic.memo then t.memoTurnedOn else t

/-- Operands: traffic, memo. -/
def trafficModeBody (b : List Byte) (s : State) : Reply × State :=
  match onOff (u8 b 0), onOff (u8 b 1) with
  | some on, some memo => answer .done (s.setTraffic on memo)
  | _, _ => answer .badOperand s

def execTrafficMode (l : Link) (f : Frame) (s : State) : Result := order l f byCockpit (operands 2 f) trafficModeBody s

/-! ## PAUSE, RESUME and GO_LIVE (R104 to R106) -/

/-- A replay stopped while recording continues behind what is stored. -/
def State.pauseReplay (s : State) : State :=
  (s.withShift { s.shift with state := .capture, running := true, cause := some .order, drained := false }).setPosted 1 false

def pauseBody (_ : List Byte) (s : State) : Reply × State :=
  if s.power.state ≠ .run then answer .notReady s
  else
    match s.shift.state with
    | .replay => answer .done s.pauseReplay
    | .capture | .memoCapture | .memoHeld | .memoReplay => answer .inUse s
    | .off =>
      if s.mix.selected ≠ .tunerA then answer .noSuch s
      else if s.store.shiftSize = 0 then answer .full s
      else answer .done (s.startCapture .capture .pause (some .order) .a)

def execPause (l : Link) (f : Frame) (s : State) : Result := order l f byCockpit (operands 0 f) pauseBody s

def resumeBody (_ : List Byte) (s : State) : Reply × State :=
  if s.shift.state = .capture then answer .done s.resumeReplay else answer .noSuch s

def execResume (l : Link) (f : Frame) (s : State) : Result := order l f byCockpit (operands 0 f) resumeBody s

def goLiveBody (_ : List Byte) (s : State) : Reply × State :=
  if s.shift.state = .capture ∨ s.shift.state = .replay then answer .done s.shiftOff else answer .noSuch s

def execGoLive (l : Link) (f : Frame) (s : State) : Result := order l f byCockpit (operands 0 f) goLiveBody s

/-! ## SHIFT_POLICY (R107) -/

/-- Operands: pause-on-call, auto-resume. -/
def shiftPolicyBody (b : List Byte) (s : State) : Reply × State :=
  match onOff (u8 b 0), onOff (u8 b 1) with
  | some pause, some auto => answer .done (s.withTraffic { s.traffic with pauseOnCall := pause, autoResume := auto })
  | _, _ => answer .badOperand s

def execShiftPolicy (l : Link) (f : Frame) (s : State) : Result := order l f byCockpit (operands 2 f) shiftPolicyBody s

/-! ## Events -/

/-- The 2 s hold has passed: the A eligible flag is cleared, and the traffic source is chosen again (R97). -/
def State.eligibleExpired (s : State) : State :=
  match s.traffic.holdAt with
  | some t =>
    let s := s.reach (t + seconds 2)
    (s.withTraffic { s.traffic with eligible := false, holdAt := none }).reassess
  | none => s

def execAEligibleExpiry (s : State) : Result := event State.eligibleExpired s

/-- The fill has reached 0 in REPLAY (R103). -/
def State.replayDrained (s : State) : State :=
  if s.shift.state = .replay && s.shift.drained && s.shift.fill == 0 then s.shiftOff else s

def execReplayDrained (s : State) : Result := event State.replayDrained s

/-- The fill has reached 0 in MEMO_REPLAY with capture stopped: the RADIO claim, whose source is SHIFT, is removed (R110). -/
def State.memoReplayEnded (s : State) : State :=
  if s.shift.state = .memoReplay && !s.shift.running && s.shift.drained && s.shift.fill == 0 then
    (s.shiftOff.setClaim radioHandle none).tableChanged
  else s

def execMemoReplayEnd (s : State) : Result := event State.memoReplayEnded s

end Sys2Proof.Machine
end

