-- ==== Sys2Proof/Machine/Voices.lean ====
section
/-! DEFINITION. The Chime Player's shared operations: a sound's range and the checks of a take, a voice's start, its stopping and
its return to IDLE, and what becomes of a request that is not played (R153 to R160). -/

namespace Sys2Proof.Machine

/-! ## Sounds and their checks -/

/-- The words `[a, b)` of a sound of `length` samples that starts at word `start` (R153). -/
def soundRange (start length : Nat) : Nat × Nat := (start, start + (length + 1) / 2)

def Descriptor.range (d : Descriptor) : Nat × Nat := soundRange d.start.toNat d.length

/-- The CHIME or CLIP region that contains a range, if one does. -/
def Store.soundRegion (st : Store) (a b : Nat) : Option Region := [Region.chime, .clip].find? (st.inRegion a b)

/-- The link holds the read right on the region that contains the range. -/
def Store.mayRead (st : Store) (l : Link) (a b : Nat) : Bool :=
  match st.soundRegion a b with
  | some r => ((st.rights r).get l).read
  | none => false

/-- A take's, or a chain step's, check of descriptor `d` for link `l` (R157, R159). -/
def State.playable (s : State) (d : Nat) (l : Link) : Option Descriptor :=
  match s.desc d with
  | some x =>
    if x.valid && s.store.mayRead l x.range.1 x.range.2 && !s.store.writeOpenOver x.range.1 x.range.2 then some x else none
  | none => none

def voiceNumbers : List (Fin 4) := [0, 1, 2, 3]

/-- A voice has descriptor `d` in PLAYING or GAP. -/
def Voice.plays (v : Voice) (d : Nat) : Bool := (v.state = .playing || v.state = .gap) && v.desc = some d

/-- A successor of some voice is reserved for descriptor `d`. -/
def Voice.reserves (v : Voice) (d : Nat) : Bool :=
  match v.successor with
  | some r => r.desc == d
  | none => false

/-- A descriptor is in use (R153). -/
def Chime.inUse (c : Chime) (d : Nat) : Bool :=
  c.voices.any (fun v => (v.state ≠ .idle && v.desc = some d) || v.reserves d) || c.queue.any fun r => r.desc == d

/-! ## Endings reported (R158, R160) -/

/-- A link's last-ended record set. -/
def State.setEnded (s : State) (l : Link) (e : Ended) : State :=
  s.withChime { s.chime with ended := s.chime.ended.set l (some e) }

/-- CHIME_ENDED is offered to a link, and its last-ended record set. -/
def State.chimeEnded (s : State) (l : Link) (e : Ended) : State := (s.setEnded l e).notice l 14

/-- A request that is not played. -/
def State.requestEnded (s : State) (r : Request) (cause : EndCause) : State := s.chimeEnded r.link ⟨r.desc, none, cause⟩

/-! ## A voice's start (R34, R159) -/

/-- The voice claim of a descriptor; `State.post` gives its sequence number. -/
def voiceClaim (n : Fin 4) (d : Descriptor) : Claim :=
  { claimant := .voice n, tier := .urgent, kind := .overlay, zones := d.zones, source := .voice n,
    level := some (clampLevel d.level), duck := some (clampDuck d.duck), ramp := .fast, ending := false, seq := 0 }

/-- Repeats left at a start. -/
def RepeatMode.repeats : RepeatMode → Option Nat
  | .once | .chain _ => some 0
  | .count n => some (n - 1)
  | .untilStop _ => none

/-- The deadline of a start, a restart or a renewal at moment `now`. -/
def RepeatMode.deadline (now : Time) : RepeatMode → Option Time
  | .untilStop ms => some (now + milliseconds ms)
  | .once | .count _ | .chain _ => none

/-- The place of voice `n` among the voices by start number, those of equal number in the order of the voices. -/
def voiceRank (vs : List Voice) (n : Nat) : Nat :=
  let me := (vs.getD n .fresh).number
  (vs.zipIdx.filter fun (v, i) => decide (v.number < me) || (v.number == me && decide (i < n))).length + 1

/-- The start counter ready to rise by 1 (R159). -/
def Chime.readyToStart (c : Chime) : Chime :=
  if c.counter < seqMax then c
  else { c with voices := c.voices.zipIdx.map fun (v, i) => { v with number := voiceRank c.voices i }, counter := 4 }

/-- The voice needs words at the next frame event (R177). -/
def Voice.needsWords (v : Voice) : Bool := v.state = .playing || (v.state = .stopping && decide (0 < v.remaining))

/-- The voice posts its request for words, if it needs any. -/
def State.postVoice (s : State) (n : Fin 4) : State := s.setPosted (2 + n.val) (s.voice n.val).needsWords

/-- A voice whose state changes between two posts keeps the request it has, if it still needs words, and withdraws it otherwise. -/
def State.keepRequest (s : State) (n : Fin 4) : State :=
  if (s.voice n.val).needsWords then s else s.setPosted (2 + n.val) false

/-- A take that has passed its check. -/
def State.startVoice (s : State) (n : Fin 4) (r : Request) (d : Descriptor) : State :=
  let c := s.chime.readyToStart
  let number := c.counter + 1
  let v : Voice :=
    { state := .playing, desc := some r.desc, position := 0, remaining := d.length, repeats := d.mode.repeats, gapLeft := 0,
      restart := false, deadline := d.mode.deadline s.clock.now, starter := some r.link, number := number, cause := none,
      successor := none, faded := false }
  let s := (s.withChime { c with counter := number }).setVoice n.val v
  ((s.post (voiceHandle n.val) (voiceClaim n d)).tableChanged).postVoice n

/-! ## Stopping and reaching IDLE (R158, R160) -/

/-- A voice in PLAYING or GAP enters STOPPING with a cause, and its claim's ending flag is set. -/
def State.stopVoice (s : State) (n : Fin 4) (cause : EndCause) : State :=
  let v := s.voice n.val
  if v.state = .playing || v.state = .gap then
    ((s.setVoice n.val { v with state := .stopping, cause := some cause, faded := false }).changeClaim (voiceHandle n.val)
      fun c => { c with ending := true }).keepRequest n
  else s

/-- The queue's head is taken, those that fail their check being dropped, until one passes or the queue is empty. -/
def State.takeQueue (n : Fin 4) : List Request → State → State
  | [], s => s
  | r :: rest, s =>
    let s := s.withChime { s.chime with queue := rest }
    match s.playable r.desc r.link with
    | some d => s.startVoice n r d
    | none => State.takeQueue n rest (s.requestEnded r .dropped)

/-- An IDLE voice takes its successor if that passes, and otherwise from the queue. -/
def State.takeNext (s : State) (n : Fin 4) (successor : Option Request) : State :=
  match successor with
  | some r =>
    match s.playable r.desc r.link with
    | some d => s.startVoice n r d
    | none =>
      let s := s.requestEnded r .dropped
      State.takeQueue n s.chime.queue s
  | none => State.takeQueue n s.chime.queue s

/-- The voice's fields once it is IDLE. -/
def Voice.idled (v : Voice) : Voice :=
  { v with state := .idle, desc := none, starter := none, deadline := none, cause := none, successor := none, faded := false }

/-- The claim removed, CHIME_ENDED raised and the fields cleared (R158, its first three points; R167). The notice of a chime that a
reset of its link has stopped is never latched (R168): it is not offered. -/
def State.endVoice (s : State) (n : Fin 4) (cause : EndCause) : State :=
  let v := s.voice n.val
  let s := (s.setClaim (voiceHandle n.val) none).tableChanged
  let s :=
    match v.starter, v.desc with
    | some l, some d =>
      if v.cause = some EndCause.reset then s.setEnded l ⟨d, some n, cause⟩ else s.chimeEnded l ⟨d, some n, cause⟩
    | _, _ => s
  (s.setVoice n.val v.idled).keepRequest n

/-- A STOPPING voice whose contributions have all faded reaches IDLE. -/
def State.reachIdle (s : State) (n : Fin 4) : State :=
  let v := s.voice n.val
  if v.state = .stopping && v.faded then (s.endVoice n (v.cause.getD .completed)).takeNext n v.successor else s

/-! ## The repetition boundary (R156, R157) -/

/-- The sound begins again from its first sample, at once or after the gap `g`. -/
def Voice.again (v : Voice) (length g : Nat) : Voice :=
  if g = 0 then { v with state := .playing, position := 0, remaining := length }
  else { v with state := .gap, gapLeft := g }

/-- The chain step of a voice that has played `d`. Through the gap behind it the position stays that of the sound played, beside the next
descriptor (log entry 67). -/
def State.chainStep (s : State) (n : Fin 4) (d : Descriptor) (next : Option Nat) : State :=
  let v := s.voice n.val
  match next, v.starter with
  | some i, some l =>
    match s.playable i l with
    | some x =>
      let v : Voice :=
        { v with desc := some i, repeats := x.mode.repeats, deadline := x.mode.deadline s.clock.now, restart := false }
      ((s.setVoice n.val (v.again x.length d.gap)).changeClaim (voiceHandle n.val) fun c =>
        { c with zones := x.zones, level := some (clampLevel x.level), duck := some (clampDuck x.duck) }).tableChanged
    | none => s.stopVoice n .chainBroken
  | _, _ => s.stopVoice n .completed

/-- Repeats left after a pending restart (R156, point 1). -/
def Voice.restarted (v : Voice) (mode : RepeatMode) : Voice :=
  if v.restart then
    { v with restart := false,
             repeats := match mode with | .once | .chain _ => some 1 | .count n => some n | .untilStop _ => none }
  else v

/-- The current play has ended. -/
def State.playEnded (s : State) (n : Fin 4) : State :=
  let v := s.voice n.val
  match v.desc.bind s.desc with
  | some d =>
    if v.state = .playing && v.remaining == 0 then
      let v := v.restarted d.mode
      let s := s.setVoice n.val v
      let s :=
        match d.mode with
        | .untilStop _ => s.setVoice n.val (v.again d.length d.gap)
        | mode =>
          match v.repeats with
          | some (k + 1) => s.setVoice n.val ({ v with repeats := some k }.again d.length d.gap)
          | _ =>
            match mode with
            | .chain next => s.chainStep n d next
            | _ => s.stopVoice n .completed
      s.keepRequest n
    else s
  | none => s

/-- The gap has run out: the voice plays its sound from sample 0. -/
def State.gapOver (s : State) (n : Fin 4) : State :=
  let v := s.voice n.val
  match v.desc.bind s.desc with
  | some d =>
    if v.state = .gap && v.gapLeft == 0 then
      (s.setVoice n.val { v with state := .playing, position := 0, remaining := d.length }).postVoice n
    else s
  | none => s

/-- The deadline of an UNTIL_STOP voice has passed (R163). -/
def State.deadlinePassed (s : State) (n : Fin 4) : State :=
  let v := s.voice n.val
  match v.deadline with
  | some t => if v.state = .playing || v.state = .gap then (s.reach t).stopVoice n .expired else s
  | none => s

/-! ## Leaving RUN (R167) -/

/-- A voice enters IDLE at once with cause POWER, its successor dropped. -/
def State.cutVoice (s : State) (n : Fin 4) : State :=
  let v := s.voice n.val
  if v.state = .idle then s
  else
    let s := s.endVoice n .power
    match v.successor with
    | some r => s.requestEnded r .power
    | none => s

/-- Every queue entry is removed with a cause. -/
def State.emptyQueue (s : State) (cause : EndCause) : State :=
  s.chime.queue.foldl (fun s r => s.requestEnded r cause) (s.withChime { s.chime with queue := [] })

def State.cutChimes (s : State) : State := (voiceNumbers.foldl (fun s n => s.cutVoice n) s).emptyQueue .power

end Sys2Proof.Machine
end

