-- ==== Sys2Proof/Machine/Run.lean ====
section
/-! DEFINITION. Entering and leaving RUN, with their effects in every block (R194), and a wake (R196). -/

namespace Sys2Proof.Machine

/-! ## Leaving RUN -/

/-- A sink when the Mix Engine stops (R65): a delay change in progress ends at once, and a frame computed but not sent is dropped
(R17). -/
def Sink.stopped (x : Sink) : Sink :=
  { x with list := [], waiting := [], guard := 0, clean := 0, delay := x.pendingDelay.getD x.delay, pendingDelay := none,
           delayState := .steady, fade := 0, faded := false, line := List.replicate 960 0, computed := silentFrame, sending := silentFrame }

/-- The frequency that Tuner A's held one becomes when a seek, a check or a verification is abandoned (R93, R94). -/
def TunerA.resting (t : TunerA) : Freq :=
  match t.seekStart with
  | some f => f
  | none => t.home.getD t.rx.freq

/-- Tuner A enters OFF (R93). -/
def TunerA.rest (t : TunerA) : TunerA :=
  { t with
    rx := { t.rx.silence t.open with freq := t.resting, decoder := .empty }
    state := .off, released := false, candidate := none, home := none, saved := none, seekDir := none, seekStart := none,
    low := 0, report := none }

/-- A tracker on leaving RUN (R12). -/
def Tracker.parked (t : Tracker) : Tracker := { t.lost with delivered := [] }

def Ports.parked (x : Ports) : Ports :=
  { p0 := x.p0.parked, p1 := x.p1.parked, p2 := x.p2.parked, t0 := [], t1 := [], uplink := x.uplink.emptied, uplinkSlot := none }

/-- No station holds Tuner B and no grace timer runs (R93, R151). -/
def State.dropHolder (s : State) : State :=
  (s.withTunB { s.tunB with holder := none }).withStations
    { s.stations with one := { s.stations.one with graceAt := none }, two := { s.stations.two with graceAt := none } }

def Station.notSampling (x : Station) : Station := { x with sampling := false }

/-- No fast change of the trim is left for the Mix Engine to take at a frame event. -/
def Receiver.unmarked (r : Receiver) : Receiver := { r with fastDue := false }

def State.clearFast (s : State) : State :=
  let s := s.withTunA { s.tunA with rx := s.tunA.rx.unmarked }
  s.withTunB { s.tunB with rx := s.tunB.rx.unmarked }

/-- What ends with the frame events: the conference sums and hold (R135), the headset microphones' samples (R146), the stream
requests (R177) and the fast changes that no frame event has taken (R52). -/
def State.endFrames (s : State) : State :=
  let s := s.withCall { s.call with recent := noRecent, hold := 0, refZones := 0, uplink := List.replicate 16 0 }
  let s := s.withStations { s.stations with one := s.stations.one.notSampling, two := s.stations.two.notSampling }
  (s.withStore { s.store with posted := List.replicate 6 none }).clearFast

/-- The refresh timer started at 0 with the interval held (R197). -/
def State.startTimer (s : State) : State := s.withPower { s.power with timer := some (s.clock.now, s.power.interval) }

def State.stopTimer (s : State) : State := s.withPower { s.power with timer := none }

/-- The hub leaves RUN for QUIET or SLEEP: the Mix Engine stops, the voices go IDLE, the Shift Buffer is discarded, the tuners
enter OFF and a holding ends, and the trackers enter ABSENT (R194). -/
def State.leaveRun (s : State) (st : PowerState) : State :=
  let s := s.withPower { s.power with state := st }
  let s := s.withMix { s.mix with sinks := s.mix.sinks.map Sink.stopped }
  let s := (s.cutChimes).discard .power
  let s := s.withTunA s.tunA.rest
  let s := s.dropHolder.enterB .off none
  let s := s.withPorts s.ports.parked
  let s := s.endFrames
  let s := if st = .quiet then s.startTimer else s.stopTimer
  s.reassess

/-! ## Entering RUN -/

/-- The hub enters RUN for a cause: the refresh timer stops, frame events begin, the first of them due at once, with no sample
period before it (R2), Tuner A is tuned to its held frequency, and Tuner B takes its assignment (R93, R194, R197). The trackers
stand in ABSENT already. -/
def State.enterRun (s : State) (cause : EntryCause) : State :=
  let s := s.withPower { s.power with state := .run, entry := some cause, timer := none }
  let s := s.withClock { s.clock with frameDue := s.clock.now, periods := 48 }
  s.retuneA s.tunA.rx.freq (.runEntry, .resumed)

/-- A wake event whose enable is `on` (R196). While the store fills, a wake moves no power state (R198). -/
def State.wake (s : State) (on : Bool) (cause : EntryCause) : State :=
  if on && s.power.state ≠ .run && !s.store.initialising then s.enterRun cause else s

end Sys2Proof.Machine
end

