-- ==== Sys2Proof/Machine/Rear.lean ====
section
/-! DEFINITION. The Rear Stations: the station orders and the rear lock (sections 7.2, 7.4), the jack monitors (section 7.3), and the
holding of Tuner B (section 7.5). -/

namespace Sys2Proof.Machine

/-! ## Holding Tuner B (R148, R149) -/

/-- The grace timer of a station that has just become holder. -/
def State.graceOf (s : State) (st : StationId) : Option Time :=
  if (s.station st).inserted then none else some s.clock.now

def State.setGrace (s : State) (st : StationId) (g : Option Time) : State :=
  s.setStation st { s.station st with graceAt := g }

def State.setHolder (s : State) (h : Option StationId) : State := s.withTunB { s.tunB with holder := h }

/-- A holding ends: Tuner B is handed over to the other station if that one's source is TUNER_B, and otherwise returned. -/
def State.endHolding (s : State) : State :=
  match s.tunB.holder with
  | none => s
  | some st =>
    let s := s.setGrace st none
    if (s.station (other st)).source = .tunerB then
      (s.setHolder (some (other st))).setGrace (other st) (s.graceOf (other st))
    else (s.setHolder none).reassess

/-- Tuner B lent to a station on a frequency; a station that holds it already is only tuned (R88). -/
def State.lend (s : State) (st : StationId) (f : Freq) : State :=
  let t := if s.tunB.holder = some st then s else (s.setHolder (some st)).setGrace st (s.graceOf st)
  (t.enterB .held (some f)).reassess

/-! ## Station orders (R138 to R141, R144) -/

/-- Check 3 of R138. -/
def lockedOut (l : Link) (s : State) : Bool := l = .rear && s.stations.lock

/-- The sources of a station record (R137). -/
def Source.forStation : Source → Bool
  | .tunerA | .tunerB | .mediaFront | .mediaRear | .silence => true
  | .nav | .callDown | .voice _ | .shift => false

/-- A station's source changed; the holder that leaves TUNER_B ends its holding (R139). -/
def State.setSource (s : State) (st : StationId) (src : Source) : State :=
  let t := s.setStation st { s.station st with source := src }
  if s.tunB.holder = some st && src ≠ .tunerB then t.endHolding else t

/-- Operands: station, source. -/
def stationSourceBody (l : Link) (b : List Byte) (s : State) : Reply × State :=
  match stationOf (u8 b 0), sourceOf (u8 b 1) with
  | some st, some src =>
    if !src.forStation then answer .badOperand s
    else if lockedOut l s then answer .locked s
    else if src = (s.station st).source then answer .done s
    else answer .done (s.setSource st src)
  | _, _ => answer .badOperand s

def execStationSource (l : Link) (f : Frame) (s : State) : Result :=
  order l f byCockpitRear (operands 2 f) (stationSourceBody l) s

/-- The Tuner Controller's decision on a request for Tuner B (R88). -/
def State.mayLend (s : State) (st : StationId) : Status :=
  match s.tunB.state with
  | .held => if s.tunB.holder = some st then .done else .inUse
  | .idle | .scan => .done
  | .watch => if s.radio.rearFirst then .done else .inUse
  | .off | .refresh => .notReady

/-- Operands: station, band, frequency. -/
def stationTuneBody (l : Link) (b : List Byte) (s : State) : Reply × State :=
  match stationOf (u8 b 0), freqAt b 1 with
  | some st, some f =>
    if lockedOut l s then answer .locked s
    else if (s.station st).source ≠ .tunerB then answer .badOperand s
    else if s.mayLend st = .done then answer .done (s.lend st f)
    else answer (s.mayLend st) s
  | _, _ => answer .badOperand s

def execStationTune (l : Link) (f : Frame) (s : State) : Result :=
  order l f byCockpitRear (operands 6 f) (stationTuneBody l) s

/-- Operands: station, volume. -/
def stationVolumeBody (l : Link) (b : List Byte) (s : State) : Reply × State :=
  match stationOf (u8 b 0) with
  | some st =>
    if lockedOut l s then answer .locked s
    else answer .done (s.setStation st { s.station st with volume := clampInt 0 360 (s16 b 1) })
  | none => answer .badOperand s

def execStationVolume (l : Link) (f : Frame) (s : State) : Result :=
  order l f byCockpitRear (operands 3 f) (stationVolumeBody l) s

/-- Operands: station, on or off. -/
def stationSwapBody (l : Link) (b : List Byte) (s : State) : Reply × State :=
  match stationOf (u8 b 0), onOff (u8 b 1) with
  | some st, some on =>
    if lockedOut l s then answer .locked s else answer .done (s.setStation st { s.station st with swap := on })
  | _, _ => answer .badOperand s

def execStationSwap (l : Link) (f : Frame) (s : State) : Result :=
  order l f byCockpitRear (operands 2 f) (stationSwapBody l) s

/-- A measurement starts (R143). -/
def State.startMeasure (s : State) (st : StationId) : State :=
  s.setStation st { s.station st with measuring := true, measureAt := s.clock.now }

/-- Operand: station. -/
def jackMeasureBody (l : Link) (b : List Byte) (s : State) : Reply × State :=
  match stationOf (u8 b 0) with
  | some st =>
    if lockedOut l s then answer .locked s
    else if !(s.station st).inserted then answer .noSuch s
    else if (s.station st).measuring then answer .inUse s
    else answer .done (s.startMeasure st)
  | none => answer .badOperand s

def execJackMeasure (l : Link) (f : Frame) (s : State) : Result :=
  order l f byCockpitRear (operands 1 f) (jackMeasureBody l) s

/-- Operand: cap. -/
def stationCapBody (b : List Byte) (s : State) : Reply × State :=
  answer .done (s.withStations { s.stations with cap := clampInt 0 120 (s16 b 0) })

def execStationCap (l : Link) (f : Frame) (s : State) : Result := order l f byCockpit (operands 2 f) stationCapBody s

/-- R147. Operand: on or off. -/
def rearLockBody (b : List Byte) (s : State) : Reply × State :=
  match onOff (u8 b 0) with
  | some on => answer .done (s.withStations { s.stations with lock := on })
  | none => answer .badOperand s

def execRearLock (l : Link) (f : Frame) (s : State) : Result := order l f byCockpit (operands 1 f) rearLockBody s

/-! ## The jack monitors (R142, R143) -/

/-- The sense switch closes: a measurement starts, a holder's grace timer stops, and the hub may wake. -/
def State.inserted (s : State) (st : StationId) : State :=
  if (s.station st).inserted then s
  else
    let t := (s.setStation st { s.station st with inserted := true, graceAt := none }).startMeasure st
    t.wake t.power.wakeJack .jack

def execJackInsertion (st : StationId) (s : State) : Result := event (fun s => s.inserted st) s

/-- The sense switch opens: a measurement is abandoned, the class becomes OPEN, and a holder's grace timer starts. -/
def State.removed (s : State) (st : StationId) : State :=
  if !(s.station st).inserted then s
  else
    let t := s.setStation st { s.station st with inserted := false, measuring := false }
    let t := t.setClass st .vacant
    if t.tunB.holder = some st then t.setGrace st (some t.clock.now) else t

def execJackRemoval (st : StationId) (s : State) : Result := event (fun s => s.removed st) s

/-- The class that a measured load and mic present give. -/
def classOf (load : Nat) (mic : Bool) : JackClass :=
  if load ≤ 3 then .short
  else if load ≤ 999 then (if mic then .headset else .headphone)
  else .line

/-- The lower of the two earpiece loads, saturated. -/
def loadOf (load1 load2 : Nat) : Nat := min 65535 (min load1 load2)

/-- A measurement in flight completes, 3 ms after its start. -/
def State.measured (s : State) (st : StationId) (load1 load2 : Nat) (mic : Bool) : State :=
  if !(s.station st).measuring then s
  else
    let s := s.reach ((s.station st).measureAt + milliseconds 3)
    let x := s.station st
    let load := loadOf load1 load2
    (s.setStation st { x with load := some load, mic := some mic, measuring := false, count := (x.count + 1) % 256 }).setClass
      st (classOf load mic)

def execMeasurementComplete (st : StationId) (load1 load2 : Nat) (mic : Bool) (s : State) : Result :=
  event (fun s => s.measured st load1 load2 mic) s

/-- A holder's grace timer has reached 30 s. -/
def State.graceExpired (s : State) (st : StationId) : State :=
  match (s.station st).graceAt with
  | some t => if s.tunB.holder = some st then (s.reach (t + seconds 30)).endHolding else s
  | none => s

def execGraceExpiry (st : StationId) (s : State) : Result := event (fun s => s.graceExpired st) s

end Sys2Proof.Machine
end

