-- ==== Sys2Proof/Machine/Calls.lean ====
section
/-! DEFINITION. The orders of the Call Processor (sections 6.2 to 6.4), and the judgement of its canceller's window. -/

namespace Sys2Proof.Machine

/-- R117. Operand: state. Entering RINGING is a wake event (R196). -/
def callStateBody (b : List Byte) (s : State) : Reply × State :=
  match callOf (u8 b 0) with
  | none => answer .badOperand s
  | some p =>
    if p = s.call.state then answer .done s
    else
      let s := s.enterCall p
      answer .done (if p = .ringing then s.wake s.power.wakeCall .call else s)

def execCallState (l : Link) (f : Frame) (s : State) : Result := order l f byTelephony (operands 1 f) callStateBody s

/-- A call may be placed there as the jacks now stand (R119). -/
def State.placeable (s : State) : Placement → Bool
  | .cabin | .driver => true
  | .station st => (s.station st).jack ≠ .vacant && (s.station st).jack ≠ .short

/-- R119. Operand: placement. -/
def callPlaceBody (b : List Byte) (s : State) : Reply × State :=
  match placementOf (u8 b 0) with
  | none => answer .badOperand s
  | some p =>
    if !s.placeable p then answer .badOperand s
    else if p = s.call.placement then answer .done s
    else answer .done (s.placeCall p)

def execCallPlace (l : Link) (f : Frame) (s : State) : Result := order l f byCockpitTelephony (operands 1 f) callPlaceBody s

/-- Conference selection starts with the microphone in use, or with M0 if that is a headset's; its hold is 0 and its sums are
cleared (R122, R123). -/
def Call.startConference (c : Call) : Call :=
  { c with choice := match c.mic with | .cabin n => n | .jack _ => 0, hold := 0, recent := noRecent }

/-- R122. Operand: mode. -/
def micSelectBody (b : List Byte) (s : State) : Reply × State :=
  match micModeOf (u8 b 0) with
  | none => answer .badOperand s
  | some m =>
    if m = s.call.mode then answer .done s
    else
      let c := { s.call with mode := m }
      answer .done (s.withCall (if m = .conference then c.startConference else c)).chooseMic

def execMicSelect (l : Link) (f : Frame) (s : State) : Result := order l f byCockpitTelephony (operands 1 f) micSelectBody s

/-- R124. -/
def micMuteBody (f : LinkSet → LinkSet) (_ : List Byte) (s : State) : Reply × State :=
  answer .done (s.withCall { s.call with mutes := f s.call.mutes })

def execMicMuteSet (l : Link) (f : Frame) (s : State) : Result :=
  order l f byCockpitTelephony (operands 0 f) (micMuteBody fun set => addLink set l) s

def execMicMuteClear (l : Link) (f : Frame) (s : State) : Result :=
  order l f byCockpitTelephony (operands 0 f) (micMuteBody fun set => dropLink set l) s

/-- R125. Operand: attenuation. -/
def callVolumeBody (b : List Byte) (s : State) : Reply × State :=
  answer .done (s.withCall { s.call with volume := clampInt 0 360 (s16 b 0) })

def execCallVolume (l : Link) (f : Frame) (s : State) : Result :=
  order l f byCockpitTelephony (operands 2 f) callVolumeBody s

/-- The window count has reached 8,000 samples (R131, R132). -/
def State.windowJudged (s : State) : State :=
  if 8000 ≤ s.call.echo.count then s.withEcho s.call.echo.judge else s

def execWindowJudged (s : State) : Result := event State.windowJudged s

end Sys2Proof.Machine
end

