-- ==== Sys2Proof/Machine/Chimes.lean ====
section
/-! DEFINITION. The orders of the Chime Player (sections 8.1, 8.3, 8.4) and the four events of its voices. -/

namespace Sys2Proof.Machine

/-! ## CHIME_DEFINE (R154) -/

/-- The descriptor that the operands give: index, start, length, mode, parameter, gap, priority, zone set, level, duck. None where
an operand is of an impossible kind (R154, check 2). -/
def descriptorOf (l : Link) (b : List Byte) : Option (Descriptor × Nat) := do
  let mode ← repeatOf (u8 b 9) (u16 b 10)
  let zones ← zoneSetOf (u8 b 15)
  let length := u32 b 5
  if u8 b 0 ≤ 31 ∧ 1 ≤ length ∧ length ≤ 480000 ∧ zones ≠ 0 ∧ within zones speakerZones = true then
    some ({ valid := true, start := BitVec.ofNat 24 (u32 b 1), length := length, mode := mode,
            gap := clampNat 0 5000 (u16 b 12), priority := clampNat 0 7 (u8 b 14), zones := zones,
            level := clampLevel (s16 b 16), duck := clampDuck (s16 b 18), definer := l }, u32 b 1)
  else none

def chimeDefineBody (l : Link) (b : List Byte) (s : State) : Reply × State :=
  if s.store.initialising then answer .notReady s
  else
    match descriptorOf l b with
    | none => answer .badOperand s
    | some (d, start) =>
      let (a, z) := soundRange start d.length
      if (s.store.soundRegion a z).isNone then answer .badOperand s
      else if !s.store.mayRead l a z then answer .notPermitted s
      else if s.chime.inUse (u8 b 0) then answer .inUse s
      else if s.store.writeOpenOver a z then answer .inUse s
      else answer .done (s.setDesc (u8 b 0) d)

def execChimeDefine (l : Link) (f : Frame) (s : State) : Result :=
  order l f byCockpitBody (operands 20 f) (chimeDefineBody l) s

/-! ## CHIME_START (R161, R162) -/

/-- The voices in PLAYING or GAP whose descriptor is `d` are to restart, with their deadlines moved. -/
def Chime.restart (c : Chime) (d : Nat) (mode : RepeatMode) (now : Time) : Chime :=
  { c with voices := c.voices.map fun v =>
      if v.plays d then { v with restart := true, deadline := (mode.deadline now) <|> v.deadline } else v }

/-- The priority that a voice's current descriptor gives it. -/
def State.voicePriority (s : State) (v : Voice) : Nat :=
  match v.desc.bind s.desc with
  | some d => d.priority
  | none => 0

/-- The voice that a preemption would take: of the lowest priority among those in PLAYING or GAP, the one started earliest. -/
def State.weakest (s : State) : Option (Fin 4) :=
  (voiceNumbers.filter fun n => (s.voice n.val).state = .playing || (s.voice n.val).state = .gap).foldl (fun best n =>
    match best with
    | none => some n
    | some b =>
      let pn := s.voicePriority (s.voice n.val)
      let pb := s.voicePriority (s.voice b.val)
      if pn < pb ∨ (pn = pb ∧ (s.voice n.val).number < (s.voice b.val).number) then some n else some b) none

/-- The voice preempted for a descriptor of priority `p`, if one may be. -/
def State.preemptable (s : State) (p : Nat) : Option (Fin 4) :=
  match s.weakest with
  | some n => if s.voicePriority (s.voice n.val) < p then some n else none
  | none => none

/-- A preemption (R162): the voice is stopped with the new descriptor as its successor, and its starter is told. -/
def State.preempt (s : State) (n : Fin 4) (r : Request) : State :=
  let old := s.voice n.val
  let t := s.stopVoice n .preempted
  let t := t.setVoice n.val { t.voice n.val with successor := some r }
  match old.starter, old.desc with
  | some l, some d => t.advise l (.voicePreempted n d r.desc)
  | _, _ => t

/-- A request joins the queue behind those of its priority and above. -/
def State.joinQueue (s : State) (r : Request) (p : Nat) : State :=
  let ahead := fun q : Request => match s.desc q.desc with | some d => decide (p ≤ d.priority) | none => false
  s.withChime { s.chime with queue := s.chime.queue.takeWhile ahead ++ [r] ++ s.chime.queue.dropWhile ahead }

def State.idleVoice (s : State) : Option (Fin 4) := voiceNumbers.find? fun n => (s.voice n.val).state = .idle

/-- The Operation of R161 for descriptor `x` of index `d`. -/
def State.requestChime (s : State) (l : Link) (d : Nat) (x : Descriptor) : Reply × State :=
  if s.chime.voices.any fun v => v.plays d then answer .done (s.withChime (s.chime.restart d x.mode s.clock.now))
  else if (s.chime.queue.any fun r => r.desc == d) || s.chime.voices.any fun v => v.reserves d then answer .done s
  else
    match s.idleVoice with
    | some n => answer .done (s.startVoice n ⟨d, l⟩ x)
    | none =>
      match s.preemptable x.priority with
      | some n => answer .done (s.preempt n ⟨d, l⟩)
      | none =>
        if s.chime.queue.length < 4 then answer .accepted (s.joinQueue ⟨d, l⟩ x.priority)
        else answer .full s

/-- A start may proceed in the present power state (R161, check 5). -/
def State.mayStart (s : State) (l : Link) : Bool := s.power.state = .run || (l = .body && s.power.wakeChime)

/-- Operand: index. -/
def chimeStartBody (l : Link) (b : List Byte) (s : State) : Reply × State :=
  let d := u8 b 0
  if s.store.initialising then answer .notReady s
  else if 31 < d then answer .badOperand s
  else
    match s.desc d with
    | none => answer .badOperand s
    | some x =>
      if !x.valid then answer .badOperand s
      else if !s.store.mayRead l x.range.1 x.range.2 then answer .notPermitted s
      else if s.store.writeOpenOver x.range.1 x.range.2 then answer .inUse s
      else if !s.mayStart l then answer .notReady s
      else (s.wake true .chime).requestChime l d x

def execChimeStart (l : Link) (f : Frame) (s : State) : Result :=
  order l f byCockpitBody (operands 1 f) (chimeStartBody l) s

/-! ## CHIME_STOP and CHIME_STOP_ALL (R164, R165) -/

/-- A successor reservation that satisfies `p` is cancelled. -/
def State.cancelSuccessor (s : State) (p : Request → Bool) (n : Fin 4) : State :=
  match (s.voice n.val).successor with
  | some r => if p r then (s.setVoice n.val { s.voice n.val with successor := none }).requestEnded r .stopped else s
  | none => s

/-- The queue entries that satisfy `p` are removed and told to their links from the head of the queue on (log entry 64). -/
def State.withdrawQueued (s : State) (p : Request → Bool) : State :=
  (s.chime.queue.filter p).foldl (fun s r => s.requestEnded r .notPlayed)
    (s.withChime { s.chime with queue := s.chime.queue.filter fun r => !p r })

/-- Every voice that satisfies `v`, and every request that satisfies `r`, is stopped or withdrawn: first the voices in ascending
order, then the queue entries, then the reservations by ascending voice (log entry 64). -/
def State.stopWhere (s : State) (v : Voice → Bool) (r : Request → Bool) (cause : EndCause) : State :=
  let s := voiceNumbers.foldl (fun s n => if v (s.voice n.val) then s.stopVoice n cause else s) s
  voiceNumbers.foldl (fun s n => s.cancelSuccessor r n) (s.withdrawQueued r)

/-- Operand: index. -/
def chimeStopBody (b : List Byte) (s : State) : Reply × State :=
  let d := u8 b 0
  if 31 < d then answer .badOperand s
  else if s.chime.inUse d then
    answer .done (s.stopWhere (fun v => v.desc = some d) (fun r => r.desc == d) .stopped)
  else answer .noSuch s

def execChimeStop (l : Link) (f : Frame) (s : State) : Result := order l f byCockpitBody (operands 1 f) chimeStopBody s

def chimeStopAllBody (_ : List Byte) (s : State) : Reply × State :=
  answer .done (s.stopWhere (fun _ => true) (fun _ => true) .stopped)

def execChimeStopAll (l : Link) (f : Frame) (s : State) : Result :=
  order l f byCockpitBody (operands 0 f) chimeStopAllBody s

/-! ## CHIME_RENEW (R163) -/

/-- The deadlines of the voices that play `d` moved to `t`. -/
def Chime.renew (c : Chime) (d : Nat) (t : Option Time) : Chime :=
  { c with voices := c.voices.map fun v => if v.plays d then { v with deadline := t } else v }

/-- Operand: index. -/
def chimeRenewBody (b : List Byte) (s : State) : Reply × State :=
  let d := u8 b 0
  if 31 < d then answer .badOperand s
  else if s.chime.voices.any fun v => v.plays d then
    match (s.desc d).bind fun x => x.mode.deadline s.clock.now with
    | some t => answer .done (s.withChime (s.chime.renew d (some t)))
    | none => answer .badOperand s
  else if (s.chime.queue.any fun r => r.desc == d) || s.chime.voices.any fun v => v.reserves d then answer .done s
  else answer .noSuch s

def execChimeRenew (l : Link) (f : Frame) (s : State) : Result := order l f byCockpitBody (operands 1 f) chimeRenewBody s

/-! ## CHIME_READ (R166, log entry 40) -/

/-- The repeat mode with its parameter, as section 12.2 codes them, and 0 as the parameter of ONCE (log entry 40). -/
def RepeatMode.bytes : RepeatMode → List Byte
  | .once => 0 :: be2 0
  | .count n => 1 :: be2 n
  | .untilStop ms => 2 :: be2 ms
  | .chain none => 3 :: be2 255
  | .chain (some i) => 3 :: be2 i

/-- Every field of R153, those of a descriptor that is not defined marked absent, and whether it is in use. -/
def descriptorBytes (d : Option Descriptor) (used : Bool) : List Byte :=
  let field (n : Nat) (f : Descriptor → List Byte) : List Byte := optional n (d.map f)
  [flag d.isSome] ++ field 1 (fun x => [flag x.valid]) ++ field 4 (fun x => be4 x.start.toNat) ++ field 4 (fun x => be4 x.length)
    ++ field 3 (fun x => x.mode.bytes) ++ field 2 (fun x => be2 x.gap) ++ field 1 (fun x => [byteOf x.priority])
    ++ field 1 (fun x => [byteOf x.zones.toNat])
    ++ field 2 (fun x => beInt 2 x.level) ++ field 2 (fun x => beInt 2 x.duck)
    ++ field 1 (fun x => [byteOf (Link.code x.definer)]) ++ [flag used]

/-- The word that holds a voice's next sample, absent where it has no descriptor. -/
def State.voiceAddress (s : State) (v : Voice) : Option Nat :=
  (v.desc.bind s.desc).map fun d => d.start.toNat + v.position / 2

def Request.bytes (r : Request) : List Byte := [byteOf r.desc, byteOf (Link.code r.link)]

/-- The fields of a voice record that R166 names; the time left before the deadline in milliseconds. -/
def State.voiceBytes (s : State) (v : Voice) : List Byte :=
  [byteOf v.state.code] ++ optByte v.desc ++ opt4 (s.voiceAddress v) ++ be4 v.remaining ++ optByte v.repeats ++ be2 v.gapLeft
    ++ [flag v.restart] ++ opt2 (v.deadline.map fun t => inMilliseconds (t - s.clock.now))
    ++ optByte (v.starter.map Link.code) ++ be4 v.number ++ optByte (v.cause.map EndCause.code)
    ++ optional 2 (v.successor.map Request.bytes)

/-- Operands: selector, index. -/
def chimeReadBody (b : List Byte) (s : State) : Reply × State :=
  match u8 b 0, u8 b 1 with
  | 0, i => if i ≤ 31 then (.answer (descriptorBytes (s.desc i) (s.chime.inUse i)), s) else answer .badOperand s
  | 1, i => if i ≤ 3 then (.answer (s.voiceBytes (s.voice i)), s) else answer .badOperand s
  | _, _ => answer .badOperand s

def execChimeRead (l : Link) (f : Frame) (s : State) : Result := order l f byCockpitBody (operands 2 f) chimeReadBody s

/-! ## The events of the voices -/

def execVoicePlayEnd (v : Fin 4) (s : State) : Result := event (fun s => s.playEnded v) s

def execGapEnd (v : Fin 4) (s : State) : Result := event (fun s => s.gapOver v) s

def execDeadlineExpiry (v : Fin 4) (s : State) : Result := event (fun s => s.deadlinePassed v) s

def execVoiceIdle (v : Fin 4) (s : State) : Result := event (fun s => s.reachIdle v) s

end Sys2Proof.Machine
end

