-- ==== Sys2Proof/Machine/Stores.lean ====
section
/-! DEFINITION. The orders of the Sample Store: the bounds, the rights and the transfer channels, and the bulk class of its
arbiter (chapter 9). -/

namespace Sys2Proof.Machine

/-! ## REGION_SET (R171, R172) -/

/-- A region's extent under bounds `u0`, `u1` differs from the present one. -/
def Store.extentChanges (st : Store) (u0 u1 : Nat) : Region → Bool
  | .chime => u0 != st.u0
  | .clip => u0 != st.u0 || u1 != st.u1
  | .shift => u1 != st.u1

/-- A region whose extent would change contains the range. -/
def Store.disturbs (st : Store) (u0 u1 a b : Nat) : Bool :=
  [Region.chime, .clip, .shift].any fun r => st.extentChanges u0 u1 r && st.inRegion a b r

/-- The sample ranges of the voices that are not IDLE. -/
def State.voiceRanges (s : State) : List (Nat × Nat) :=
  s.chime.voices.filterMap fun v => if v.state = .idle then none else (v.desc.bind s.desc).map Descriptor.range

/-- The ranges of the open transfer channels. -/
def Store.channelRanges (st : Store) : List (Nat × Nat) :=
  Link.every.filterMap fun l => (st.channels.get l).map Channel.range

/-- The descriptor becomes invalid under the store's new bounds. -/
def Store.outlaws (st : Store) (d : Option Descriptor) : Bool :=
  match d with
  | some x => x.valid && (st.soundRegion x.range.1 x.range.2).isNone
  | none => false

/-- A descriptor under the store's new bounds: every other field is kept (R153). -/
def Store.settle (st : Store) (d : Option Descriptor) : Option Descriptor :=
  if st.outlaws d then d.map (fun x => { x with valid := false }) else d

/-- The set of indices, among those just invalidated, that a link defined. -/
def lostBy (st : Store) (descs : List (Option Descriptor)) (l : Link) : BitVec 32 :=
  BitVec.ofNat 32 ((descs.zipIdx.filterMap fun (d, i) =>
    match d with
    | some x => if st.outlaws d && x.definer = l then some (2 ^ i) else none
    | none => none).foldl (· + ·) 0)

/-- A REGION_SET that has passed its checks. DESCRIPTOR_INVALIDATED joins COCKPIT's list before SHIFT_DISCARDED (log entry 68). -/
def State.moveBounds (s : State) (u0 u1 : Nat) : Reply × State :=
  let st := { s.store with u0 := u0, u1 := u1 }
  let descs := s.chime.descs
  let gone := (descs.filter st.outlaws).length
  let t := s.withStore st
  let t := t.withChime { t.chime with descs := descs.map st.settle }
  let t := Link.every.foldl (fun t l =>
    if lostBy st descs l = 0 then t else t.advise l (.descriptorInvalidated (lostBy st descs l))) t
  (.answer [byteOf gone], if u1 ≠ s.store.u1 then t.discard .region else t)

/-- Operands: U0, U1. -/
def regionSetBody (b : List Byte) (s : State) : Reply × State :=
  let u0 := u16 b 0
  let u1 := u16 b 2
  if s.store.initialising then answer .notReady s
  else if u1 < u0 ∨ 256 < u1 then answer .badOperand s
  else if s.voiceRanges.any fun r => s.store.disturbs u0 u1 r.1 r.2 then answer .inUse s
  else if s.store.channelRanges.any fun r => s.store.disturbs u0 u1 r.1 r.2 then answer .inUse s
  else s.moveBounds u0 u1

def execRegionSet (l : Link) (f : Frame) (s : State) : Result := order l f byCockpit (operands 4 f) regionSetBody s

/-! ## RIGHTS_SET (R173) -/

def Store.setRight (st : Store) (r : Region) (l : Link) (x : Right) : Store :=
  match r with
  | .chime => { st with chimeRights := st.chimeRights.set l x }
  | .clip => { st with clipRights := st.clipRights.set l x }
  | .shift => { st with shiftRights := st.shiftRights.set l x }

/-- Operands: region, link, read, write. -/
def rightsSetBody (b : List Byte) (s : State) : Reply × State :=
  match regionOf (u8 b 0), linkOf (u8 b 1), onOff (u8 b 2), onOff (u8 b 3) with
  | some r, some l, some read, some write =>
    if r = .shift && write then answer .badOperand s
    else answer .done (s.withStore (s.store.setRight r l ⟨read, write⟩))
  | _, _, _, _ => answer .badOperand s

def execRightsSet (l : Link) (f : Frame) (s : State) : Result := order l f byCockpit (operands 4 f) rightsSetBody s

/-! ## STORE_OPEN (R174) -/

/-- The direction WRITE (0) or READ (1), as whether it is WRITE. -/
def writesOf : Nat → Option Bool
  | 0 => some true
  | 1 => some false
  | _ => none

/-- The link holds the right that a direction needs on a region. -/
def Store.permits (st : Store) (l : Link) (write : Bool) (r : Region) : Bool :=
  if write then ((st.rights r).get l).write else ((st.rights r).get l).read

def openChannel (write : Bool) (base count : Nat) : Channel :=
  { write := write, base := BitVec.ofNat 24 base, current := BitVec.ofNat 24 base, count := count, remaining := count }

/-- Operands: direction, base, count. -/
def storeOpenBody (l : Link) (b : List Byte) (s : State) : Reply × State :=
  let base := u32 b 1
  let count := u32 b 5
  if s.store.initialising then answer .notReady s
  else
    match writesOf (u8 b 0) with
    | none => answer .badOperand s
    | some write =>
      if count = 0 ∨ 262144 < count ∨ 16777216 < base + count then answer .badOperand s
      else if (s.channel l).isSome then answer .inUse s
      else
        match s.store.regionOf base (base + count) with
        | none => answer .notPermitted s
        | some r =>
          if !s.store.permits l write r then answer .notPermitted s
          else if write && s.voiceRanges.any fun v => overlap base (base + count) v.1 v.2 then answer .inUse s
          else answer .done (s.setChannel l (some (openChannel write base count)))

def execStoreOpen (l : Link) (f : Frame) (s : State) : Result := order l f byAll (operands 9 f) (storeOpenBody l) s

/-! ## The bulk class (R178) -/

/-- The words written from `a` onward, in order. -/
def Store.writeAll (st : Store) (a : Addr) : List Word → Store
  | [] => st
  | w :: ws => Store.writeAll (st.write a w) (a + 1) ws

/-- `n` words from `a` onward. -/
def Store.readAll (st : Store) (a : Addr) (n : Nat) : List Word :=
  (List.range n).map fun i => st.read (a + BitVec.ofNat 24 i)

def nextLink : Link → Link
  | .cockpit => .telephony | .telephony => .rear | .rear => .body | .body => .cockpit

def State.waiting (s : State) (l : Link) : Option Transfer := s.store.waiting.get l

def State.setWaiting (s : State) (l : Link) (x : Option Transfer) : State :=
  s.withStore { s.store with waiting := s.store.waiting.set l x }

/-- The channel after `n` words have moved; at 0 remaining it closes (R176). -/
def Channel.moved (c : Channel) (n : Nat) : Option Channel :=
  if c.remaining = n then none
  else some { c with current := c.current + BitVec.ofNat 24 n, remaining := c.remaining - n }

/-- The transfer after a burst of `n` words, those read being `ws`. -/
def Transfer.moved (x : Transfer) (n : Nat) (ws : List Word) : Transfer :=
  { words := x.words.drop n, left := x.left - n, got := x.got ++ ws }

/-- The words that a READ has read join the reply under way on its link. -/
def State.deliver (s : State) (l : Link) (ws : List Word) : State :=
  match (s.link l).slot with
  | .pending r => s.setSlot l (.pending { r with results := ws.flatMap wordBytes })
  | .held _ => s

/-- One burst of up to 32 words of link `l`, in address order: the link's channel `c` moves on, the pointer names the link after it,
and, no stream request standing at a bulk turn, those posted are served (R177). At the end of the transfer `x` the reply has its
words, and a channel that has closed offers TRANSFER_DONE (R176). -/
def State.burst (s : State) (l : Link) (c : Channel) (x : Transfer) : State :=
  let n := min 32 x.left
  let st := if c.write then s.store.writeAll c.current (x.words.take n) else s.store
  let y := x.moved n (if c.write then [] else s.store.readAll c.current n)
  let t := s.withStore { st with pointer := nextLink l, posted := List.replicate 6 none }
  let t := (t.setChannel l (c.moved n)).setWaiting l (if y.left = 0 then none else some y)
  let t := if y.left = 0 && !c.write then t.deliver l y.got else t
  if c.remaining = n then t.notice l 13 else t

/-- The first link at or after the pointer that has words waiting (R178). -/
def State.bulkLink (s : State) : Option Link :=
  let p := s.store.pointer
  [p, nextLink p, nextLink (nextLink p), nextLink (nextLink (nextLink p))].find? fun l => (s.waiting l).isSome

/-- One bulk turn. -/
def State.bulkTurn (s : State) : State :=
  match s.bulkLink with
  | none => s
  | some l =>
    match s.channel l, s.waiting l with
    | some c, some x => s.burst l c x
    | _, _ => s.setWaiting l none

/-- At most `n` bulk turns, as long as link `l` has words waiting. -/
def State.bulkTurns (l : Link) : Nat → State → State
  | 0, s => s
  | n + 1, s => if (s.waiting l).isSome then State.bulkTurns l n s.bulkTurn else s

/-- As many bulk turns as all the words waiting can need. -/
def State.turnsNeeded (s : State) : Nat :=
  (Link.every.map fun l => match s.waiting l with | some x => x.left + 1 | none => 0).sum

/-- Bulk turns until link `l` has no words waiting (log entry 28). -/
def State.moveAll (s : State) (l : Link) : State := State.bulkTurns l s.turnsNeeded s

/-! ## STORE_DATA (R175) -/

/-- A STORE_DATA that takes `n` words, in DONE with their number: they wait for the bulk class, and 0 words are moved at once. -/
def State.awaitWords (s : State) (l : Link) (ws : List Word) (n : Nat) : Reply × State :=
  ({ status := .done, length := n, results := [] },
    if n = 0 then s else s.setWaiting l (some { words := ws, left := n, got := [] }))

def storeDataBody (l : Link) (form : DataForm) (s : State) : Reply × State :=
  if s.store.initialising then answer .notReady s
  else
    match s.channel l with
    | none => answer .noSuch s
    | some c =>
      match form, c.write with
      | .write ws, true => s.awaitWords l (ws.take c.remaining) (min ws.length c.remaining)
      | .read wanted, false => s.awaitWords l [] (min wanted c.remaining)
      | _, _ => answer .badOperand s

def execStoreData (l : Link) (f : Frame) (s : State) : Result := order l f byAll (dataOperands f) (storeDataBody l) s

/-! ## STORE_CLOSE (R176) -/

def storeCloseBody (l : Link) (_ : List Byte) (s : State) : Reply × State :=
  if s.store.initialising then answer .notReady s
  else
    match s.channel l with
    | none => answer .noSuch s
    | some c => (.answer (be4 c.remaining), s.setChannel l none)

def execStoreClose (l : Link) (f : Frame) (s : State) : Result := order l f byAll (operands 0 f) (storeCloseBody l) s

end Sys2Proof.Machine
end

