-- ==== Sys2Proof/Machine/FrameEvent.lean ====
section
/-! DEFINITION. FRAME_EVENT (R2, R48): what every source delivers, the mix, Shift Buffer capture and replay, the call's microphones,
reference and canceller, and the voices' progress. -/

namespace Sys2Proof.Machine

/-! ## Boundaries still due (log entry 9) -/

/-- One event that the last frame event made due, with the edges it causes. -/
def settled (f : State → State) (s : State) : State := State.offerEdges s (f s)

/-- The events that the last frame event made due and that no command has taken yet. The window is judged first: its 8,000th sample
is inside the frame, before what the frame's end brings (R131). -/
def State.settleDue (s : State) : State :=
  let s := settled State.windowJudged s
  let s := (List.range 20).foldl (fun s k =>
    settled (fun s => s.fadeInEnd k) (settled (fun s => s.fadeOutEnd k) (settled (fun s => s.releaseGuard k) s))) s
  let s := settled State.memoReplayEnded (settled State.replayDrained s)
  let s := voiceNumbers.foldl (fun s n => settled (fun s => s.gapOver n) (settled (fun s => s.playEnded n) s)) s
  voiceNumbers.foldl (fun s n => settled (fun s => s.reachIdle n) s) s

/-! ## Shift Buffer (R102, R103) -/

/-- The word after `a` in the ring of the SHIFT region. -/
def Store.ringNext (st : Store) (a : Addr) : Addr := if a = 16777215 then st.shiftFirst else a + 1

def Store.ringSkip (st : Store) : Nat → Addr → Addr
  | 0, a => a
  | n + 1, a => Store.ringSkip st n (st.ringNext a)

/-- The `n` words from `a` onward around the ring. -/
def Store.ringRead (st : Store) : Nat → Addr → List Word
  | 0, _ => []
  | n + 1, a => st.read a :: Store.ringRead st n (st.ringNext a)

/-- The SHIFT source replays in this state. -/
def ShiftBuffer.replaying (b : ShiftBuffer) : Bool := b.state = .replay || b.state = .memoReplay

/-- The words that the SHIFT source delivers at a frame event. -/
def State.replayWords (s : State) : List Word :=
  if s.shift.replaying then s.store.ringRead (min 48 s.shift.fill) (s.shift.replay.getD s.store.shiftFirst) else []

/-- The replay position and fill after those words, and the report that the fill has reached 0. -/
def State.afterReplay (s : State) : State :=
  if s.shift.replaying then
    let n := min 48 s.shift.fill
    s.withShift
      { s.shift with replay := s.shift.replay.map (s.store.ringSkip n), fill := s.shift.fill - n,
                     drained := s.shift.fill == n }
  else s

/-- One word recorded at W: it overwrites the oldest word of a full ring, and the first time that happens the wrapped flag is set
and SHIFT_WRAPPED rises. -/
def State.record (s : State) (w : Word) : State :=
  let a := s.shift.write.getD s.store.shiftFirst
  let b := { s.shift with write := some (s.store.ringNext a) }
  let t := s.withStore (s.store.write a w)
  if s.shift.fill < s.store.shiftSize then t.withShift { b with fill := b.fill + 1 }
  else
    let t := t.withShift { b with replay := b.replay.map s.store.ringNext, wrapped := true }
    if s.shift.wrapped then t else t.riseAll 4

/-- The word of a captured pair (R102). -/
def shiftWord (p : Int × Int) : Word := packPair (round16 p.1) (round16 p.2)

/-- Capture at a frame event, from the pairs that the captured source delivers. -/
def State.capture (s : State) (offers : Offers) : State :=
  if s.shift.running then
    match s.shift.captured with
    | some t => ((offers (sourceOfTuner t)).map shiftWord).foldl State.record s
    | none => s
  else s

/-! ## What the sources deliver (R13, R14) -/

def silentPairs : List (Int × Int) := List.replicate 48 (0, 0)

/-- One demodulated pair as it is heard: blended on FM (R71), mono on MW (R67), where the pair's first sample is the demodulator's
(log entry 57), and zero while the demodulator output is zero (R70). -/
def heardPair : Option Heard → WireSample × WireSample → Int × Int
  | none, _ => (0, 0)
  | some ⟨.fm, sep⟩, p => blend sep p.1.toInt p.2.toInt
  | some ⟨.mw, _⟩, p => (p.1.toInt, p.1.toInt)

/-- A tuner's output over the 48 sample periods of a frame. -/
def tunerOutput (heard : List (Option Heard)) (demod : List (WireSample × WireSample)) : List (Int × Int) :=
  List.zipWith heardPair (fit 48 none heard) (fit 48 (0, 0) demod)

/-- How many samples a voice delivers at a frame event (R156). -/
def Voice.due (v : Voice) : Nat := if v.state = .playing ∨ v.state = .stopping then min 48 v.remaining else 0

/-- Sample `i` of a sound that starts at word `start` (R153). -/
def Store.sample (st : Store) (start : Addr) (i : Nat) : Int :=
  let w := st.read (start + BitVec.ofNat 24 (i / 2))
  if i % 2 = 0 then upper w else lower w

/-- The samples a voice delivers, widened; the rest of the frame is zero. -/
def State.voiceSamples (s : State) (v : Voice) : List Int :=
  match v.desc.bind s.desc with
  | some d => (List.range v.due).map fun i => widen (s.store.sample d.start (v.position + i))
  | none => []

def mono (xs : List Int) : List (Int × Int) := xs.map fun x => (x, x)

/-- The 48 pairs that each source hands over at this frame event. -/
def State.offers (s : State) (x : FrameInput) : Offers
  | .tunerA => tunerOutput s.ports.t0 x.demodA
  | .tunerB => tunerOutput s.ports.t1 x.demodB
  | .mediaFront => s.ports.p0.delivered.map fun set => (set.getD 0 0, set.getD 1 0)
  | .mediaRear => s.ports.p1.delivered.map fun set => (set.getD 0 0, set.getD 1 0)
  | .nav => mono (s.ports.p0.delivered.map fun set => set.getD 2 0)
  | .callDown => mono (s.ports.p2.delivered.map fun set => set.getD 0 0)
  | .voice n => mono (s.voiceSamples (s.voice n.val))
  | .shift => s.replayWords.map fun w => (widen (upper w), widen (lower w))
  | .silence => silentPairs

/-! ## The call (R123, R126 to R128, R146) -/

/-- The reference samples of a frame, from the outputs of the sinks of the reference set (R127). -/
def referenceOf (outputs : List (List Int)) : List Int :=
  let c : Int := outputs.length
  let total := outputs.foldl (fun acc o => List.zipWith (· + ·) acc o) silentFrame
  let means := total.map fun x => if c = 0 then 0 else x / c
  (List.range 16).map fun j => round16 ((means.getD (3 * j) 0 + means.getD (3 * j + 1) 0 + means.getD (3 * j + 2) 0) / 3)

def State.reference (s : State) : List Int :=
  referenceOf ((sinksOf s.call.refZones).map fun k => (s.sink k).computed)

/-- The 16 samples of a cabin microphone (R6). At the first frame event, which is due at the entry of RUN with no sample period
before it, these too are the 16 that FRAME_EVENT brings, which R6 leaves open (log entry 63). -/
def FrameInput.mic (x : FrameInput) (n : Nat) : List Int := (fit 16 0 (x.mics.getD n [])).map fun ones => micSample ones.val

/-- The 16 samples of a station's headset microphone, zero unless it has been sampled since the last frame event (R146). -/
def State.jackMic (s : State) (x : FrameInput) (st : StationId) : List Int :=
  if (s.station st).sampling && (s.station st).jack = .headset then
    (fit 16 0 (x.jacks.getD (match st with | .one => 0 | .two => 1) [])).map BitVec.toInt
  else List.replicate 16 0

def State.micSamples (s : State) (x : FrameInput) : Mic → List Int
  | .cabin n => FrameInput.mic x n.val
  | .jack st => s.jackMic x st

/-- The canceller's work of a frame, and the 16 uplink samples (R126, R128). -/
def State.cancel (s : State) (x : FrameInput) : State :=
  let c := s.call
  if c.state = .active && c.echo.state ≠ .off then
    let (up, e) := c.echo.samples (c.mutes != 0) s.reference (s.micSamples x c.mic)
    s.withCall { c with uplink := up, echo := e }
  else s.withCall { c with uplink := List.replicate 16 0 }

/-- The uplink handed to the Port Block, kept while P2's tracker holds its port (R5, R11). A frame's 16 samples enter the output
buffer together, at its frame event (log entry 58). -/
def State.handUplink (s : State) : State :=
  if s.ports.p2.holding then
    s.withPorts { s.ports with uplink := s.call.uplink.foldl (fun c u => c.push [u]) s.ports.uplink }
  else s

/-- The sums of squares of the last 1,024 samples of each microphone (R123). -/
def Call.sums (c : Call) : List Int := c.recent.map sumSquares

/-- The conference choice considered, the hold standing at 3,200: the lowest-numbered of the loudest, unless the present choice is
among them. -/
def Call.loudest (c : Call) : Fin 4 :=
  let top := maxOf c.sums
  if c.sums.getD c.choice.val 0 = top then c.choice
  else (voiceNumbers.find? fun n => c.sums.getD n.val 0 == top).getD c.choice

/-- Conference selection at a frame event. A switch does not reset the canceller. -/
def State.conference (s : State) (x : FrameInput) : State :=
  let c := s.call
  if c.mode ≠ .conference then s
  else
    let recent := c.recent.zipIdx.map fun (r, n) => ((FrameInput.mic x n).reverse ++ r).take 1024
    let c := { c with recent := recent, hold := min 3200 (c.hold + 16) }
    let c := if c.hold < 3200 || c.loudest = c.choice then c else { c with choice := c.loudest, hold := 0 }
    let s := s.withCall c
    s.withCall { s.call with mic := s.micChoice }

/-! ## The voices (R156, R158) -/

/-- A contribution of handle `h` stands below 360 on some sink; tails count (log entry 38). -/
def State.sounds (s : State) (h : Nat) : Bool :=
  s.mix.sinks.any fun x => x.list.any fun c => c.origin = .handle h && decide (c.applied < 360)

/-- A voice after a frame event: its samples delivered, its gap counted, and, in STOPPING, the Mix Engine's report. -/
def Voice.framed (v : Voice) (sounds : Bool) : Voice :=
  match v.state with
  | .idle => v
  | .playing => { v with position := v.position + v.due, remaining := v.remaining - v.due }
  | .gap => { v with gapLeft := v.gapLeft - 1 }
  | .stopping => { v with position := v.position + v.due, remaining := v.remaining - v.due, faded := !sounds }

def State.frameVoices (s : State) : State :=
  s.withChime { s.chime with voices := s.chime.voices.zipIdx.map fun (v, n) => v.framed (s.sounds (voiceHandle n)) }

/-! ## The frame event -/

/-- The stream requests posted at a frame event, those before it having been served (R177). -/
def State.postStreams (s : State) : State :=
  let s := s.withStore { s.store with posted := List.replicate 6 none }
  voiceNumbers.foldl (fun s n => s.postVoice n) ((s.setPosted 0 s.shift.running).postReplay)

/-- The next frame begins: its sample periods are counted from 0, and what the ports have delivered is handed over. -/
def State.nextFrame (s : State) : State :=
  let x := s.ports
  let s := s.withPorts
    { x with p0 := { x.p0 with delivered := [] }, p1 := { x.p1 with delivered := [] }, p2 := { x.p2 with delivered := [] },
             t0 := [], t1 := [] }
  (s.withClock { s.clock with frameDue := s.clock.frameDue + 48 * samplePeriod, periods := 0 }).clearFast

/-- The sampling of the headset microphones from this frame event on (R146). -/
def State.startSampling (s : State) : State :=
  let f := fun x : Station => { x with sampling := decide (x.jack = .headset) }
  s.withStations { s.stations with one := f s.stations.one, two := f s.stations.two }

/-- The work of a frame event, the frame's sample periods having passed. -/
def State.frame (s : State) (x : FrameInput) : State :=
  let offers := s.offers x
  let s := s.mixFrame offers
  let s := s.afterReplay.capture offers
  let s := s.withCall { s.call with refZones := s.table.basedZones callHandle }
  let s := ((s.cancel x).handUplink.conference x).startSampling
  s.frameVoices.postStreams.nextFrame

/-- FRAME_EVENT. There are none outside RUN (R2). -/
def State.frameEvent (s : State) (x : FrameInput) : State :=
  if s.power.state ≠ .run then s
  else
    let s := s.settleDue
    (s.reach s.clock.frameDue).frame x

def execFrameEvent (x : FrameInput) (s : State) : Result := event (fun s => s.frameEvent x) s

end Sys2Proof.Machine
end

