-- ==== Sys2Proof/Machine/Powers.lean ====
section
/-! DEFINITION. Power Control's orders and events (chapter 11), power-on, and the two resets (R192, R193) with each block's part in
them. -/

namespace Sys2Proof.Machine

/-! ## POWER and WAKE_SET (R195, R196) -/

/-- A move between QUIET and SLEEP: the refresh timer and a refresh sweep (R197). -/
def State.moveParked (s : State) (st : PowerState) : State :=
  let t := s.withPower { s.power with state := st }
  if st = .quiet then t.startTimer
  else ((if t.tunB.state = .refresh then t.enterB .off none else t).stopTimer).reassess

/-- The hub enters a state other than the present one by POWER. -/
def State.moveTo (s : State) (st : PowerState) : State :=
  if st = .run then s.enterRun .power
  else if s.power.state = .run then s.leaveRun st
  else s.moveParked st

/-- Operand: state. -/
def powerBody (b : List Byte) (s : State) : Reply × State :=
  if s.store.initialising then answer .notReady s
  else
    match powerOf (u8 b 0) with
    | none => answer .badOperand s
    | some st =>
      if st ≠ .run ∧ s.call.state ≠ .idle then answer .inUse s
      else if st = s.power.state then answer .done s
      else answer .done (s.moveTo st)

def execPower (l : Link) (f : Frame) (s : State) : Result := order l f byCockpitBody (operands 1 f) powerBody s

/-- Operands: ignition, chime, jack, call, interval in minutes. -/
def wakeSetBody (b : List Byte) (s : State) : Reply × State :=
  match onOff (u8 b 0), onOff (u8 b 1), onOff (u8 b 2), onOff (u8 b 3) with
  | some ignition, some chime, some jack, some call =>
    answer .done (s.withPower
      { s.power with wakeIgnition := ignition, wakeChime := chime, wakeJack := jack, wakeCall := call,
                     interval := clampNat 1 240 (u16 b 4) })
  | _, _, _, _ => answer .badOperand s

def execWakeSet (l : Link) (f : Frame) (s : State) : Result := order l f byCockpit (operands 6 f) wakeSetBody s

/-! ## Start-up and the events of Power Control -/

/-- Power-on: every block takes its power-on values and the fill begins (R179, R198). The commands still waiting in the model's
queue are what the outside world sends next, so they stay. -/
def execPowerOn (ignition jack1 jack2 : Bool) (s : State) : Result :=
  .next ((State.powerOn ignition jack1 jack2).withPending s.pending)

/-- The ignition sense is high at the moment reached (R196, log entry 23). -/
def State.ignitionHigh (s : State) : Bool :=
  match s.power.ignition with
  | .low => false
  | .high none => true
  | .high (some t) => decide (s.clock.now < t)

/-- The 40 ms fill ends: the hub is placed in SLEEP, and enters RUN if the ignition is high and its enable on (R198). -/
def State.filled (s : State) : State :=
  if s.store.initialising then
    let s := s.reach (s.store.initAt + milliseconds 40)
    let s := s.withStore { s.store with initialising := false }
    let s := s.withPower { s.power with state := .sleep }
    s.wake (s.ignitionHigh && s.power.wakeIgnition) .ignition
  else s

def execStoreReady (s : State) : Result := event State.filled s

/-- The ignition sense rises (R196). -/
def State.ignitionRose (s : State) : State :=
  let s := s.withPower { s.power with ignition := highFrom s.clock.now }
  s.wake s.power.wakeIgnition .ignition

def execIgnitionRise (s : State) : Result := event State.ignitionRose s

/-- The refresh timer expires in QUIET: Tuner B enters REFRESH, and the timer stops (R93, R197). -/
def State.refreshDue (s : State) : State :=
  match s.power.timer with
  | some (t, m) =>
    if s.power.state = .quiet then
      let s := (s.reach (t + minutes m)).stopTimer
      if s.tunB.state = .refresh then s else s.startSweep .refresh
    else s
  | none => s

def execRefreshTimerExpiry (s : State) : Result := event State.refreshDue s

/-! ## LINK_RESET (R192) -/

/-- The Link Block's part: enables, latch and advisories emptied, the restart flag cleared. -/
def LinkState.cleared (x : LinkState) (restart : Bool) : LinkState :=
  { x with riseEnable := 0, fallEnable := 0, riseLatch := 0, fallLatch := 0, advisories := [], restart := restart }

/-- Every claim of a link removed (R38). -/
def ClaimTable.without (t : ClaimTable) (l : Link) : ClaimTable :=
  { t with entries := t.entries.map fun e =>
      match e with
      | some c => if c.claimant = .link l then none else some c
      | none => none }

/-- The link leaves every mute set and the mic mute set (R65, R135). -/
def State.unmuteAll (s : State) (l : Link) : State :=
  let s := s.withMix { s.mix with mutes := s.mix.mutes.map fun m => dropLink m l }
  s.withCall { s.call with mutes := dropLink s.call.mutes l }

/-- The link's chimes go STOPPING, and its requests are withdrawn (R168). -/
def State.resetChimes (s : State) (l : Link) : State :=
  s.stopWhere (fun v => v.starter = some l) (fun r => r.link = l) .reset

/-- What only TELEPHONY or REAR has in the hub (R135, R151). -/
def State.resetOwn (s : State) : Link → State
  | .telephony => if s.call.state = .idle then s else s.enterCall .idle
  | .rear => s.endHolding
  | .cockpit | .body => s

def State.resetLink (s : State) (l : Link) : State :=
  let s := s.setLink l ((s.link l).cleared false)
  let s := (s.withTable (s.table.without l)).tableChanged
  let s := (s.unmuteAll l).setChannel l none
  (s.resetChimes l).resetOwn l

def linkResetBody (l : Link) (_ : List Byte) (s : State) : Reply × State := answer .done (s.resetLink l)

def execLinkReset (l : Link) (f : Frame) (s : State) : Result := order l f byAll (operands 0 f) (linkResetBody l) s

/-! ## HUB_RESET (R193) -/

def PerLink.map {α β : Type} (f : α → β) (p : PerLink α) : PerLink β :=
  ⟨f p.cockpit, f p.telephony, f p.rear, f p.body⟩

/-- A station record and its jack monitor (R137, R150): a jack sensed INSERTED is measured afresh and keeps its class. -/
def Station.resetAt (x : Station) (now : Time) : Station :=
  { x with source := .mediaRear, volume := 96, swap := false, graceAt := none,
           jack := if x.inserted then x.jack else .vacant,
           measuring := x.inserted, measureAt := if x.inserted then now else x.measureAt }

/-- The Chime Player keeps its table and start counter (R167). -/
def Chime.cleared (c : Chime) : Chime :=
  { c with voices := c.voices.map Voice.idled, queue := [], ended := .all none }

/-- The store keeps its contents, bounds, rights and pointer (R180). -/
def Store.closed (st : Store) : Store :=
  { st with channels := .all none, waiting := .all none, posted := List.replicate 6 none }

/-- The words of every STORE_DATA taken before are moved (R180, R193: those orders' replies go out as usual). -/
def State.finishTransfers (s : State) : State := Link.every.foldl (fun s l => s.moveAll l) s

/-- Power Control keeps its state and last entry cause (R198); in QUIET the timer starts again with the default interval. -/
def Power.reset (p : Power) (now : Time) : Power :=
  { p with wakeIgnition := true, wakeChime := true, wakeJack := true, wakeCall := true, interval := 15,
           timer := if p.state = .quiet then some (now, 15) else none }

/-- The Tuner Controller before its tuners are set going again (R94). -/
def State.resetTuners (s : State) : State :=
  let s := s.withRadio { s.radio with scan := true, rearFirst := false, afOn := true, afThreshold := 35 }
  let a := { s.tunA with cursor := none, low := 0 }
  let s := s.withTunA (if s.power.state = .run then { a with rx := { a.rx with freq := a.resting } } else a.rest)
  let s := s.setHolder none
  if s.power.state = .run then s else s.enterB .off none

/-- Tuner A is tuned again and Tuner B takes its assignment, in RUN (R94). -/
def State.restartTuners (s : State) : State :=
  if s.power.state = .run then s.retuneA s.tunA.rx.freq (.hubReset, .resumed) else s.reassess

def State.resetHub (s : State) : State :=
  let s := s.finishTransfers
  let s := s.withLinks (s.links.map fun x => x.cleared true)
  let s := s.withTable { s.table with entries := List.replicate 16 none }
  let s := s.withMix Mix.fresh
  let s := (s.withTraffic Traffic.fresh).withShift .off
  let s := s.withCall Call.fresh
  let s := s.withStations { one := s.stations.one.resetAt s.clock.now, two := s.stations.two.resetAt s.clock.now, cap := 48,
                            lock := false }
  let s := (s.withChime s.chime.cleared).withStore s.store.closed
  let s := s.withPower (s.power.reset s.clock.now)
  s.resetTuners.restartTuners

def hubResetBody (_ : List Byte) (s : State) : Reply × State := answer .done s.resetHub

def execHubReset (l : Link) (f : Frame) (s : State) : Result := order l f byCockpit (operands 0 f) hubResetBody s

end Sys2Proof.Machine
end

