-- ==== Sys2Proof/Machine/Outputs.lean ====
section
/-! DEFINITION. What the hub drives at its output pins: the slots of the ports Q0 and Q1 in each sample period (R17), the amplifier
enable (R194) and the attention lines (R188). -/

namespace Sys2Proof.Machine

/-- The amplifier enable is asserted in RUN alone (R194). -/
def State.amplifierEnable (s : State) : Bool := s.power.state = .run

/-- The 32 bits in which an output slot carries sample `i` of the frame that sink `k` is sending: a 24-bit sample and 8 zero bits in
RUN, and zero outside RUN (R2, R17). -/
def State.outputSlot (s : State) (i k : Nat) : Word :=
  if s.power.state = .run then slotOf ((s.sink k).sending.getD i 0) else 0

/-- The Amplifier port in sample period `i` of a frame: slot n carries sink n (R17). -/
def State.q0 (s : State) (i : Nat) : List Word := (List.range 16).map (s.outputSlot i)

/-- The Station port in sample period `i` of a frame: slot m carries sink 16 + m (R17). -/
def State.q1 (s : State) (i : Nat) : List Word := (List.range 4).map fun m => s.outputSlot i (16 + m)

/-- The attention line of a link (R188). -/
def State.attentionLine (s : State) (l : Link) : Bool := (s.link l).attention

end Sys2Proof.Machine
end

