-- ==== Sys2Proof/Machine/Status.lean ====
section
/-! DEFINITION. STATUS_READ (R191, R200): each group as its owner lists it. The sizes of section 12.1 hold; a field to which it gives
none takes the smallest of 1, 2, 4 and 8 bytes that holds its range, and an elapsed or remaining time is in whole milliseconds
(log entry 40). -/

namespace Sys2Proof.Machine

def code (n : Nat) : List Byte := [byteOf n]
def steps (x : Int) : List Byte := beInt 2 x
def be8 (n : Nat) : List Byte := beNat 8 n
def freqBytes (f : Freq) : List Byte := code f.band.code ++ be4 f.khz
def optFreq (f : Option Freq) : List Byte := optional 5 (f.map freqBytes)

/-- The members of a set of links, which has no order (R45), by ascending link code (log entry 40). -/
def membersOf (set : LinkSet) : List Byte := counted (fun l => code (Link.code l)) (Link.every.filter fun l => hasLink set l)

/-- Whole milliseconds from a moment to now, and from now to a moment. -/
def State.since (s : State) (t : Time) : Nat := inMilliseconds (s.clock.now - t)
def State.left (s : State) (t : Time) : Nat := inMilliseconds (t - s.clock.now)

/-! ## CLAIMS (R40) -/

def claimBytes (h : Nat) (c : Claim) : List Byte :=
  code h ++ code c.claimant.code ++ code c.tier.code ++ code c.kind.code ++ code c.zones.toNat ++ code c.source.code
    ++ optional 2 (c.level.map steps) ++ optional 2 (c.duck.map steps) ++ code c.ramp.code ++ [flag c.ending] ++ be4 c.seq

def handles (cs : List (Nat × Claim)) : List Byte := counted (fun c => code c.1) cs

/-- A zone's base, then the overlays mixed and those suppressed on it, each by ascending handle (log entry 62). -/
def ClaimTable.zoneBytes (t : ClaimTable) (z : Zone) : List Byte :=
  code (match t.baseHandle z with | some h => h | none => 255) ++ handles (t.mixed z) ++ handles (t.suppressed z)

/-- The entries held go by ascending handle (log entry 62); the seven zones' results follow each other in the order of their numbers,
without a count (log entry 40). -/
def State.claimsGroup (s : State) : List Byte :=
  be4 s.table.counter ++ counted (fun c => claimBytes c.1 c.2) s.table.held ++ Zone.every.flatMap s.table.zoneBytes

/-! ## SINK (R66) -/

def Contribution.bytes (x : Contribution) : List Byte :=
  code x.origin.code ++ code x.source.code ++ optByte (x.kind.map Kind.code) ++ code x.role.code ++ steps x.target
    ++ steps x.applied ++ code x.ramp.code ++ [flag x.fast]

/-- The clip guard goes out as steps of two bytes, like every other attenuation, the clean count as one byte, and the volume of a
station sink, which the station holds, as an absent field of two bytes (log entry 40). -/
def State.sinkGroup (s : State) (k : Nat) : List Byte :=
  let x := s.sink k
  let z := Zone.ofSink k
  counted Contribution.bytes x.list ++ counted code x.waiting ++ steps x.duck ++ steps x.guard ++ code x.clean ++ [flag x.clip]
    ++ be2 x.delay ++ code x.delayState.code ++ opt2 x.pendingDelay ++ steps x.fade
    ++ optional 2 (if z.station.isSome then none else some (steps (s.zoneVolume z))) ++ membersOf (s.mute z)
    ++ steps x.trim ++ steps x.boost ++ code s.mix.selected.code ++ code s.playing.code ++ be2 s.mix.speed ++ [flag s.mix.stale]
    ++ s.mix.curve.flatMap (fun p => be2 p.1 ++ steps p.2) ++ code s.mix.curveZones.toNat
    ++ steps s.mix.trimFront ++ steps s.mix.trimRear ++ steps s.mix.trimNav

/-! ## TUNER_A and TUNER_B (R95) -/

def Reading.bytes (r : Reading) : List Byte := code r.level ++ code r.multipath ++ code r.adjacent ++ code r.q

/-- An absent alternate list is marked absent, with a count of 0. -/
def Decoded.bytes (d : Decoded) : List Byte :=
  opt2 d.identity ++ optional 8 d.name ++ optFlag d.tp ++ optFlag d.ta ++ [flag d.alternates.isSome]
    ++ counted be4 (d.alternates.getD [])

def TuneRecord.bytes (r : TuneRecord) : List Byte := code r.cause.code ++ code r.result.code ++ freqBytes r.freq

/-- Home and seek start carry a band byte before the frequency, the check cursor and the alternates, which are FM always, none;
the low count is one byte, and the last tune record one optional field of seven (log entry 40). -/
def State.tunerAGroup (s : State) : List Byte :=
  let t := s.tunA
  code t.state.code ++ freqBytes t.rx.freq ++ optFreq t.home ++ optFreq t.seekStart ++ optByte (t.seekDir.map Direction.code)
    ++ t.rx.last.bytes ++ code t.rx.qs ++ steps t.trim ++ [flag t.rx.markedFast] ++ code t.rx.sep
    ++ t.offered.bytes ++ code t.low ++ opt4 t.cursor ++ [flag s.radio.afOn] ++ code s.radio.afThreshold
    ++ optional 7 (t.lastTune.map TuneRecord.bytes) ++ [flag t.good]

/-- The watch request and the visited channel carry a band byte before the frequency, the alternates none; what R95 has during a sweep only,
the visited channel and its dwell, is one optional field of six bytes (log entry 40). -/
def State.tunerBGroup (s : State) : List Byte :=
  let t := s.tunB
  code t.state.code ++ freqBytes t.rx.freq ++ t.rx.last.bytes ++ code t.rx.qs ++ steps t.trim ++ code t.rx.sep
    ++ t.rx.decoder.data.bytes ++ optByte (t.holder.map StationId.code) ++ optFreq s.traffic.watch
    ++ [flag s.radio.scan, flag s.radio.rearFirst]
    ++ optional 6 (if t.sweeping then some (freqBytes t.rx.freq ++ [flag t.dwell]) else none)
    ++ code s.radio.stations.length ++ be2 s.radio.version

/-! ## SHIFT (R115) -/

/-- While the A eligible hold timer is stopped, its time left is an absent field of two bytes (log entry 40). -/
def State.shiftGroup (s : State) : List Byte :=
  let b := s.shift
  let t := s.traffic
  code b.state.code ++ optByte (b.purpose.map Purpose.code) ++ optByte (b.cause.map PauseCause.code)
    ++ code (match b.captured with | some x => TunerId.code x | none => 255) ++ [flag b.running]
    ++ opt4 (b.write.map BitVec.toNat) ++ opt4 (b.replay.map BitVec.toNat) ++ be4 b.fill ++ [flag b.wrapped]
    ++ be4 (s.store.bounds .shift).1 ++ be4 s.store.shiftSize
    ++ [flag t.on, flag t.memo, flag t.pauseOnCall, flag t.autoResume] ++ code t.source.code ++ [flag t.eligible]
    ++ opt2 (t.holdAt.map fun x => s.left (x + seconds 2)) ++ optFreq t.watch ++ [flag t.announcing]
    ++ optByte (t.outcome.map MemoOutcome.code) ++ opt4 t.retained

/-! ## CALL (R136)

The reference set is reported as the current view has it (R26), whatever set the last frame event took (R127, log entry 60). -/

/-- The canceller's state, a field of the call record too, is sent once, after the reference set; the sinks of that set go by ascending
number, and the window and active counts are of two bytes (log entry 40). -/
def State.callGroup (s : State) : List Byte :=
  let c := s.call
  code c.state.code ++ code c.placement.code ++ code c.mode.code ++ code c.mic.code ++ be2 c.hold ++ membersOf c.mutes
    ++ steps c.volume ++ counted code (sinksOf (s.table.basedZones callHandle)) ++ code c.echo.state.code ++ be8 c.echo.power.toNat
    ++ be2 c.echo.count ++ be2 c.echo.active ++ optional 1 (c.echo.erle.map (beInt 1)) ++ [flag c.echo.adapted]
    ++ optional 35 (if c.mode = .conference then
        some (code c.choice.val ++ be2 c.hold ++ c.sums.flatMap fun x => be8 x.toNat)
      else none)

/-! ## STATION (R152) -/

/-- While the grace timer is stopped, its time is an absent field of two bytes (log entry 40). -/
def State.stationGroup (s : State) (st : StationId) : List Byte :=
  let x := s.station st
  code x.source.code ++ steps x.volume ++ [flag x.swap] ++ code x.jack.code ++ opt2 x.load ++ optFlag x.mic
    ++ [flag (decide (s.tunB.holder = some st))] ++ opt2 (x.graceAt.map s.since)
    ++ [flag x.inserted, flag x.measuring] ++ code x.count ++ steps s.stations.cap ++ [flag s.stations.lock]
    ++ [flag (decide (s.tunB.holder = some (other st)))]

/-! ## VOICE (R166) -/

def Ended.bytes (e : Ended) : List Byte :=
  code e.desc ++ optByte (e.voice.map fun v => v.val) ++ code e.cause.code

/-- The four voices and the links' four last-ended records stand without a count, a link's record being one optional field of four bytes
(log entry 40). -/
def State.voiceGroup (s : State) : List Byte :=
  s.chime.voices.flatMap s.voiceBytes ++ counted Request.bytes s.chime.queue ++ be4 s.chime.counter
    ++ Link.every.flatMap fun l => optional 4 ((s.chime.ended.get l).map Ended.bytes)

/-! ## STORE (R181) -/

def Store.regionBytes (st : Store) (r : Region) : List Byte := be4 (st.bounds r).1 ++ be4 ((st.bounds r).2 - (st.bounds r).1)

def Right.bytes (r : Right) : List Byte := [flag r.read, flag r.write]

def channelBytes (c : Option Channel) : List Byte :=
  [flag c.isSome] ++ optByte (c.map fun c => if c.write then 0 else 1) ++ opt4 (c.map fun c => c.base.toNat)
    ++ opt4 (c.map fun c => c.current.toNat) ++ opt4 (c.map fun c => c.count) ++ opt4 (c.map fun c => c.remaining)

/-- The three regions, the rights, the four channels and the six requesters' flags stand without a count (log entry 40). -/
def State.storeGroup (s : State) : List Byte :=
  let st := s.store
  [flag st.initialising] ++ be2 st.u0 ++ be2 st.u1 ++ [Region.chime, .clip, .shift].flatMap st.regionBytes
    ++ [Region.chime, .clip, .shift].flatMap (fun r => Link.every.flatMap fun l => ((st.rights r).get l).bytes)
    ++ Link.every.flatMap (fun l => channelBytes (st.channels.get l)) ++ code (Link.code st.pointer)
    ++ s.standing.map fun p => flag p.isSome

/-! ## POWER (R199) -/

def Tracker.bytes (t : Tracker) : List Byte :=
  code t.state.code ++ opt4 t.nominal ++ be4 (roundDiv t.estimate.num t.estimate.den)

/-- While the refresh timer is stopped, its time is an absent field of four bytes (log entry 40). -/
def State.powerGroup (s : State) : List Byte :=
  let p := s.power
  code p.state.code ++ [flag s.store.initialising, flag s.ignitionHigh, flag s.amplifierEnable]
    ++ [flag p.wakeIgnition, flag p.wakeChime, flag p.wakeJack, flag p.wakeCall] ++ be2 p.interval
    ++ opt4 (p.timer.map fun t => s.since t.1) ++ [flag (decide (s.tunB.state = .refresh))]
    ++ optByte (p.entry.map EntryCause.code) ++ s.ports.p0.bytes ++ s.ports.p1.bytes ++ s.ports.p2.bytes

/-! ## The order (R191) -/

/-- The stream of a group, none for a group that has no name or an index outside its range. -/
def State.statusGroup (s : State) (group index : Nat) : Option (List Byte) :=
  match group with
  | 1 => if index ≤ 19 then some (s.sinkGroup index) else none
  | 6 => (stationOf index).map s.stationGroup
  | _ =>
    if index ≠ 0 then none
    else
      match group with
      | 0 => some s.claimsGroup
      | 2 => some s.tunerAGroup
      | 3 => some s.tunerBGroup
      | 4 => some s.shiftGroup
      | 5 => some s.callGroup
      | 7 => some s.voiceGroup
      | 8 => some s.storeGroup
      | 9 => some s.powerGroup
      | _ => none

/-- The parts of a stream of `n` bytes (R200). -/
def partCount (n : Nat) : Nat := max 1 ((n + 253) / 254)

/-- Operands: group, index, part. -/
def statusReadBody (b : List Byte) (s : State) : Reply × State :=
  match s.statusGroup (u8 b 0) (u8 b 1) with
  | none => answer .badOperand s
  | some bs =>
    let part := u8 b 2
    if partCount bs.length ≤ part then answer .badOperand s
    else (.answer (byteOf (partCount bs.length) :: (bs.drop (254 * part)).take 254), s)

def execStatusRead (l : Link) (f : Frame) (s : State) : Result := order l f byAll (operands 3 f) statusReadBody s

end Sys2Proof.Machine
end

