-- ==== Sys2Proof/Machine/Links.lean ====
section
/-! DEFINITION. The Link Block's own orders, WATCH_SET, WATCH_CLEAR and EVENTS_READ, and the events of the frame exchange that carry
no order (sections 10.1, 10.3, 10.4). -/

namespace Sys2Proof.Machine

/-! ## Watches (R187) -/

/-- Conditions 0..10, which alone have a fall. -/
def levelConditions : BitVec 16 := 0x07FF

/-- The rise and fall selections of the operands, the notices dropped from the fall selection. -/
def selections (b : List Byte) : BitVec 16 × BitVec 16 :=
  (BitVec.ofNat 16 (u16 b 0), BitVec.ofNat 16 (u16 b 2) &&& levelConditions)

/-- Operands: rise selection, fall selection. -/
def watchSetBody (l : Link) (b : List Byte) (s : State) : Reply × State :=
  let x := s.link l
  let (r, f) := selections b
  answer .done (s.setLink l { x with riseEnable := x.riseEnable ||| r, fallEnable := x.fallEnable ||| f })

def execWatchSet (l : Link) (f : Frame) (s : State) : Result := order l f byAll (operands 4 f) (watchSetBody l) s

/-- Operands: rise selection, fall selection. -/
def watchClearBody (l : Link) (b : List Byte) (s : State) : Reply × State :=
  let x := s.link l
  let (r, f) := selections b
  answer .done (s.setLink l { x with riseEnable := x.riseEnable &&& ~~~r, fallEnable := x.fallEnable &&& ~~~f })

def execWatchClear (l : Link) (f : Frame) (s : State) : Result := order l f byAll (operands 4 f) (watchClearBody l) s

/-! ## EVENTS_READ (R190, section 12.3) -/

/-- The kind and the 8 bytes of detail of an advisory. -/
def Advisory.bytes : Advisory → List Byte
  | .taMissed reason src => 0 :: fit 8 0 (code reason.code ++ code src.code)
  | .placementFallback st p => 1 :: fit 8 0 (code (StationId.code st) ++ code p.code)
  | .shiftDiscarded cause left fill => 2 :: fit 8 0 (code cause.code ++ code left.code ++ be4 fill)
  | .portLost p => 3 :: fit 8 0 (code (Port.code p))
  | .descriptorInvalidated set => 4 :: fit 8 0 (be4 set.toNat)
  | .voicePreempted v old new => 5 :: fit 8 0 (code v.val ++ code old ++ code new)

/-- What EVENTS_READ returns to link `l`. -/
def State.eventsOf (s : State) (l : Link) : List Byte :=
  let x := s.link l
  be2 x.riseLatch.toNat ++ be2 x.fallLatch.toNat ++ be2 (s.levels l).toNat ++ [flag x.restart] ++ counted Advisory.bytes x.advisories

def eventsReadBody (l : Link) (_ : List Byte) (s : State) : Reply × State :=
  (.answer (s.eventsOf l),
    s.setLink l { s.link l with riseLatch := 0, fallLatch := 0, advisories := [], restart := false })

def execEventsRead (l : Link) (f : Frame) (s : State) : Result := order l f byAll (operands 0 f) (eventsReadBody l) s

/-! ## The rest of the frame exchange (R182 to R184) -/

/-- A request whose order code names no order: BAD_OPERAND if it is short of the bytes it declares, and otherwise UNKNOWN_ORDER. -/
def unknownBody (f : Frame) (s : State) : Reply × State :=
  if f.bytes.length < f.len.toNat then answer .badOperand s else answer .unknownOrder s

def execUnknownOrder (l : Link) (_code : Byte) (f : Frame) (s : State) : Result := .next (takeOrder l f (unknownBody f) s)

/-- A null frame: the held reply is shifted out and stays held; one that begins before the reply is ready is answered WAIT. Only as
many bytes of the reply go out as the period clocks, 0 or 1 in a null frame (log entry 66). -/
def execNullFrame (p : SelectPeriod) (s : State) : Result :=
  match (s.link p.link).slot with
  | .held r => .next (s.shiftOut p.link p.bytes r)
  | .pending _ => .next (s.shiftOut p.link p.bytes (.plain .wait))

/-- A select period that begins before the reply is ready. Where the reply is ready, no period is answered WAIT. -/
def execWait (p : SelectPeriod) (s : State) : Result :=
  match (s.link p.link).slot with
  | .held _ => .next s
  | .pending _ => .next (s.shiftOut p.link p.bytes (.plain .wait))

/-- The words of a STORE_DATA have been moved by now (R175, R178), and the owning block's answer fills the slot. -/
def State.replyReady (s : State) (l : Link) : State :=
  let s := s.moveAll l
  match (s.link l).slot with
  | .held _ => s
  | .pending r => s.setSlot l (.held r)

def execReplyReady (l : Link) (s : State) : Result := .next (s.replyReady l)

end Sys2Proof.Machine
end

