-- ==== Sys2Proof/Machine/Dispatch.lean ====
section
/-! DEFINITION. The dispatch: one arm for each command. -/

namespace Sys2Proof.Machine

def exec (i : Instr) (s : State) : Host.Outcome State Fault Refusal :=
  match i with
  | .claim l f => Sys2Proof.Machine.execClaim l f s
  | .release l f => Sys2Proof.Machine.execRelease l f s
  | .amend l f => Sys2Proof.Machine.execAmend l f s
  | .setProgram l f => Sys2Proof.Machine.execSetProgram l f s
  | .setVolume l f => Sys2Proof.Machine.execSetVolume l f s
  | .setTrim l f => Sys2Proof.Machine.execSetTrim l f s
  | .setDelay l f => Sys2Proof.Machine.execSetDelay l f s
  | .setSpeedCurve l f => Sys2Proof.Machine.execSetSpeedCurve l f s
  | .speed l f => Sys2Proof.Machine.execSpeed l f s
  | .muteSet l f => Sys2Proof.Machine.execMuteSet l f s
  | .muteClear l f => Sys2Proof.Machine.execMuteClear l f s
  | .tuneA l f => Sys2Proof.Machine.execTuneA l f s
  | .seekA l f => Sys2Proof.Machine.execSeekA l f s
  | .presetStore l f => Sys2Proof.Machine.execPresetStore l f s
  | .presetRecall l f => Sys2Proof.Machine.execPresetRecall l f s
  | .scanPolicy l f => Sys2Proof.Machine.execScanPolicy l f s
  | .afPolicy l f => Sys2Proof.Machine.execAfPolicy l f s
  | .listRead l f => Sys2Proof.Machine.execListRead l f s
  | .trafficMode l f => Sys2Proof.Machine.execTrafficMode l f s
  | .pause l f => Sys2Proof.Machine.execPause l f s
  | .resume l f => Sys2Proof.Machine.execResume l f s
  | .goLive l f => Sys2Proof.Machine.execGoLive l f s
  | .shiftPolicy l f => Sys2Proof.Machine.execShiftPolicy l f s
  | .callState l f => Sys2Proof.Machine.execCallState l f s
  | .callPlace l f => Sys2Proof.Machine.execCallPlace l f s
  | .micSelect l f => Sys2Proof.Machine.execMicSelect l f s
  | .micMuteSet l f => Sys2Proof.Machine.execMicMuteSet l f s
  | .micMuteClear l f => Sys2Proof.Machine.execMicMuteClear l f s
  | .callVolume l f => Sys2Proof.Machine.execCallVolume l f s
  | .stationSource l f => Sys2Proof.Machine.execStationSource l f s
  | .stationTune l f => Sys2Proof.Machine.execStationTune l f s
  | .stationVolume l f => Sys2Proof.Machine.execStationVolume l f s
  | .stationSwap l f => Sys2Proof.Machine.execStationSwap l f s
  | .jackMeasure l f => Sys2Proof.Machine.execJackMeasure l f s
  | .stationCap l f => Sys2Proof.Machine.execStationCap l f s
  | .rearLock l f => Sys2Proof.Machine.execRearLock l f s
  | .chimeDefine l f => Sys2Proof.Machine.execChimeDefine l f s
  | .chimeStart l f => Sys2Proof.Machine.execChimeStart l f s
  | .chimeStop l f => Sys2Proof.Machine.execChimeStop l f s
  | .chimeRenew l f => Sys2Proof.Machine.execChimeRenew l f s
  | .chimeStopAll l f => Sys2Proof.Machine.execChimeStopAll l f s
  | .chimeRead l f => Sys2Proof.Machine.execChimeRead l f s
  | .storeOpen l f => Sys2Proof.Machine.execStoreOpen l f s
  | .storeData l f => Sys2Proof.Machine.execStoreData l f s
  | .storeClose l f => Sys2Proof.Machine.execStoreClose l f s
  | .regionSet l f => Sys2Proof.Machine.execRegionSet l f s
  | .rightsSet l f => Sys2Proof.Machine.execRightsSet l f s
  | .watchSet l f => Sys2Proof.Machine.execWatchSet l f s
  | .watchClear l f => Sys2Proof.Machine.execWatchClear l f s
  | .eventsRead l f => Sys2Proof.Machine.execEventsRead l f s
  | .statusRead l f => Sys2Proof.Machine.execStatusRead l f s
  | .power l f => Sys2Proof.Machine.execPower l f s
  | .wakeSet l f => Sys2Proof.Machine.execWakeSet l f s
  | .linkReset l f => Sys2Proof.Machine.execLinkReset l f s
  | .hubReset l f => Sys2Proof.Machine.execHubReset l f s
  | .unknownOrder l code f => Sys2Proof.Machine.execUnknownOrder l code f s
  | .nullFrame p => Sys2Proof.Machine.execNullFrame p s
  | .wait p => Sys2Proof.Machine.execWait p s
  | .replyReady l => Sys2Proof.Machine.execReplyReady l s
  | .powerOn ignition jack1 jack2 => Sys2Proof.Machine.execPowerOn ignition jack1 jack2 s
  | .storeReady => Sys2Proof.Machine.execStoreReady s
  | .ignitionRise => Sys2Proof.Machine.execIgnitionRise s
  | .refreshTimerExpiry => Sys2Proof.Machine.execRefreshTimerExpiry s
  | .frameEvent x => Sys2Proof.Machine.execFrameEvent x s
  | .frameSync gap set => Sys2Proof.Machine.execFrameSync gap set s
  | .overdueSlip p => Sys2Proof.Machine.execOverdueSlip p s
  | .acquireGiveUp p => Sys2Proof.Machine.execAcquireGiveUp p s
  | .holdoverTimeout p => Sys2Proof.Machine.execHoldoverTimeout p s
  | .clipGuardRelease sink => Sys2Proof.Machine.execClipGuardRelease sink s
  | .delayFadeOutEnd sink => Sys2Proof.Machine.execDelayFadeOutEnd sink s
  | .delayFadeInEnd sink => Sys2Proof.Machine.execDelayFadeInEnd sink s
  | .speedStale => Sys2Proof.Machine.execSpeedStale s
  | .tunerMeasurement t m => Sys2Proof.Machine.execTunerMeasurement t m s
  | .settleEnd t m => Sys2Proof.Machine.execSettleEnd t m s
  | .seekChannelEnd m => Sys2Proof.Machine.execSeekChannelEnd m s
  | .afPrefadeEnd => Sys2Proof.Machine.execAfPrefadeEnd s
  | .afCheckMeasurement m => Sys2Proof.Machine.execAfCheckMeasurement m s
  | .afGapEnd => Sys2Proof.Machine.execAfGapEnd s
  | .afVerifyTimeout => Sys2Proof.Machine.execAfVerifyTimeout s
  | .dataGroup t g => Sys2Proof.Machine.execDataGroup t g s
  | .dataTimeout t => Sys2Proof.Machine.execDataTimeout t s
  | .sweepChannelEnd m => Sys2Proof.Machine.execSweepChannelEnd m s
  | .rejectionTick => Sys2Proof.Machine.execRejectionTick s
  | .aEligibleExpiry => Sys2Proof.Machine.execAEligibleExpiry s
  | .replayDrained => Sys2Proof.Machine.execReplayDrained s
  | .memoReplayEnd => Sys2Proof.Machine.execMemoReplayEnd s
  | .windowJudged => Sys2Proof.Machine.execWindowJudged s
  | .jackInsertion st => Sys2Proof.Machine.execJackInsertion st s
  | .jackRemoval st => Sys2Proof.Machine.execJackRemoval st s
  | .measurementComplete st load1 load2 mic => Sys2Proof.Machine.execMeasurementComplete st load1 load2 mic s
  | .graceExpiry st => Sys2Proof.Machine.execGraceExpiry st s
  | .voicePlayEnd v => Sys2Proof.Machine.execVoicePlayEnd v s
  | .gapEnd v => Sys2Proof.Machine.execGapEnd v s
  | .deadlineExpiry v => Sys2Proof.Machine.execDeadlineExpiry v s
  | .voiceIdle v => Sys2Proof.Machine.execVoiceIdle v s

end Sys2Proof.Machine
end

