-- ==== Sys2Proof/Safety.lean ====
section
/-! DEFINITION. The terms in which statements about the hub are made: which blocks a command changes, what the exchange of an
order's request and reply does on its link, and the invariants of the blocks' records. -/

/-- A frame carries exactly these operand bytes; surplus bytes behind them are ignored (R182). -/
def Sys2Proof.Frame.carries (f : Sys2Proof.Frame) (ops : List Sys2Proof.Byte) : Prop :=
  f.len.toNat = ops.length ∧ f.bytes.take ops.length = ops

namespace Sys2Proof.Machine

/-! ## Frames of a command -/

/-- The parts of `State`, its queue apart. -/
inductive Block where
  | clock | ports | table | mix | tunA | tunB | radio | traffic | shift | call | stations | chime | store | links | power
deriving DecidableEq, Repr

/-- `t` holds the block as `s` does. -/
def State.sameBlock (s t : State) : Block → Prop
  | .clock => t.clock = s.clock
  | .ports => t.ports = s.ports
  | .table => t.table = s.table
  | .mix => t.mix = s.mix
  | .tunA => t.tunA = s.tunA
  | .tunB => t.tunB = s.tunB
  | .radio => t.radio = s.radio
  | .traffic => t.traffic = s.traffic
  | .shift => t.shift = s.shift
  | .call => t.call = s.call
  | .stations => t.stations = s.stations
  | .chime => t.chime = s.chime
  | .store => t.store = s.store
  | .links => t.links = s.links
  | .power => t.power = s.power

/-- Every block outside `bs` stands, and so does the queue. -/
def OnlyChanges (bs : List Block) (s t : State) : Prop := t.pending = s.pending ∧ ∀ b, b ∉ bs → s.sameBlock t b

/-- No link's latch or advisory list has changed. -/
def Unreported (s t : State) : Prop :=
  ∀ k, (t.link k).riseLatch = (s.link k).riseLatch ∧ (t.link k).fallLatch = (s.link k).fallLatch
    ∧ (t.link k).advisories = (s.link k).advisories

/-- No link's enables, restart flag, reply slot or last reply frame has changed. -/
def LinksUndisturbed (s t : State) : Prop :=
  ∀ k, (t.link k).riseEnable = (s.link k).riseEnable ∧ (t.link k).fallEnable = (s.link k).fallEnable
    ∧ (t.link k).restart = (s.link k).restart ∧ (t.link k).slot = (s.link k).slot ∧ (t.link k).shifted = (s.link k).shifted

/-- A two-byte operand, most significant byte first (R201). -/
def half (x : Half) : List Byte := [x.extractLsb' 8 8, x.extractLsb' 0 8]

/-- A four-byte operand, most significant byte first (R201). -/
def quad (x : Word) : List Byte := [x.extractLsb' 24 8, x.extractLsb' 16 8, x.extractLsb' 8 8, x.extractLsb' 0 8]

/-- Link `l` holds reply `r`, so that its next request is taken (R183). -/
def State.holds (s : State) (l : Link) (r : Reply) : Prop := (s.link l).slot = .held r

/-- R182: what a select period of `n` whole bytes shifts out of a reply: status, result length, results and pending flag, as far as the
period lasts, and zeros behind them. -/
def Reply.shownIn (r : Reply) (n : Nat) (pending : Bool) (bs : List Byte) : Prop :=
  bs.length = n ∧ ∀ i, i < n → bs.getD i 0 = (byteOf r.status.code :: byteOf r.length :: (r.results ++ [flag pending])).getD i 0

/-- The exchange of an order taken on link `l` with frame `f`, whose slot held `r`: `r` is shifted out with the pending flag as the
period found it, `answer` waits in the slot, and the other links' slots stand (R182, R183). -/
structure Exchanged (l : Link) (f : Frame) (r answer : Reply) (s t : State) : Prop where
  slot : (t.link l).slot = .pending answer
  shifted : ∃ bs, (t.link l).shifted = some bs ∧ r.shownIn (f.bytes.length + 2) (s.link l).attention bs
  others : ∀ k, k ≠ l → (t.link k).slot = (s.link k).slot ∧ (t.link k).shifted = (s.link k).shifted

/-- R185: the links that may issue the order of a code (section 12.2). -/
def mayIssue (c : Nat) : Link → Bool
  | .cockpit => !(c = 37 || c = 80)
  | .telephony => [17, 18, 80, 81, 82, 83, 84, 85, 128, 129, 130, 144, 145, 146, 147, 176].contains c
  | .rear => [16, 17, 18, 38, 39, 54, 96, 97, 98, 99, 100, 128, 129, 130, 144, 145, 146, 147, 176].contains c
  | .body =>
    [16, 17, 18, 37, 38, 39, 112, 113, 114, 115, 116, 117, 128, 129, 130, 144, 145, 146, 147, 160, 176].contains c

/-- R185, R200: how many operand bytes the order of a code accepts (section 12.2); none for STORE_DATA, whose length byte says what it
carries, and for a code that names no order. -/
def orderLength (c : Nat) : Option Nat :=
  ([(16, 9), (17, 1), (18, 6), (32, 1), (33, 3), (34, 3), (35, 3), (36, 25), (37, 2), (38, 1), (39, 1), (48, 5), (49, 1), (50, 1),
    (51, 1), (52, 2), (53, 2), (54, 1), (64, 2), (65, 0), (66, 0), (67, 0), (68, 2), (80, 1), (81, 1), (82, 1), (83, 0), (84, 0),
    (85, 2), (96, 2), (97, 6), (98, 3), (99, 2), (100, 1), (101, 2), (102, 1), (112, 20), (113, 1), (114, 1), (115, 1), (116, 0),
    (117, 2), (128, 9), (130, 0), (131, 4), (132, 4), (144, 4), (145, 4), (146, 0), (147, 3), (160, 1), (161, 6), (176, 0),
    (177, 0)] : List (Nat × Nat)).lookup c

/-- Enables and restart flags stand on every link. -/
def WatchesKept (s t : State) : Prop :=
  ∀ k, (t.link k).riseEnable = (s.link k).riseEnable ∧ (t.link k).fallEnable = (s.link k).fallEnable
    ∧ (t.link k).restart = (s.link k).restart

/-- An order taken on link `l` and answered, that changes no block outside `bs` but the Link Block, and there no watch. -/
structure Taken (l : Link) (f : Frame) (r answer : Reply) (bs : List Block) (s t : State) : Prop where
  exchanged : Exchanged l f r answer s t
  watches : WatchesKept s t
  blocks : OnlyChanges (.links :: bs) s t

/-- An event of a block, that changes no block outside `bs` but the Link Block, and there latches and advisories alone. -/
structure Happens (bs : List Block) (s t : State) : Prop where
  links : LinksUndisturbed s t
  blocks : OnlyChanges (.links :: bs) s t

/-- R160, R164, R165: CHIME_ENDED is offered to link `k` where `told` has it, and no other latch or advisory of that link moves. -/
def ChimeEndedTold (told : Link → Prop) (s t : State) : Prop :=
  ∀ k, (told k → (s.link k).riseEnable.getLsbD 14 = true → (t.link k).riseLatch.getLsbD 14 = true)
    ∧ (¬told k → (t.link k).riseLatch = (s.link k).riseLatch)
    ∧ (∀ c, c ≠ 14 → (t.link k).riseLatch.getLsbD c = (s.link k).riseLatch.getLsbD c)
    ∧ (t.link k).fallLatch = (s.link k).fallLatch ∧ (t.link k).advisories = (s.link k).advisories

/-- The blocks that a new assessment of eligibility, watch, Tuner B and traffic source may change, the Link Block apart. -/
def reassessed : List Block := [.table, .tunB, .radio, .traffic, .shift, .store]

/-- The blocks that the Traffic and Shift Unit may change when the Claim Table changes, the Link Block apart. -/
def tableFollowers : List Block := [.table, .traffic, .shift, .store]

/-- On every link, a notice or rise of condition `c` whose enable is set stands in the latch (R188). -/
def RiseLatched (c : Nat) (s t : State) : Prop :=
  ∀ k, (s.link k).riseEnable.getLsbD c = true → (t.link k).riseLatch.getLsbD c = true

/-- On every link, a fall of condition `c` whose enable is set stands in the latch (R188). -/
def FallLatched (c : Nat) (s t : State) : Prop :=
  ∀ k, (s.link k).fallEnable.getLsbD c = true → (t.link k).fallLatch.getLsbD c = true

/-- R74: Tuner A has been tuned to `f` at moment `now`, and its TUNE_DONE will carry `report`. -/
def TunerA.settlingOn (t : TunerA) (f : Freq) (report : Option (TuneCause × TuneResult)) (now : Time) : Prop :=
  t.state = .settling ∧ t.rx.freq = f ∧ t.rx.aside = true ∧ t.rx.since = now ∧ t.report = report ∧ t.home = none
    ∧ t.saved = none ∧ t.seekStart = none ∧ t.low = 0

/-- R76: a seek in direction `d` from `start`, wrapping once at the band's end, meets frequency `x` no later than `y`. -/
def notAfter (d : Direction) (start x y : Nat) : Prop :=
  match d with
  | .up => (start < x ∧ (y < start ∨ x ≤ y)) ∨ (x < start ∧ y < start ∧ x ≤ y)
  | .down => (x < start ∧ (start < y ∨ y ≤ x)) ∨ (start < x ∧ start < y ∧ y ≤ x)

/-- R76: an entry that the list phase of a seek from `start` may find at `x`. -/
def receivable (xs : List Entry) (start x : Freq) : Prop :=
  x.band = start.band ∧ x ≠ start ∧ ∃ e ∈ xs, e.freq = x ∧ 25 ≤ e.qs

/-- R80, R92: the list after an entry of frequency `f`, Qs `q` and the rest as `e` has it is due to be inserted in it: it enters a list
with room, or takes the place of an unprotected entry of lower Qs, or is dropped. -/
def Inserted (shields : Entry → Bool) (e : Entry) (xs ys : List Entry) : Prop :=
  (xs.length < 48 → ∀ x, x ∈ ys ↔ x ∈ xs ∨ x = e)
    ∧ (48 ≤ xs.length → (∀ x ∈ xs, shields x = true ∨ e.qs ≤ x.qs) → ys = xs)
    ∧ (48 ≤ xs.length → (∃ x ∈ xs, shields x = false ∧ x.qs < e.qs) →
        ∃ v ∈ xs, shields v = false ∧ (∀ x ∈ xs, shields x = false → v.qs ≤ x.qs)
          ∧ ∀ x, x ∈ ys ↔ (x ∈ xs ∧ x.freq ≠ v.freq) ∨ x = e)

/-- What an entry holds, its seen flag apart. -/
def Entry.plain (e : Entry) : Entry := { e with seen := false }

/-- R92: the candidate `f`, received with Qs `q`, has been rejected: its entry says so for 60 s, and where it has none one is due to be
inserted. -/
def CandidateRejected (shields : Entry → Bool) (f : Freq) (q : Nat) (r r' : Radio) : Prop :=
  ((∃ e ∈ r.stations, e.freq = f) → r'.version = r.version
      ∧ r'.stations.map Entry.plain =
          r.stations.map fun e => if e.freq = f then { e with rejected := some 60, seen := false } else e.plain)
    ∧ ((∀ e ∈ r.stations, e.freq ≠ f) → ∃ ys,
        Inserted shields
            { freq := f, qs := q, identity := none, name := none, tp := none, alternates := [], missed := 0, preset := none,
              rejected := some 60, seen := false } r.stations ys
          ∧ r'.stations.map Entry.plain = ys.map Entry.plain
          ∧ r'.version = if ys = r.stations then r.version else (r.version + 1) % 65536)

/-- R92: a verification of `f`, received with Qs `q` and begun from `home` with `d` saved, has failed: Tuner A is tuned back, silently,
with its saved data, and the candidate is rejected. -/
def VerifyFailed (f : Freq) (q : Nat) (home : Freq) (d : Decoder) (s t : State) : Prop :=
  t.tunA.settlingOn home none t.clock.now ∧ t.tunA.rx.decoder = d ∧ t.tunA.lastTune = s.tunA.lastTune
    ∧ CandidateRejected s.tunA.shields f q s.radio t.radio

/-- R92: a verification has passed: Tuner A is TUNED on the candidate, and TUNE_DONE says SWITCHED. -/
def VerifyPassed (f : Freq) (s t : State) : Prop :=
  t.tunA.state = .tuned ∧ t.tunA.rx.freq = f ∧ t.tunA.home = none ∧ t.tunA.saved = none ∧ t.tunA.low = 0
    ∧ t.tunA.lastTune = some ⟨.af, .switched, f⟩ ∧ RiseLatched 12 s t

/-- R79: the list and its version after a channel update with the channel's frequency `f`, final Qs `q` and decoded data `d`. -/
def ChannelUpdated (shields : Entry → Bool) (f : Freq) (q : Nat) (d : Decoded) (r r' : Radio) : Prop :=
  r' = { r with stations := r'.stations, version := r'.version }
    ∧ (∀ e, r.stations.find? (fun e => e.freq = f) = some e →
        (q < 25 → r'.version = r.version ∧ r'.stations = r.stations.map fun x => if x.freq = f then { x with qs := q } else x)
        ∧ (25 ≤ q → ∃ (other : Bool) (e' : Entry), (other = true ↔ ∃ i, d.identity = some i ∧ e.identity ≠ some i)
            ∧ e' = { e with
                qs := q, missed := 0, seen := true, identity := d.identity.or e.identity,
                name := d.name.or (if other then none else e.name), tp := d.tp.or (if other then none else e.tp),
                alternates := d.alternates.getD (if other then [] else e.alternates) }
            ∧ r'.stations = r.stations.map (fun x => if x.freq = f then e' else x)
            ∧ r'.version =
                if e'.identity = e.identity ∧ e'.name = e.name ∧ e'.tp = e.tp ∧ e'.alternates = e.alternates then r.version
                else (r.version + 1) % 65536))
    ∧ ((∀ e ∈ r.stations, e.freq ≠ f) →
        (q < 25 → r' = r)
        ∧ (25 ≤ q →
            Inserted shields
                { freq := f, qs := q, identity := d.identity, name := d.name, tp := d.tp, alternates := d.alternates.getD [],
                  missed := 0, preset := none, rejected := none, seen := true } r.stations r'.stations
              ∧ r'.version = if r'.stations = r.stations then r.version else (r.version + 1) % 65536))

/-- R81: the entries that a sweep's end leaves. -/
def agedList (shields : Entry → Bool) (xs : List Entry) : List Entry :=
  xs.filterMap fun e =>
    if e.seen then some e.plain
    else if e.missed + 1 < 3 ∨ shields e = true then some { e with missed := min 3 (e.missed + 1), seen := false }
    else none

/-- R121: the uplink microphone in use is the one that the first applicable line gives. -/
def State.micFollows (s : State) : Prop :=
  (∀ st, s.call.placement = .station st → (s.station st).jack = .headset → s.call.mic = .jack st)
    ∧ ((∀ st, s.call.placement = .station st → (s.station st).jack ≠ .headset) →
        (s.call.mode = .driver → s.call.mic = .cabin 0) ∧ (s.call.mode = .passenger → s.call.mic = .cabin 1)
        ∧ (s.call.mode = .rearLeft → s.call.mic = .cabin 2) ∧ (s.call.mode = .rearRight → s.call.mic = .cabin 3)
        ∧ (s.call.mode = .conference → s.call.mic = .cabin s.call.choice))

/-- R120, R189: the fallback of a call's placement at station `st` is told to TELEPHONY and COCKPIT, if there is a call. -/
def FallbackTold (st : StationId) (s t : State) : Prop :=
  s.call.state ≠ .idle → ∀ k, k = Link.telephony ∨ k = Link.cockpit →
    (t.link k).advisories.getLast? = some (.placementFallback st s.call.state)
      ∧ ((s.link k).riseEnable.getLsbD 15 = true → (t.link k).riseLatch.getLsbD 15 = true)

/-- R34, R155, R159: the record of a voice that starts to play descriptor `x` at the request `r`, with start number `k`, at
moment `now`. -/
def Descriptor.opening (x : Descriptor) (r : Request) (k : Nat) (now : Time) : Voice :=
  { state := .playing, desc := some r.desc, position := 0, remaining := x.length,
    repeats := match x.mode with | .once | .chain _ => some 0 | .count n => some (n - 1) | .untilStop _ => none,
    gapLeft := 0, restart := false,
    deadline := match x.mode with | .untilStop ms => some (now + milliseconds ms) | .once | .count _ | .chain _ => none,
    starter := some r.link, number := k, cause := none, successor := none, faded := false }

/-- R157: the record of a voice whose sound begins again, `n` samples long, at once or after a gap `g`. -/
def Voice.resumed (v : Voice) (n g : Nat) : Voice :=
  if g = 0 then { v with state := .playing, position := 0, remaining := n } else { v with state := .gap, gapLeft := g }

/-- R158: the record of a voice that has been stopped with a cause. -/
def Voice.stoppedFor (v : Voice) (cause : EndCause) : Voice :=
  { v with state := .stopping, cause := some cause, faded := false }

/-- R158: the voice's claim, if there is one, is set ending, and no other claim changes. -/
def EndingSet (n : Fin 4) (s t : State) : Prop :=
  t.claim (voiceHandle n.val) = (s.claim (voiceHandle n.val)).map (fun c => { c with ending := true })
    ∧ ∀ k, k ≠ voiceHandle n.val → t.claim k = s.claim k

/-- A voice in PLAYING or GAP. -/
def Voice.sounding (v : Voice) : Prop := v.state = .playing ∨ v.state = .gap

/-- R131: `k` is the echo return loss enhancement, in dB, of a window whose sums of squares are `mic` and `err`: 60 for an error of 0, and
otherwise floor(10·log10(mic / err)), at most 60, that is, the greatest `k` of -4..60 for which 10^k·err^10 ≤ mic^10. -/
def Erle (mic err k : Int) : Prop :=
  let fits : Int → Prop := fun j =>
    if 0 ≤ j then 10 ^ j.toNat * err ^ 10 ≤ mic ^ 10 else err ^ 10 ≤ 10 ^ (-j).toNat * mic ^ 10
  (err = 0 ∧ k = 60) ∨ (err ≠ 0 ∧ -4 ≤ k ∧ k ≤ 60 ∧ fits k ∧ ∀ j, k < j → j ≤ 60 → ¬fits j)

/-- Log entry 9: no event that a frame event makes due is waiting. -/
def State.nothingDue (s : State) : Prop :=
  (∀ k, (s.sink k).clean < 16 ∧ ¬((s.sink k).delayState = .fadeOut ∧ (s.sink k).faded = true)
      ∧ ¬((s.sink k).delayState = .fadeIn ∧ (s.sink k).fade = 0))
    ∧ s.shift.drained = false ∧ s.call.echo.count < 8000
    ∧ ∀ n : Fin 4, ¬((s.voice n.val).state = .playing ∧ (s.voice n.val).remaining = 0)
        ∧ ¬((s.voice n.val).state = .gap ∧ (s.voice n.val).gapLeft = 0)
        ∧ ¬((s.voice n.val).state = .stopping ∧ (s.voice n.val).faded = true)

/-- R153: the words of a sound of `n` samples that starts at word `a` lie in region `g`, CHIME or CLIP, which link `l` may read, and
no WRITE channel is open on any of them. -/
def State.mayPlay (s : State) (l : Link) (g : Region) (a n : Nat) : Prop :=
  g ≠ .shift ∧ (s.store.bounds g).1 ≤ a ∧ a + (n + 1) / 2 ≤ (s.store.bounds g).2 ∧ ((s.store.rights g).get l).read = true
    ∧ s.store.writeOpenOver a (a + (n + 1) / 2) = false

/-! ## What frames carry -/

/-- R67, R70, R71: one demodulated pair as it is heard: zero while the output is zero; mono on MW, where the pair's first sample is the
demodulator's (log entry 57); blended toward mono on FM. -/
def heardSample : Option Heard → WireSample × WireSample → Int × Int
  | none, _ => (0, 0)
  | some ⟨.mw, _⟩, (l, _) => (l.toInt, l.toInt)
  | some ⟨.fm, sep⟩, (l, r) =>
    let mid := (l.toInt + r.toInt) / 2
    let side := (sep : Int) * ((l.toInt - r.toInt) / 2) / 16
    (clampInt (-8388608) 8388607 (mid + side), clampInt (-8388608) 8388607 (mid - side))

/-- R101: the word `i` places behind word `a` in the ring of the SHIFT region. -/
def State.ring (s : State) (a : Addr) (i : Nat) : Addr :=
  BitVec.ofNat 24 (if a.toNat + i < 16777216 then a.toNat + i else s.store.u1 * 65536 + (a.toNat + i - 16777216))

/-- R153: sample `j` of the sound of a descriptor, two to a word, the even one in the upper half. -/
def State.soundSample (s : State) (d : Descriptor) (j : Nat) : Int :=
  let w := s.store.read (d.start + BitVec.ofNat 24 (j / 2))
  if j % 2 = 0 then (w.extractLsb' 16 16).toInt else (w.extractLsb' 0 16).toInt

/-- R13, R14, R103, R156: sample `i` of the 48 pairs that a source hands over at a frame event, the frame's sample periods having passed. A
mono source hands over each sample on both sides, and a 16-bit sample is widened by 8 bits (R1). -/
def State.sampleOf (s : State) (x : FrameInput) (i : Nat) : Source → Int × Int
  | .tunerA => heardSample (s.ports.t0.getD i none) (x.demodA.getD i (0, 0))
  | .tunerB => heardSample (s.ports.t1.getD i none) (x.demodB.getD i (0, 0))
  | .mediaFront => ((s.ports.p0.delivered.getD i []).getD 0 0, (s.ports.p0.delivered.getD i []).getD 1 0)
  | .mediaRear => ((s.ports.p1.delivered.getD i []).getD 0 0, (s.ports.p1.delivered.getD i []).getD 1 0)
  | .nav => ((s.ports.p0.delivered.getD i []).getD 2 0, (s.ports.p0.delivered.getD i []).getD 2 0)
  | .callDown => ((s.ports.p2.delivered.getD i []).getD 0 0, (s.ports.p2.delivered.getD i []).getD 0 0)
  | .voice n =>
    let v := s.voice n.val
    match v.desc.bind s.desc with
    | some d =>
      if (v.state = .playing ∨ v.state = .stopping) ∧ i < v.remaining then
        (256 * s.soundSample d (v.position + i), 256 * s.soundSample d (v.position + i))
      else (0, 0)
    | none => (0, 0)
  | .shift =>
    if (s.shift.state = .replay ∨ s.shift.state = .memoReplay) ∧ i < s.shift.fill then
      let w := s.store.read (s.ring (s.shift.replay.getD s.store.shiftFirst) i)
      (256 * (w.extractLsb' 16 16).toInt, 256 * (w.extractLsb' 0 16).toInt)
    else (0, 0)
  | .silence => (0, 0)

/-- R6, R146: sample `j` of the 16 that a microphone brings to a frame event. -/
def State.micAt (s : State) (x : FrameInput) (j : Nat) : Mic → Int
  | .cabin n => micSample ((x.mics.getD n.val []).getD j 0).val
  | .jack st =>
    if (s.station st).sampling = true ∧ (s.station st).jack = .headset then
      ((x.jacks.getD (match st with | .one => 0 | .two => 1) []).getD j 0).toInt
    else 0

/-- R127: sample `j` of the reference, the mean of the outputs of the sinks `ks` over three sample periods, in 16 bits. -/
def State.referenceAt (s : State) (ks : List Nat) (j : Nat) : Int :=
  let mean : Nat → Int := fun i => ((ks.map fun k => (s.sink k).computed.getD i 0).sum) / (ks.length : Int)
  clampInt (-32768) 32767 (((mean (3 * j) + mean (3 * j + 1) + mean (3 * j + 2)) / 3 + 128) / 256)

/-- R11: what one sample period makes of a tracker whose port has `n` used slots. -/
def PeriodRun (n : Nat) (x y : Tracker) : Prop :=
  (((x.state ≠ .locked ∧ x.state ≠ .holdover) ∨ x.conv.started = false) →
      y = { x with delivered := x.delivered ++ [List.replicate n 0] })
    ∧ ((x.state = .locked ∨ x.state = .holdover) → x.conv.started = true →
      (x.conv.buffer.length < 2 →
          y = { x with delivered := x.delivered ++ [List.replicate n 0],
                       conv := { x.conv with started := false, phase := 0 } })
      ∧ ∀ a b rest, x.conv.buffer = a :: b :: rest →
          y = { x with
            delivered := x.delivered ++ [List.zipWith (fun u v => u + ((v - u) * (x.conv.phase : Int) + 32768) / 65536) a b],
            conv := { x.conv with
              buffer := x.conv.buffer.drop ((x.conv.phase + x.conv.step) / 65536),
              phase := (x.conv.phase + x.conv.step) % 65536 } })

/-- R8: the estimated rate is the mean rate of the good periods kept, within ±2% of the nominal one, and the conversion step is the nearest
to 65,536 times that rate over 48 kHz. -/
def Tracker.estimated (y : Tracker) : Prop :=
  ∃ n total hz, n = 48000000000 * y.periods.length ∧ total = y.periods.sum ∧ hz = y.nominal.getD 48000
    ∧ (100 * n < 98 * hz * total → 100 * y.estimate.num = 98 * hz * y.estimate.den)
    ∧ (102 * hz * total < 100 * n → 100 * y.estimate.num = 102 * hz * y.estimate.den)
    ∧ (98 * hz * total ≤ 100 * n → 100 * n ≤ 102 * hz * total → y.estimate.num * total = n * y.estimate.den)
    ∧ 96000 * y.estimate.den * y.conv.step ≤ 131072 * y.estimate.num + 48000 * y.estimate.den
    ∧ 131072 * y.estimate.num + 48000 * y.estimate.den < 96000 * y.estimate.den * (y.conv.step + 1)

/-! ## Invariants of the blocks -/

/-- R16, R43, R45, R62, R63, R123, R128, R141: how many of each the Mix Engine and the Call Processor hold, and the bounds of delays and
cap. -/
def State.sizesWf (s : State) : Prop :=
  s.mix.sinks.length = 20 ∧ s.mix.volumes.length = 5 ∧ s.mix.mutes.length = 7
    ∧ (∀ y ∈ s.mix.sinks, y.line.length = 960 ∧ y.delay ≤ 960 ∧ ∀ d, y.pendingDelay = some d → d ≤ 960)
    ∧ 0 ≤ s.stations.cap ∧ s.stations.cap ≤ 120
    ∧ s.call.echo.coeffs.length = 2048 ∧ s.call.echo.history.length = 2048 ∧ s.call.recent.length = 4

/-- R47: at most 6 contributions, each applied attenuation within -24..360. -/
def Sink.bounded (x : Sink) : Prop := x.list.length ≤ 6 ∧ ∀ c ∈ x.list, -24 ≤ c.applied ∧ c.applied ≤ 360

def Mix.bounded (m : Mix) : Prop := ∀ x ∈ m.sinks, x.bounded

/-- A 24-bit sample (R1). -/
def inSample (x : Int) : Prop := -8388608 ≤ x ∧ x ≤ 8388607

/-- R58, R62: every sum kept in the delay line and every output sample is a 24-bit one, and the output fade is one of 0..360. -/
def Sink.inRange (x : Sink) : Prop :=
  (∀ y ∈ x.line, inSample y) ∧ (∀ y ∈ x.computed, inSample y) ∧ (∀ y ∈ x.sending, inSample y) ∧ x.fade ≤ 360

def Mix.inRange (m : Mix) : Prop := ∀ x ∈ m.sinks, x.inRange

/-- R19: the claimant that an entry belongs to. -/
def fitsHandle (h : Nat) : Claimant → Prop
  | .link _ => h < 10
  | .radio => h = 10
  | .call => h = 11
  | .voice n => h = 12 + n.val

/-- R18 to R21: 16 entries, each held by a claimant of its own, sequence numbers of 1 up to the counter, no two alike. -/
def ClaimTable.wf (t : ClaimTable) : Prop :=
  t.entries.length = 16 ∧ t.counter ≤ seqMax
    ∧ (∀ (h : Nat) (c : Claim), t.entries[h]? = some (some c) → fitsHandle h c.claimant ∧ 1 ≤ c.seq ∧ c.seq ≤ t.counter)
    ∧ (∀ (h k : Nat) (c d : Claim), t.entries[h]? = some (some c) → t.entries[k]? = some (some d) → c.seq = d.seq → h = k)

/-- R19, R36: the CALL claim stands exactly while the call is not IDLE, and a voice's claim exactly while the voice is not. -/
def State.claimsFollow (s : State) : Prop :=
  s.chime.voices.length = 4 ∧ ((s.claim callHandle).isSome ↔ s.call.state ≠ .idle)
    ∧ ∀ n : Fin 4, (s.claim (voiceHandle n.val)).isSome ↔ (s.voice n.val).state ≠ .idle

/-- R78: at most 48 entries, in strictly rising list order, presets 1..12, each on at most one entry. -/
def stationsWf (xs : List Entry) : Prop :=
  xs.length ≤ 48 ∧ xs.Pairwise (fun a b => a.freq.before b.freq = true)
    ∧ (∀ e ∈ xs, ∀ p, e.preset = some p → 1 ≤ p ∧ p ≤ 12)
    ∧ xs.Pairwise (fun a b => ∀ p, a.preset = some p → b.preset ≠ some p)

/-- R101, R170: bounds in order; while OFF the Shift Buffer is empty and holds no position; otherwise both positions lie in the
SHIFT region, and the fill is at most its size. -/
def State.shiftWf (s : State) : Prop :=
  s.store.u0 ≤ s.store.u1 ∧ s.store.u1 ≤ 256
    ∧ (s.shift.state = .off →
        s.shift.fill = 0 ∧ s.shift.write = none ∧ s.shift.replay = none ∧ s.shift.wrapped = false ∧ s.shift.running = false)
    ∧ (s.shift.state ≠ .off →
        s.shift.fill ≤ s.store.shiftSize ∧ s.store.shiftSize ≠ 0
          ∧ (∃ w, s.shift.write = some w ∧ s.store.u1 * 65536 ≤ w.toNat)
          ∧ ∃ p, s.shift.replay = some p ∧ s.store.u1 * 65536 ≤ p.toNat)

/-- R99, R100, R109: the memo states are those of purpose MEMO, a memo is being captured only while an announcement is in progress, and
an announcement in progress while the buffer holds a memo counts as CAPTURED. -/
def State.memoWf (s : State) : Prop :=
  (s.shift.purpose = some .memo ↔
      s.shift.state = .memoCapture ∨ s.shift.state = .memoHeld ∨ s.shift.state = .memoReplay)
    ∧ (s.shift.state = .memoCapture → s.traffic.announcing = true)
    ∧ (s.shift.purpose = some .memo → s.traffic.announcing = true → s.traffic.outcome = some .captured)

/-- R12, R65, R93, R99, R113, R167, R198: what stands still while the hub is not in RUN. -/
def State.parkedWf (s : State) : Prop :=
  (s.store.initialising = true → s.power.state = .sleep)
    ∧ (s.power.state ≠ .run →
        (∀ x ∈ s.mix.sinks, x.list = [] ∧ x.waiting = []) ∧ (∀ p, (s.tracker p).state = .absent) ∧ s.tunA.state = .off
          ∧ s.tunA.rx.decoder = .empty ∧ s.tunA.saved = none
          ∧ s.tunB.holder = none ∧ (s.tunB.state = .off ∨ (s.tunB.state = .refresh ∧ s.power.state = .quiet))
          ∧ (∀ n : Fin 4, (s.voice n.val).state = .idle) ∧ s.shift.state = .off ∧ s.traffic.announcing = false)

/-- R85: in RUN, Tuner B's state is the one that its assignment gives. -/
def State.assigned (s : State) : Prop :=
  s.power.state = .run →
    match s.tunB.holder, s.traffic.watch with
    | some _, _ => s.tunB.state = .held
    | none, some f => s.tunB.state = .watch ∧ s.tunB.rx.freq = f
    | none, none => s.tunB.state = if s.radio.scan then .scan else .idle

/-- R189: every advisory list keeps at most 4. -/
def State.advisoriesWf (s : State) : Prop := ∀ k, (s.link k).advisories.length ≤ 4

/-! ## Conditions and sequence numbers -/

/-- R33, R186: when the level of condition `k` is true for link `l`. -/
def State.condition (s : State) (l : Link) (k : Nat) : Prop :=
  match k with
  | 0 => s.call.state = .active ∨ s.call.state = .held
  | 1 => s.call.state = .ringing
  | 2 => s.traffic.announcing = true
  | 3 => s.shift.state ≠ .off
  | 4 => s.shift.wrapped = true
  | 5 => (s.station .one).jack ≠ .vacant
  | 6 => (s.station .two).jack ≠ .vacant
  | 7 => (s.tunA.state = .tuned ∨ s.tunA.state = .afCheck) ∧ 30 ≤ s.tunA.rx.qs
  | 8 => s.tunB.state = .held
  | 9 => s.call.echo.state = .converged
  | 10 => ∃ h c, s.claim h = some c ∧ c.claimant = .link l ∧ c.kind = .exclusive ∧ ∀ z d, s.table.base z ≠ some (h, d)
  | _ => False

/-- How many sequence numbers there are: those of the claims held and a retained one. -/
def State.numbered (s : State) : Nat :=
  (s.table.entries.filterMap id).length + (if s.traffic.retained.isSome then 1 else 0)

/-- R21: the sequence numbers of `t` are those of `s` given afresh, from 1 to their number, the order of every pair kept, in every entry
but `h`; a retained one is among them. -/
def Renumbered (h : Nat) (s t : State) : Prop :=
  (∀ k, k ≠ h → s.claim k = none → t.claim k = none)
    ∧ (∀ k c, k ≠ h → s.claim k = some c → ∃ q, t.claim k = some { c with seq := q } ∧ 1 ≤ q ∧ q ≤ s.numbered)
    ∧ (∀ j k c d c' d', j ≠ h → k ≠ h → s.claim j = some c → s.claim k = some d → t.claim j = some c' → t.claim k = some d' →
        (c.seq < d.seq ↔ c'.seq < d'.seq))
    ∧ (s.traffic.retained = none → t.traffic.retained = none)
    ∧ ∀ q, s.traffic.retained = some q → ∃ q', t.traffic.retained = some q' ∧ 1 ≤ q' ∧ q' ≤ s.numbered
        ∧ ∀ k c c', k ≠ h → s.claim k = some c → t.claim k = some c' →
            (c.seq < q ↔ c'.seq < q') ∧ (q < c.seq ↔ q' < c'.seq)

/-! ## Traffic announcements and the memo -/

/-- The four zones of the RADIO claim (R35). -/
def memoZones : List Zone := [.front, .rear, .cargo, .sub]

/-- R97, R98: in RUN with traffic on, an FM group that tuner `u` takes leaves `u` the traffic source: Tuner A TUNED with no watch request,
or Tuner B past its settle in WATCH on a request whose entry keeps its TP flag, with Tuner A not eligible. -/
def State.servesTraffic (s : State) (u : TunerId) : Prop :=
  s.power.state = .run ∧ s.traffic.on = true ∧ s.assigned ∧ (s.receiver u).freq.band = .fm
    ∧ (u = .a → s.tunA.state = .tuned ∧ s.tunA.saved = none ∧ s.traffic.watch = none)
    ∧ (u = .b → s.tunB.state = .watch ∧ s.tunB.settling = false ∧ s.traffic.eligible = false ∧ s.tunA.serving = false
        ∧ ∃ f e, s.traffic.watch = some f ∧ findEntry s.radio.stations f = some e ∧ e.tp = some true)

/-- R100: a memo of the announcement from tuner `u` is considered, memo being on and the RADIO claim the base of none of its sinks. -/
def MemoConsidered (u : TunerId) (s t : State) : Prop :=
  (s.shift.state = .off → s.store.shiftSize ≠ 0 → t.traffic.outcome = some .captured ∧ RiseLatched 3 s t
      ∧ t.shift = { state := .memoCapture, purpose := some .memo, cause := none, captured := some u, running := true,
                    write := some s.store.shiftFirst, replay := some s.store.shiftFirst, fill := 0, wrapped := false,
                    drained := false })
    ∧ (s.shift.state = .off → s.store.shiftSize = 0 → t.traffic.outcome = some .missed ∧ t.shift = s.shift
        ∧ (t.link .cockpit).advisories = joinAdvisory (s.link .cockpit).advisories (.taMissed .noRegion (.tuner u)))
    ∧ (s.shift.state = .capture ∨ s.shift.state = .replay → t.traffic.outcome = some .missed ∧ t.shift = s.shift
        ∧ (t.link .cockpit).advisories = joinAdvisory (s.link .cockpit).advisories (.taMissed .busy (.tuner u)))

/-- R99, R100, R111: an announcement from tuner `u` starts: TRAFFIC_ON rises; the RADIO claim is posted, but in MEMO_REPLAY, where it
stands; a memo is considered where the claim is the base of no sink, and what the Shift Buffer held of a memo is added to. -/
def AnnouncementStarts (u : TunerId) (s t : State) : Prop :=
  t.traffic.announcing = true ∧ t.traffic.source = .tuner u ∧ RiseLatched 2 s t
    ∧ (s.shift.state = .memoReplay → t.traffic.outcome = some .captured ∧ t.table = s.table
        ∧ t.shift = { s.shift with captured := some u, running := true })
    ∧ ∀ c, c = { radioClaim (sourceOfTuner u) with seq := s.table.counter + 1 } →
      (s.shift.state = .memoHeld →
        t.table.counter = s.table.counter + 1 ∧ (∀ k, k ≠ radioHandle → t.claim k = s.claim k)
          ∧ t.traffic.retained = none ∧ t.traffic.outcome = some .captured
          ∧ (t.table.basedZones radioHandle = 0 → t.claim radioHandle = some c
              ∧ t.shift = { s.shift with state := .memoCapture, captured := some u, running := true })
          ∧ (t.table.basedZones radioHandle ≠ 0 → t.claim radioHandle = some { c with source := .shift }
              ∧ t.shift = { s.shift with state := .memoReplay, captured := some u, running := true }))
      ∧ (s.shift.state = .off ∨ s.shift.state = .capture ∨ s.shift.state = .replay →
        t.table.counter = s.table.counter + 1 ∧ (∀ k, k ≠ radioHandle → t.claim k = s.claim k) ∧ t.claim radioHandle = some c
          ∧ (t.table.basedZones radioHandle ≠ 0 ∨ s.traffic.memo = false →
              t.traffic.outcome = some .none ∧ t.shift = s.shift ∧ ∀ k, (t.link k).advisories = (s.link k).advisories)
          ∧ (t.table.basedZones radioHandle = 0 → s.traffic.memo = true → MemoConsidered u s t))

/-- R110: with sequence number `q`, a NORMAL EXCLUSIVE claim on the RADIO claim's zones would be the base of one of them, the claims that
`gone` names left aside. -/
def State.wouldSound (s : State) (q : Nat) (gone : Nat → Prop) : Prop :=
  ∃ z ∈ memoZones, ∀ (k : Nat) (d : Claim), ¬gone k → s.claim k = some d → d.kind = .exclusive → hasZone d.zones z = true →
    d.tier = .normal ∧ d.seq ≤ q

/-- R99, R109, R110: the announcement from tuner `u` ends: TRAFFIC_ON falls; a RADIO claim on a tuner is removed, and one that replays a
memo stays while capture stops; a memo capture whose claim stays outranked becomes a held memo that retains the sequence number. -/
def AnnouncementEnds (u : TunerId) (s t : State) : Prop :=
  t.traffic.announcing = false ∧ t.traffic.outcome = none ∧ t.traffic.source = .tuner u ∧ FallLatched 2 s t
    ∧ ∀ c, s.claim radioHandle = some c →
      (s.shift.state = .memoReplay → c.source = .shift → t.table = s.table ∧ t.shift = { s.shift with running := false })
      ∧ (s.shift.state = .off ∨ s.shift.state = .capture ∨ s.shift.state = .replay → c.source ≠ .shift →
          t.claim radioHandle = none ∧ (∀ k, k ≠ radioHandle → t.claim k = s.claim k) ∧ t.shift = s.shift)
      ∧ (s.shift.state = .memoCapture → c.source ≠ .shift → ¬s.wouldSound c.seq (· = radioHandle) →
          t.claim radioHandle = none ∧ (∀ k, k ≠ radioHandle → t.claim k = s.claim k) ∧ t.traffic.retained = some c.seq
            ∧ t.shift = { s.shift with state := .memoHeld, running := false })

/-- R98: the entry on which a watch request is set, of highest Qs among the FM entries with the TP flag set, the first of equals. -/
def watchedEntry (xs : List Entry) (e : Entry) : Prop :=
  ∃ before behind, xs = before ++ e :: behind ∧ e.freq.band = .fm ∧ e.tp = some true
    ∧ (∀ x ∈ before, x.freq.band = .fm → x.tp = some true → x.qs < e.qs)
    ∧ ∀ x ∈ behind, x.freq.band = .fm → x.tp = some true → x.qs ≤ e.qs

/-- R90: an FM frequency, in kHz, to which Tuner A may switch. -/
def State.switchable (s : State) (k : Nat) : Prop :=
  ((∃ e ∈ s.radio.stations, e.freq = ⟨.fm, k⟩ ∧ e.identity = s.tunA.rx.decoder.data.identity)
      ∨ ∃ ks, s.tunA.rx.decoder.data.alternates = some ks ∧ k ∈ ks)
    ∧ s.tunA.rx.freq ≠ ⟨.fm, k⟩ ∧ ∀ e ∈ s.radio.stations, e.freq = ⟨.fm, k⟩ → e.rejected = none

end Sys2Proof.Machine
end

