-- ==== Sys2Proof/Certificates/Slice0/Obligations.lean ====
section
/-! DEFINITION. The statements about the hub, for the provers. In each, `s` is any state that meets the hypotheses, reached by a run
or not; `r` is the reply that the link's slot holds, and `f` the request frame as clocked in. -/

open Sys2Proof Sys2Proof.Machine

/-! ## The machine -/

/-- Log entry 3: a step is the command at the front of the queue, executed with the queue's rest. -/
def Obligations.StepRunsFront : Prop :=
  ∀ (c : Instr) (rest : List Instr) (s : State), step (s.withPending (c :: rest)) = exec c (s.withPending rest)

/-- No command stops the hub, and none touches the queue (R183, R184: every request has its answer).
The model's own choice here: log entry 6. -/
def Obligations.EveryCommandCompletes : Prop :=
  ∀ (c : Instr) (s : State), ∃ t, exec c s = .next t ∧ t.pending = s.pending

/-- R182, section 12.2: the bytes of a request spell that request again, for every order and every code that names none. -/
def Obligations.RequestRoundTrip : Prop :=
  ∀ (i : Instr) (c : Byte) (l : Link) (f : Frame), i.wf = true → i.request = some (c, l, f) →
    requestOf l (c :: f.len :: f.bytes) = i

/-- An order that is answered with anything but DONE or ACCEPTED has an empty answer and no other effect (in RUN, or with an idle voice,
as always outside RUN). An order of a link that may not issue it is NOT_PERMITTED, unless its frame is short or carries another length
than the order accepts, which the checks that come before answer with BAD_OPERAND (R184, R185). -/
def Obligations.RefusedOrdersHaveNoEffect : Prop :=
  (∀ (i : Instr) (c : Byte) (l : Link) (f : Frame) (s : State) (r : Reply),
    i.request = some (c, l, f) → s.holds l r → (s.power.state = .run ∨ ∃ n : Fin 4, (s.voice n.val).state = .idle) →
      ∃ t a, exec i s = .next t ∧ (t.link l).slot = .pending a
        ∧ (c ≠ 177 ∨ (∀ k, s.waiting k = none) → Exchanged l f r a s t)
        ∧ (a.status ≠ .done → a.status ≠ .accepted →
            a.length = 0 ∧ a.results = [] ∧ Taken l f r a [] s t ∧ Unreported s t))
  ∧ ∀ (i : Instr) (c : Byte) (l : Link) (f : Frame) (s : State) (r : Reply),
    i.wf = true → i.request = some (c, l, f) → c.toNat ∈ orderCodes → mayIssue c.toNat l = false → s.holds l r →
      ∃ t x, exec i s = .next t ∧ Taken l f r (.plain x) [] s t ∧ Unreported s t
        ∧ x = if f.len.toNat ≤ f.bytes.length ∧ orderLength c.toNat = some f.len.toNat then .notPermitted else .badOperand

/-- The invariants below hold in the reset state, which is in SLEEP with its store filling (R198).
The model's own choice here: log entries 20 and 21. -/
def Obligations.ResetMeetsInvariants : Prop :=
  State.reset.store.wf = true ∧ State.reset.mix.bounded ∧ State.reset.mix.inRange ∧ State.reset.sizesWf ∧ State.reset.table.wf
    ∧ State.reset.claimsFollow ∧ stationsWf State.reset.radio.stations ∧ State.reset.shiftWf ∧ State.reset.memoWf
    ∧ State.reset.parkedWf ∧ State.reset.assigned ∧ State.reset.advisoriesWf
    ∧ State.reset.power.state = .sleep ∧ State.reset.store.initialising = true ∧ State.reset.pending = []

/-! ## Invariants of every step -/

/-- The listing of the Sample Store's words keeps its canonical form (R169, R179). The model's own choice here: log entry 29. -/
def Obligations.StepKeepsStoreForm : Prop :=
  ∀ s t : State, s.store.wf = true → step s = .next t → t.store.wf = true

/-- R47: no sink holds more than 6 contributions, and every applied attenuation lies within -24..360. -/
def Obligations.StepKeepsContributions : Prop :=
  ∀ s t : State, s.mix.bounded → step s = .next t → t.mix.bounded

/-- R58, R62: every sum and every output sample of every sink is a 24-bit one. R16, R43, R45, R62, R63, R123, R128, R141: the Mix Engine
and the Call Processor keep as many sinks, zones, line places, coefficients and microphones as the manual gives them. -/
def Obligations.StepKeepsSampleRange : Prop :=
  ∀ s t : State, step s = .next t → (s.mix.inRange → t.mix.inRange) ∧ (s.sizesWf → t.sizesWf)

/-- R18 to R21: entries held by their own claimants, and sequence numbers that are all different and at most the counter. -/
def Obligations.StepKeepsClaimTable : Prop :=
  ∀ s t : State, s.table.wf → step s = .next t → t.table.wf

/-- R19, R36: the CALL claim exists exactly while the call is not IDLE, a voice's exactly while the voice is not. -/
def Obligations.StepKeepsInternalClaims : Prop :=
  ∀ s t : State, s.table.wf → s.claimsFollow → step s = .next t → t.claimsFollow

/-- R78: the Station List holds at most 48 entries, in strict order, each preset number on at most one. R189: an advisory list keeps at
most 4. -/
def Obligations.StepKeepsLists : Prop :=
  ∀ s t : State, step s = .next t →
    (stationsWf s.radio.stations → stationsWf t.radio.stations) ∧ (s.advisoriesWf → t.advisoriesWf)

/-- R101, R170: bounds in order, positions in the SHIFT region, and the fill at most its size and 0 while OFF. -/
def Obligations.StepKeepsShiftBuffer : Prop :=
  ∀ s t : State, s.shiftWf → step s = .next t → t.shiftWf

/-- What a memo is, in every state (R99, R100, R109); and outside RUN no sink holds a contribution, every tracker is ABSENT, Tuner A is OFF
without data, no station holds Tuner B, and Tuner B is OFF but for a refresh sweep in QUIET, every voice is IDLE, the Shift Buffer is OFF
and no announcement is in progress (R12, R65, R93, R99, R113, R167, R198). -/
def Obligations.StepKeepsParkedBlocks : Prop :=
  ∀ s t : State, s.memoWf → step s = .next t → t.memoWf ∧ (s.parkedWf → t.parkedWf)

/-- R85: in RUN, Tuner B's state is at every moment the one that its assignment gives. -/
def Obligations.StepKeepsAssignment : Prop :=
  ∀ s t : State, s.parkedWf → s.assigned → step s = .next t → t.assigned

/-- No command but FRAME_EVENT and POWER_ON changes a word of the Sample Store, and neither does the passage of time; REPLY_READY and
HUB_RESET change none unless words of a STORE_DATA are waiting to be moved. The model's own choice here: log entry 28. -/
def Obligations.StoreWordsStand : Prop :=
  (∀ s t : State, s.pending = [] → step s = .next t → t.store.words = s.store.words)
  ∧ ∀ (c : Instr) (s t : State), exec c s = .next t →
    (∀ x, c ≠ .frameEvent x) → (∀ ignition j1 j2, c ≠ .powerOn ignition j1 j2) →
    ((∃ l, c = .replyReady l) ∨ (∃ l f, c = .hubReset l f) → ∀ k, s.waiting k = none) → t.store.words = s.store.words

/-! ## The Claim Table and the gain law -/

/-- R23, R24: the base of a zone is the newest EXCLUSIVE claim of the highest tier that covers it, and none only where no EXCLUSIVE claim
does: there the Mix Engine is given the program, the cabin's or the station's own, and elsewhere that claim. An OVERLAY claim is mixed
where its tier is at least the base's, the program's tier being 0, and suppressed elsewhere. The cabin's program plays SILENCE while a
pause is captured, SHIFT while it is replayed, and the selected source otherwise (R41). -/
def Obligations.Resolution : Prop :=
  ∀ (s : State) (t : ClaimTable) (z : Zone), t = s.table →
    ((s.shift.purpose = some .pause → s.shift.state = .capture → s.playing = .silence)
      ∧ (s.shift.purpose = some .pause → s.shift.state = .replay → s.playing = .shift)
      ∧ (¬(s.shift.purpose = some .pause ∧ (s.shift.state = .capture ∨ s.shift.state = .replay)) → s.playing = s.mix.selected))
    ∧ (t.base z = none ↔ ∀ (h : Nat) (c : Claim), t.entries[h]? = some (some c) → ¬(c.kind = .exclusive ∧ hasZone c.zones z = true))
    ∧ (t.base z = none →
        s.wantedBase z = ⟨.program, match z.station with | some st => (s.station st).source | none => s.playing, none, .medium⟩)
    ∧ (∀ h c, t.base z = some (h, c) →
        s.wantedBase z = ⟨.handle h, c.source, some .exclusive, c.ramp⟩
          ∧ t.entries[h]? = some (some c) ∧ c.kind = .exclusive ∧ hasZone c.zones z = true
          ∧ ∀ (k : Nat) (d : Claim), t.entries[k]? = some (some d) → d.kind = .exclusive → hasZone d.zones z = true →
              d.tier.rank < c.tier.rank ∨ (d.tier = c.tier ∧ d.seq ≤ c.seq))
    ∧ (t.base z = none → t.baseRank z = 0) ∧ (∀ h c, t.base z = some (h, c) → t.baseRank z = c.tier.rank)
    ∧ ∀ (h : Nat) (c : Claim),
        ((h, c) ∈ t.mixed z ↔
          t.entries[h]? = some (some c) ∧ c.kind = .overlay ∧ hasZone c.zones z = true ∧ t.baseRank z ≤ c.tier.rank)
        ∧ ((h, c) ∈ t.suppressed z ↔
          t.entries[h]? = some (some c) ∧ c.kind = .overlay ∧ hasZone c.zones z = true ∧ c.tier.rank < t.baseRank z)

/-- R56: the multiplier of every attenuation, with M(k) the integer nearest to 32,768 × 2^(-k/24). -/
def Obligations.GainLaw : Prop :=
  gain 360 = 0
    ∧ (∀ a : Int, -24 ≤ a → a < 360 → ∃ (q : Int) (k : Nat) (m : Int),
        a = 24 * q + k ∧ k < 24 ∧ mantissas[k]? = some m ∧ 0 ≤ gain a ∧ gain a ≤ 65536
          ∧ (q = -1 → gain a = 2 * m) ∧ (q = 0 → gain a = m)
          ∧ (1 ≤ q → gain a = (m + 2 ^ (q.toNat - 1)) / 2 ^ q.toNat))
    ∧ ∀ (k : Nat) (m : Int), mantissas[k]? = some m →
        (2 * m - 1) ^ 24 * 2 ^ k < 2 ^ 384 ∧ (2 : Int) ^ 384 < (2 * m + 1) ^ 24 * 2 ^ k

/-! ## Orders to the Mix Engine -/

/-- SET_PROGRAM naming another selectable source (R42), by which a paused broadcast is discarded (R113). SET_VOLUME on speaker zones
(R43) and SET_TRIM on a sink and on each of the three sources (R44). MUTE_SET adds the issuing link to the named zones' mute sets and
MUTE_CLEAR removes it; no other membership changes (R46). -/
def Obligations.MixSettings : Prop :=
  (∀ (f : Frame) (s : State) (r : Reply) (x : Byte) (src : Source),
    s.holds .cockpit r → f.carries [x] → sourceOf x.toNat = some src →
    (src = .tunerA ∨ src = .mediaFront ∨ src = .mediaRear ∨ src = .silence) → src ≠ s.mix.selected →
    ∃ t, exec (.setProgram .cockpit f) s = .next t ∧ t.mix = { s.mix with selected := src }
      ∧ (s.shift.purpose ≠ some .pause → Taken .cockpit f r (.plain .done) [.mix] s t ∧ Unreported s t)
      ∧ (s.shift.purpose = some .pause → s.shift.state ≠ .off →
          Taken .cockpit f r (.plain .done) [.mix, .shift, .store] s t ∧ t.shift = .off ∧ FallLatched 3 s t
            ∧ (t.link .cockpit).advisories =
                joinAdvisory (s.link .cockpit).advisories (.shiftDiscarded .program s.shift.state s.shift.fill)))
  ∧ (∀ (f : Frame) (s : State) (r : Reply) (z : Byte) (v : Half) (zs : ZoneSet),
    s.holds .cockpit r → f.carries (z :: half v) → zoneSetOf z.toNat = some zs → zs ≠ 0 → within zs speakerZones = true →
    s.mix.volumes.length = 5 →
    ∃ t, exec (.setVolume .cockpit f) s = .next t ∧ Taken .cockpit f r (.plain .done) [.mix] s t ∧ Unreported s t
      ∧ t.mix = { s.mix with volumes := t.mix.volumes }
      ∧ ∀ zn ∈ Zone.speakers, t.mix.volumes.getD zn.code 120 =
          if hasZone zs zn then clampInt 0 360 v.toInt else s.mix.volumes.getD zn.code 120)
  ∧ (∀ (f : Frame) (s : State) (r : Reply) (k : Byte) (v : Half),
    s.holds .cockpit r → f.carries (k :: half v) → (k.toNat < 20 ∨ (32 ≤ k.toNat ∧ k.toNat ≤ 34)) →
    ∃ t, exec (.setTrim .cockpit f) s = .next t ∧ Taken .cockpit f r (.plain .done) [.mix] s t ∧ Unreported s t
      ∧ (k.toNat < 20 → t.mix = { s.mix with
          sinks := s.mix.sinks.set k.toNat { s.sink k.toNat with trim := clampInt (-24) 48 v.toInt } })
      ∧ (k.toNat = 32 → t.mix = { s.mix with trimFront := clampInt 0 48 v.toInt })
      ∧ (k.toNat = 33 → t.mix = { s.mix with trimRear := clampInt 0 48 v.toInt })
      ∧ (k.toNat = 34 → t.mix = { s.mix with trimNav := clampInt 0 48 v.toInt }))
  ∧ ∀ (f : Frame) (s : State) (r : Reply) (l : Link) (z : Byte) (zs : ZoneSet) (on : Bool),
    s.holds l r → f.carries [z] → zoneSetOf z.toNat = some zs → zs ≠ 0 → s.mix.mutes.length = 7 →
    (l = .cockpit ∨ (l = .body ∧ within zs speakerZones = true)
      ∨ (l = .rear ∧ within zs stationZones = true ∧ s.stations.lock = false)) →
    ∃ t, exec (if on then .muteSet l f else .muteClear l f) s = .next t ∧ Taken l f r (.plain .done) [.mix] s t
      ∧ Unreported s t ∧ t.mix = { s.mix with mutes := t.mix.mutes }
      ∧ ∀ zn k, hasLink (t.mute zn) k = if hasZone zs zn ∧ k = l then on else hasLink (s.mute zn) k

/-- SET_DELAY in each delay state and outside RUN (R63), the two ends of a delay change, the first of which comes once a whole frame has
gone out at 360 (R63) and resets the canceller where the delay changes on a sink of the reference set (R133), and the release of a clip
guard (R61). The model's own choices here: log entries 9 and 60 (the reference set that a delay change asks for is that of the last frame
event). -/
def Obligations.DelayAndGuard : Prop :=
  (∀ (f : Frame) (s : State) (r : Reply) (k : Byte) (v : Half) (x : Sink) (d : Nat),
    s.holds .cockpit r → f.carries (k :: half v) → k.toNat < 20 → x = s.sink k.toNat → d = min 960 v.toNat →
    ∃ t y, exec (.setDelay .cockpit f) s = .next t ∧ Taken .cockpit f r (.plain .done) [.mix] s t ∧ Unreported s t
      ∧ t.mix = { s.mix with sinks := s.mix.sinks.set k.toNat y }
      ∧ (s.power.state ≠ .run → y = { x with delay := d })
      ∧ (s.power.state = .run → x.delayState = .steady → d = x.delay → y = x)
      ∧ (s.power.state = .run → x.delayState = .steady → d ≠ x.delay →
          y = { x with pendingDelay := some d, delayState := .fadeOut })
      ∧ (s.power.state = .run → x.delayState = .fadeOut → y = { x with pendingDelay := some d })
      ∧ (s.power.state = .run → x.delayState = .fadeIn → y = { x with pendingDelay := some d, delayState := .fadeOut }))
  ∧ ∀ (k : Fin 20) (s : State) (x : Sink), x = s.sink k.val →
    (16 ≤ x.clean → ∃ t, exec (.clipGuardRelease k) s = .next t ∧ Happens [.mix] s t ∧ Unreported s t
      ∧ t.mix = { s.mix with sinks := s.mix.sinks.set k.val { x with guard := x.guard - 1, clean := 0 } })
    ∧ (x.delayState = .fadeOut → x.faded = true → ∃ t, exec (.delayFadeOutEnd k) s = .next t ∧ Happens [.mix, .call] s t
      ∧ t.mix = { s.mix with
          sinks := s.mix.sinks.set k.val
            { x with delay := x.pendingDelay.getD x.delay, pendingDelay := none, delayState := .fadeIn, faded := false } }
      ∧ (x.pendingDelay.getD x.delay ≠ x.delay → hasZone s.call.refZones (Zone.ofSink k.val) = true →
          t.call = { s.call with echo := s.call.echo.reset })
      ∧ (x.pendingDelay.getD x.delay = x.delay ∨ hasZone s.call.refZones (Zone.ofSink k.val) = false → t.call = s.call))
    ∧ (x.delayState = .fadeIn → x.fade = 0 → ∃ t, exec (.delayFadeInEnd k) s = .next t ∧ Happens [.mix] s t
      ∧ Unreported s t
      ∧ t.mix = { s.mix with sinks := s.mix.sinks.set k.val { x with delayState := .steady } })

/-- SPEED and its staleness (R59), and SET_SPEED_CURVE with strictly ascending clamped speeds; the boost that a curve of ascending speeds
gives, between two breakpoints by interpolation truncated toward zero (R60). The model's own choice here: log
entry 7, by which SPEED_STALE brings the clock to the moment it is due. -/
def Obligations.SpeedAndCurve : Prop :=
  (∀ (f : Frame) (s : State) (r : Reply) (v : Half), s.holds .body r → f.carries (half v) →
    ∃ t, exec (.speed .body f) s = .next t ∧ Taken .body f r (.plain .done) [.mix] s t ∧ Unreported s t
      ∧ t.mix = { s.mix with speed := min 250 v.toNat, stale := false, speedAt := s.clock.now })
  ∧ (∀ s : State, s.mix.stale = false →
      ∃ t, exec .speedStale s = .next t ∧ Happens [.clock, .ports, .mix] s t ∧ Unreported s t
        ∧ t.mix = { s.mix with stale := true } ∧ t.clock.now = max s.clock.now (s.mix.speedAt + seconds 2))
  ∧ (∀ (v : Nat) (pts : List (Nat × Int)), (pts.map Prod.fst).Pairwise (· < ·) →
      (∀ p rest, pts = p :: rest → v < p.1 → boostAt v pts = p.2)
      ∧ (∀ before p, pts = before ++ [p] → p.1 ≤ v → boostAt v pts = p.2)
      ∧ ∀ before p q rest, pts = before ++ p :: q :: rest → p.1 ≤ v → v < q.1 →
          boostAt v pts = p.2 + ((q.2 - p.2) * ((v : Int) - (p.1 : Int))).tdiv ((q.1 : Int) - (p.1 : Int)))
  ∧ ∀ (f : Frame) (s : State) (r : Reply) (pts : List (Half × Half)) (z : Byte) (zs : ZoneSet),
    s.holds .cockpit r → pts.length = 6 → f.carries (pts.flatMap (fun p => half p.1 ++ half p.2) ++ [z]) →
    zoneSetOf z.toNat = some zs → within zs speakerZones = true → (pts.map fun p => min 250 p.1.toNat).Pairwise (· < ·) →
    ∃ t, exec (.setSpeedCurve .cockpit f) s = .next t ∧ Taken .cockpit f r (.plain .done) [.mix] s t ∧ Unreported s t
      ∧ t.mix = { s.mix with
          curve := pts.map (fun p => (min 250 p.1.toNat, clampInt 0 48 p.2.toInt)), curveZones := zs }

/-! ## Orders to the Claim Table -/

/-- An accepted CLAIM: the record posted in the lowest free general entry, with the next sequence number, and the reply of R29. Of the
other entries only the RADIO claim's may change, by its owner (R26). A RADIO claim of an announcement not yet considered, which the new
claim leaves the base of no sink, has a memo of it considered, if memo is on; otherwise the Traffic and Shift Unit stands (R100). Every
posting takes the number after the counter's; where that would pass the largest, the numbers held, a retained one among them, are given
afresh from 1 in their order first (R20, R21). -/
def Obligations.ClaimPosts : Prop :=
  (∀ (f : Frame) (s u : State) (r : Reply) (l : Link) (a b z x q : Byte) (lv dk : Half) (tier : Tier) (kind : Kind)
    (zs : ZoneSet) (src : Source) (ramp : Ramp) (h : Nat) (c : Claim),
    s.holds l r → f.carries ([a, b, z, x] ++ half lv ++ half dk ++ [q]) →
    tierOf a.toNat = some tier → kindOf b.toNat = some kind → zoneSetOf z.toNat = some zs → zs ≠ 0 →
    sourceOf x.toNat = some src → rampOf q.toNat = some ramp →
    (src = .tunerA ∨ src = .tunerB ∨ src = .mediaFront ∨ src = .mediaRear ∨ src = .nav ∨ src = .silence) →
    ((l = .cockpit ∧ tier = .normal) ∨ (l = .body ∧ tier ≠ .call ∧ within zs speakerZones = true)
      ∨ (l = .rear ∧ tier = .normal ∧ within zs stationZones = true ∧ s.stations.lock = false)) →
    s.table.entries.length = 16 → h < 10 → s.claim h = none → (∀ k, k < h → (s.claim k).isSome) →
    c = { claimant := .link l, tier := tier, kind := kind, zones := zs, source := src,
          level := some (clampInt (-24) 359 lv.toInt),
          duck := if kind = .overlay then some (clampInt 0 120 dk.toInt) else none,
          ramp := ramp, ending := false, seq := u.table.counter } →
    u = s.post h c → (u.table.counter < seqMax ∨ s.shift.state ≠ .memoHeld) →
    ∃ t, exec (.claim l f) s = .next t
      ∧ Taken l f r
          (.answer ([byteOf h] ++ be4 u.table.counter
            ++ [byteOf (match kind with | .exclusive => u.table.basedZones h | .overlay => u.table.mixedZones h).toNat]))
          tableFollowers s t
      ∧ t.claim h = some c ∧ (∀ k, k ≠ h → k ≠ radioHandle → t.claim k = u.claim k)
      ∧ ∀ (v : TunerId) (d : Claim), s.traffic.announcing = true → s.traffic.source = .tuner v → s.traffic.outcome = some .none →
        u.claim radioHandle = some d → d.source ≠ .shift →
        (s.shift.state = .off ∨ s.shift.state = .capture ∨ s.shift.state = .replay) →
        t.claim radioHandle = some d
          ∧ (u.table.basedZones radioHandle = 0 → s.traffic.memo = true → MemoConsidered v s t)
          ∧ (u.table.basedZones radioHandle ≠ 0 ∨ s.traffic.memo = false → t.traffic = u.traffic ∧ t.shift = s.shift))
  ∧ ∀ (s u : State) (h : Nat) (c : Claim), u = s.post h c → h < s.table.entries.length →
    u.claim h = some { c with seq := u.table.counter } ∧ Happens [.table, .traffic] s u ∧ Unreported s u
      ∧ u.table.entries.length = s.table.entries.length
      ∧ (s.table.counter < seqMax →
          u.table.counter = s.table.counter + 1 ∧ u.traffic = s.traffic ∧ ∀ k, k ≠ h → u.claim k = s.claim k)
      ∧ (seqMax ≤ s.table.counter → u.table.counter = s.numbered + 1 ∧ Renumbered h s u
          ∧ u.traffic = { s.traffic with retained := u.traffic.retained })

/-- RELEASE frees an entry of the issuing link's (R30), and AMEND changes level, duck and ramp class of one, keeping its place in the order
(R31). A release that frees a zone for the RADIO claim has a memo replayed: one being captured, from its beginning with capture going on
(R109), and a held one, for which the claim is posted afresh (R110). -/
def Obligations.ReleaseAndAmend : Prop :=
  ∀ (f : Frame) (s : State) (r : Reply) (l : Link) (h : Byte) (c : Claim),
    s.holds l r → s.table.counter < seqMax → h.toNat < 10 → s.claim h.toNat = some c → c.claimant = .link l →
    (f.carries [h] → ∃ t, exec (.release l f) s = .next t ∧ Taken l f r (.plain .done) tableFollowers s t
      ∧ t.claim h.toNat = none ∧ (∀ k, k ≠ h.toNat → k ≠ radioHandle → t.claim k = s.claim k)
      ∧ (∀ d, s.shift.state = .memoCapture → s.traffic.announcing = true → s.claim radioHandle = some d →
          (t.table.basedZones radioHandle = 0 → t.claim radioHandle = some d ∧ t.shift = s.shift)
          ∧ (t.table.basedZones radioHandle ≠ 0 → t.claim radioHandle = some { d with source := .shift }
              ∧ t.shift = { s.shift with state := .memoReplay }))
      ∧ ∀ q, s.shift.state = .memoHeld → s.traffic.retained = some q → s.table.entries.length = 16 →
          (s.wouldSound q (· = h.toNat) →
            t.claim radioHandle = some { radioClaim .shift with seq := s.table.counter + 1 } ∧ t.traffic.retained = none
              ∧ t.traffic.announcing = s.traffic.announcing ∧ t.shift = { s.shift with state := .memoReplay, running := false })
          ∧ (¬s.wouldSound q (· = h.toNat) →
            t.claim radioHandle = s.claim radioHandle ∧ t.traffic = s.traffic ∧ t.shift = s.shift))
    ∧ ∀ (lv dk : Half) (q : Byte) (ramp : Ramp), f.carries ([h] ++ half lv ++ half dk ++ [q]) → rampOf q.toNat = some ramp →
      (l = .rear → s.stations.lock = false) →
      ∃ t, exec (.amend l f) s = .next t ∧ Taken l f r (.plain .done) tableFollowers s t
        ∧ t.claim h.toNat = some { c with
            level := some (clampInt (-24) 359 lv.toInt),
            duck := if c.kind = .overlay then some (clampInt 0 120 dk.toInt) else c.duck, ramp := ramp }
        ∧ ∀ k, k ≠ h.toNat → k ≠ radioHandle → t.claim k = s.claim k

/-! ## Tuners and the Station List -/

/-- In RUN, TUNE_A (R75) and PRESET_RECALL of a preset that an entry carries (R83) are ACCEPTED, and Tuner A is tuned (R74), its separation
held (R71); what was captured from Tuner A is discarded with cause RETUNE (R113), and an announcement from it ends (R99). PRESET_STORE on
an entry of the list, or on one that it inserts into a list with room (R82): the entry of Tuner A's frequency carries the number, and no
other does. The model's own choice here: log entry 55, by which the low count is 0 from the tune on. -/
def Obligations.TunesAndPresets : Prop :=
  (∀ (f : Frame) (s : State) (r : Reply) (b : Byte) (w : Word) (band : Band),
    s.holds .cockpit r → f.carries (b :: quad w) → bandOf b.toNat = some band → Freq.onRaster ⟨band, w.toNat⟩ = true →
    s.power.state = .run →
    ∃ t, exec (.tuneA .cockpit f) s = .next t ∧ Taken .cockpit f r (.plain .accepted) (.tunA :: reassessed) s t
      ∧ t.tunA.settlingOn ⟨band, w.toNat⟩ (some (.tuneA, .tuned)) s.clock.now ∧ t.tunA.rx.decoder = .empty
      ∧ t.tunA.rx.sep = s.tunA.rx.sep
      ∧ (s.traffic.on = false ∨ s.traffic.eligible = true →
        (s.shift.captured = some .a → s.shift.state ≠ .off → s.memoWf →
          t.shift = .off ∧ FallLatched 3 s t
            ∧ (t.link .cockpit).advisories =
                joinAdvisory (s.link .cockpit).advisories (.shiftDiscarded .retune s.shift.state s.shift.fill)
            ∧ (s.shift.purpose = some .memo → t.traffic.retained = none))
        ∧ (s.traffic.announcing = true → s.traffic.source = .tuner .a →
            (s.shift.state = .off ∨ s.shift.captured = some .a) → s.memoWf →
          t.traffic.announcing = false ∧ t.traffic.outcome = none ∧ FallLatched 2 s t
            ∧ ∀ c, s.claim radioHandle = some c →
                (c.source ≠ .shift ∨ (s.shift.purpose = some .memo ∧ s.shift.state ≠ .off)) →
                t.claim radioHandle = none)))
  ∧ (∀ (f : Frame) (s : State) (r : Reply) (p : Byte) (e : Entry),
    s.holds .cockpit r → f.carries [p] → s.power.state = .run →
    s.radio.stations.find? (fun e => e.preset = some (clampNat 1 12 p.toNat)) = some e →
    ∃ t, exec (.presetRecall .cockpit f) s = .next t ∧ Taken .cockpit f r (.plain .accepted) (.tunA :: reassessed) s t
      ∧ t.tunA.settlingOn e.freq (some (.presetRecall, .tuned)) s.clock.now ∧ t.tunA.rx.decoder = .empty)
  ∧ ∀ (f : Frame) (s : State) (r : Reply) (p : Byte) (fr : Freq),
    s.holds .cockpit r → f.carries [p] → s.power.state = .run → s.tunA.state ≠ .seeking → s.tunA.state ≠ .afVerify →
    fr = s.tunA.home.getD s.tunA.rx.freq →
    ((∃ e ∈ s.radio.stations, e.freq = fr) ∨ s.radio.stations.length < 48) →
    ∃ t, exec (.presetStore .cockpit f) s = .next t ∧ Taken .cockpit f r (.plain .done) reassessed s t
      ∧ (∃ e ∈ t.radio.stations, e.freq = fr)
      ∧ (∀ e ∈ t.radio.stations, e.preset = some (clampNat 1 12 p.toNat) ↔ e.freq = fr)
      ∧ t.radio.version = (s.radio.version + 1) % 65536
      ∧ ((∃ e ∈ s.radio.stations, e.freq = fr) →
          t.radio.stations.map (fun e => (e.freq, e.qs, e.identity, e.missed, e.rejected))
            = s.radio.stations.map fun e => (e.freq, e.qs, e.identity, e.missed, e.rejected))

/-- SEEK_A in RUN (R76, R77): Tuner A is tuned to the first entry of the band in the direction with Qs 25 or more, the search wrapping
once; where there is none, the walk begins beside the start frequency. A channel of the walk ends: a measurement of Q 30 or more tunes
Tuner A there, and otherwise it moves on, or is tuned back once it comes to its start. The model's own choice here: log entries 7 (the
event brings the clock to the moment it is due), 17 (the measurement that it carries) and 55 (the low count is 0 from the tune on). -/
def Obligations.Seeking : Prop :=
  (∀ (f : Frame) (s : State) (r : Reply) (b : Byte) (d : Direction) (start : Freq),
    s.holds .cockpit r → f.carries [b] → directionOf b.toNat = some d → s.power.state = .run →
    start = s.tunA.seekStart.getD (s.tunA.home.getD s.tunA.rx.freq) → stationsWf s.radio.stations →
    ∃ t, exec (.seekA .cockpit f) s = .next t ∧ Taken .cockpit f r (.plain .accepted) (.tunA :: reassessed) s t
      ∧ (∀ x, receivable s.radio.stations start x →
          (∀ y, receivable s.radio.stations start y → notAfter d start.khz x.khz y.khz) →
          t.tunA.settlingOn x (some (.seekA, .found)) s.clock.now ∧ t.tunA.rx.decoder = .empty)
      ∧ ((∀ x, ¬receivable s.radio.stations start x) →
          t.tunA.state = .seeking ∧ t.tunA.seekDir = some d ∧ t.tunA.seekStart = some start
            ∧ t.tunA.rx.freq = nextChannel d start ∧ t.tunA.rx.decoder = .empty ∧ t.tunA.trim = 360))
  ∧ ∀ (s : State) (m : Option Meas) (d : Direction) (start : Freq),
    s.tunA.state = .seeking → s.tunA.seekDir = some d → s.tunA.seekStart = some start →
    ∃ t, exec (.seekChannelEnd m) s = .next t ∧ Happens (.clock :: .ports :: .tunA :: reassessed) s t
      ∧ t.clock.now = max s.clock.now (s.tunA.rx.since + milliseconds 8)
      ∧ (∀ x, m = some x → 30 ≤ quality s.tunA.rx.freq.band x →
          t.tunA.settlingOn s.tunA.rx.freq (some (.seekA, .found)) t.clock.now)
      ∧ ((∀ x, m = some x → quality s.tunA.rx.freq.band x < 30) →
          (nextChannel d s.tunA.rx.freq = start → t.tunA.settlingOn start (some (.seekA, .notFound)) t.clock.now)
          ∧ (nextChannel d s.tunA.rx.freq ≠ start →
              t.tunA.state = .seeking ∧ t.tunA.rx.freq = nextChannel d s.tunA.rx.freq ∧ t.tunA.seekStart = some start))

/-- SCAN_POLICY (R87), AF_POLICY (R90), SHIFT_POLICY (R107) and TRAFFIC_MODE (R96) take their settings. Turning traffic off leaves no
source, no watch request, no announcement and no memo. Turning it on while Tuner A is not eligible sets the watch request that the Station
List gives, on which a Tuner B that is not held goes to WATCH in RUN (R97, R98); turning memo on in an announcement that goes unheard has a
memo considered (R96, R100). -/
def Obligations.RadioPolicies : Prop :=
  ∀ (f : Frame) (s : State) (r : Reply) (a b : Byte) (x : Bool), s.holds .cockpit r → f.carries [a, b] →
    onOff a.toNat = some x →
    (∀ y, onOff b.toNat = some y → ∃ t, exec (.scanPolicy .cockpit f) s = .next t
      ∧ Taken .cockpit f r (.plain .done) reassessed s t
      ∧ t.radio = { s.radio with scan := x, rearFirst := y, stations := t.radio.stations })
    ∧ (∃ t, exec (.afPolicy .cockpit f) s = .next t ∧ Taken .cockpit f r (.plain .done) [.radio, .tunA] s t ∧ Unreported s t
      ∧ t.radio = { s.radio with afOn := x, afThreshold := clampNat 10 90 b.toNat }
      ∧ (x = true → t.tunA = s.tunA) ∧ (x = false → t.tunA = { s.tunA with low := 0 }))
    ∧ (∀ y, onOff b.toNat = some y → ∃ t, exec (.shiftPolicy .cockpit f) s = .next t
      ∧ Taken .cockpit f r (.plain .done) [.traffic] s t ∧ Unreported s t
      ∧ t.traffic = { s.traffic with pauseOnCall := x, autoResume := y })
    ∧ ∀ y, onOff b.toNat = some y → ∃ t, exec (.trafficMode .cockpit f) s = .next t
      ∧ Taken .cockpit f r (.plain .done) reassessed s t ∧ t.traffic.on = x ∧ t.traffic.memo = y
      ∧ (x = false → t.traffic.source = .none ∧ t.traffic.watch = none ∧ t.traffic.announcing = false)
      ∧ (x = false → s.traffic.on = true → s.shift.purpose = some .memo → s.shift.state ≠ .off → t.shift.state = .off)
      ∧ (x = true → s.traffic.watch = none → s.traffic.eligible = false → s.tunA.serving = false →
        ((∀ e ∈ s.radio.stations, e.freq.band = .fm → e.tp ≠ some true) →
            t.traffic.watch = none ∧ t.traffic.source = .none)
        ∧ ∀ e, watchedEntry s.radio.stations e → t.traffic.watch = some e.freq
            ∧ (s.power.state = .run → s.tunB.holder = none →
                t.tunB.state = .watch ∧ t.tunB.rx.freq = e.freq ∧ t.traffic.source = .tuner .b))
      ∧ ∀ d, x = true → y = true → s.traffic.memo = false → s.servesTraffic .a → s.tunA.rx.decoder.data.tp = some true →
        s.tunA.rx.decoder.data.ta = some true → s.traffic.announcing = true → s.traffic.source = .tuner .a →
        s.traffic.outcome = some .none → s.claim radioHandle = some d → d.source ≠ .shift →
        s.table.basedZones radioHandle = 0 → MemoConsidered .a s t

/-- A measurement of a tuner that takes them (R68, R69): the first after a tune sets Qs, a later one smooths it, and the separation follows
(R71), and so does the trim, the soft-mute trim where the tuner is released and 360 where it is not (R70). The quality, the soft-mute trim
and the separation are written out. For Tuner B the assignment must not be about to change (R85). At the eighth low measurement of Tuner A a candidate is chosen, and a
pre-fade toward it begins; a capture from Tuner A defers it (R90). -/
def Obligations.MeasurementSmooths : Prop :=
  (∀ (s : State) (m : Meas),
    ((s.tunA.state = .tuned ∨ (s.tunA.state = .afCheck ∧ (s.tunA.phase = .prefadeCheck ∨ s.tunA.phase = .prefadeVerify))
        ∨ (s.tunA.state = .afVerify ∧ s.tunA.released = true)
        ∨ (s.tunA.state = .seeking ∧ quality s.tunA.rx.freq.band m < 30)) →
      ∃ t, exec (.tunerMeasurement .a m) s = .next t ∧ Happens (.clock :: .ports :: .tunA :: reassessed) s t
        ∧ t.tunA.rx.last.q = quality s.tunA.rx.freq.band m ∧ t.tunA.rx.aside = false ∧ t.tunA.rx.freq = s.tunA.rx.freq
        ∧ t.tunA.rx.qs = (if s.tunA.rx.aside then quality s.tunA.rx.freq.band m
            else (3 * s.tunA.rx.qs + quality s.tunA.rx.freq.band m + 2) / 4)
        ∧ t.tunA.rx.sep = separation t.tunA.rx.qs
        ∧ (t.tunA.state = .tuned ∨ (s.tunA.state = .afVerify ∧ t.tunA.state = .afVerify) → t.tunA.trim = softTrim t.tunA.rx.qs)
        ∧ (t.tunA.state = .afCheck ∨ t.tunA.state = .seeking → t.tunA.trim = 360))
    ∧ ((s.tunB.state = .held ∧ s.tunB.holder.isSome = true ∧ s.tunB.settling = false)
        ∨ (s.tunB.state = .refresh ∧ s.power.state ≠ .run) →
      ∃ t, exec (.tunerMeasurement .b m) s = .next t ∧ Happens (.clock :: .ports :: reassessed) s t
        ∧ t.tunB.rx.last.q = quality s.tunB.rx.freq.band m ∧ t.tunB.state = s.tunB.state
        ∧ t.tunB.rx.qs = (if s.tunB.rx.aside then quality s.tunB.rx.freq.band m
            else (3 * s.tunB.rx.qs + quality s.tunB.rx.freq.band m + 2) / 4)
        ∧ t.tunB.rx.sep = separation t.tunB.rx.qs
        ∧ t.tunB.trim = (if s.tunB.state = .held then softTrim t.tunB.rx.qs else 360)))
  ∧ (∀ (b : Band) (m : Meas), (quality b m : Int) =
      max 0 (min 100 (2 * (m.level : Int) - 20 - (match b with | .fm => (m.multipath : Int) | .mw => 0) - (m.adjacent : Int) / 2)))
  ∧ (∀ q : Nat, (20 ≤ q → softTrim q = 0) ∧ (q < 20 → softTrim q = (20 - (q : Int)) * 4)
      ∧ (60 ≤ q → separation q = 16) ∧ (q ≤ 30 → separation q = 0)
      ∧ (30 < q → q < 60 → separation q = (q - 30) * 16 / 30))
  ∧ ∀ (s : State) (m : Meas), s.tunA.state = .tuned → s.tunA.rx.freq.band = .fm → s.radio.afOn = true → 7 ≤ s.tunA.low →
    s.tunA.rx.decoder.data.identity.isSome = true → stationsWf s.radio.stations →
    ∃ t, exec (.tunerMeasurement .a m) s = .next t
      ∧ (s.radio.afThreshold ≤ t.tunA.rx.qs → t.tunA.state = .tuned ∧ t.tunA.low = 0)
      ∧ (t.tunA.rx.qs < s.radio.afThreshold → s.shift.running = true ∧ s.shift.captured = some .a →
          t.tunA.state = .tuned ∧ t.tunA.low = 8)
      ∧ (t.tunA.rx.qs < s.radio.afThreshold → ¬(s.shift.running = true ∧ s.shift.captured = some .a) → s.tunB.state = .scan →
          (∀ e ∈ s.radio.stations, e.freq.band = .fm → s.switchable e.freq.khz → t.tunA.rx.qs + 10 ≤ e.qs →
            (∀ x ∈ s.radio.stations, x.freq.band = .fm → s.switchable x.freq.khz →
              x.qs < e.qs ∨ (x.qs = e.qs ∧ e.freq.khz ≤ x.freq.khz)) →
            t.tunA.state = .afCheck ∧ t.tunA.phase = .prefadeVerify ∧ t.tunA.candidate = some e.freq.khz)
          ∧ ((∀ e ∈ s.radio.stations, e.freq.band = .fm → s.switchable e.freq.khz → e.qs < t.tunA.rx.qs + 10) →
            t.tunA.state = .tuned ∧ t.tunA.low = 0))
      ∧ (t.tunA.rx.qs < s.radio.afThreshold → ¬(s.shift.running = true ∧ s.shift.captured = some .a) → s.tunB.state ≠ .scan →
          (∀ k, s.switchable k →
            ((∃ c, s.tunA.cursor = some c ∧ c < k ∧ ∀ j, s.switchable j → c < j → k ≤ j)
              ∨ (∀ c, s.tunA.cursor = some c → ∀ j, s.switchable j → j ≤ c) ∧ ∀ j, s.switchable j → k ≤ j) →
            t.tunA.state = .afCheck ∧ t.tunA.phase = .prefadeCheck ∧ t.tunA.candidate = some k)
          ∧ ((∀ k, ¬s.switchable k) → t.tunA.state = .tuned ∧ t.tunA.low = 0))

/-- The end of a settle (R74, R85, R92): the first measurement sets Qs, the output is released, and Tuner A's TUNE_DONE, if it has one to
report, is recorded and offered to every watch. Tuner B in WATCH has its request still standing (R98). The model's own choice here: log
entries 7 (the event brings the clock to the moment it is due) and 17 (the measurement that it carries). -/
def Obligations.SettleEnds : Prop :=
  ∀ (s : State) (m : Meas),
    (s.tunA.state = .settling → s.tunA.rx.aside = true →
      ∃ t, exec (.settleEnd .a m) s = .next t ∧ Happens (.clock :: .ports :: .tunA :: reassessed) s t
        ∧ t.clock.now = max s.clock.now (s.tunA.rx.since + milliseconds 12)
        ∧ t.tunA.state = .tuned ∧ t.tunA.rx.freq = s.tunA.rx.freq ∧ t.tunA.rx.qs = quality s.tunA.rx.freq.band m
        ∧ t.tunA.low = 0 ∧ t.tunA.trim = softTrim t.tunA.rx.qs ∧ t.tunA.rx.sep = separation t.tunA.rx.qs
        ∧ (∀ c x, s.tunA.report = some (c, x) → t.tunA.lastTune = some ⟨c, x, s.tunA.rx.freq⟩ ∧ RiseLatched 12 s t)
        ∧ (s.tunA.report = none → t.tunA.lastTune = s.tunA.lastTune))
    ∧ (s.tunA.state = .afVerify → s.tunA.released = false → s.tunA.rx.aside = true →
      ∃ t, exec (.settleEnd .a m) s = .next t ∧ Happens (.clock :: .ports :: .tunA :: reassessed) s t
        ∧ t.clock.now = max s.clock.now (s.tunA.rx.since + milliseconds 12)
        ∧ t.tunA.state = .afVerify ∧ t.tunA.released = true ∧ t.tunA.rx.freq = s.tunA.rx.freq
        ∧ t.tunA.rx.qs = quality s.tunA.rx.freq.band m ∧ t.tunA.trim = softTrim t.tunA.rx.qs
        ∧ t.tunA.home = s.tunA.home ∧ t.tunA.saved = s.tunA.saved ∧ t.tunA.lastTune = s.tunA.lastTune)
    ∧ (s.tunB.settling = true → s.tunB.rx.aside = true →
      ((s.tunB.state = .held ∧ s.tunB.holder.isSome = true)
        ∨ (s.tunB.state = .watch ∧ s.tunB.holder = none ∧ s.traffic.on = true ∧ s.traffic.eligible = false
            ∧ s.tunA.serving = false ∧ s.traffic.watch = some s.tunB.rx.freq
            ∧ ∃ e, s.radio.stations.find? (fun e => e.freq = s.tunB.rx.freq) = some e ∧ e.tp = some true)) →
      ∃ t, exec (.settleEnd .b m) s = .next t ∧ Happens (.clock :: .ports :: reassessed) s t
        ∧ t.clock.now = max s.clock.now (s.tunB.rx.since + milliseconds 12)
        ∧ t.tunB.state = s.tunB.state ∧ t.tunB.settling = false ∧ t.tunB.rx.freq = s.tunB.rx.freq
        ∧ t.tunB.rx.qs = quality s.tunB.rx.freq.band m ∧ t.tunB.trim = softTrim t.tunB.rx.qs)

/-- The pre-fade ends and the check measurement is made (R91, R92): home frequency and data are saved, and the candidate stays only
with a quality at least 10 above the held Qs. The model's own choice here: log entries 12 and 13. -/
def Obligations.AlternateIsChecked : Prop :=
  ∀ (s : State) (m : Meas) (k : Nat), s.tunA.state = .afCheck → s.tunA.candidate = some k →
    (s.tunA.phase = .prefadeCheck → ∃ t, exec .afPrefadeEnd s = .next t
      ∧ Happens (.clock :: .ports :: .tunA :: reassessed) s t
      ∧ t.tunA.state = .afCheck ∧ t.tunA.phase = .gap ∧ t.tunA.home = some s.tunA.rx.freq
      ∧ t.tunA.saved = some s.tunA.rx.decoder ∧ t.tunA.rx.decoder = .empty ∧ t.tunA.rx.qs = s.tunA.rx.qs)
    ∧ (s.tunA.phase = .prefadeVerify → ∃ t, exec .afPrefadeEnd s = .next t
      ∧ Happens (.clock :: .ports :: .tunA :: reassessed) s t
      ∧ t.tunA.state = .afVerify ∧ t.tunA.released = false ∧ t.tunA.home = some s.tunA.rx.freq
      ∧ t.tunA.saved = some s.tunA.rx.decoder ∧ t.tunA.rx.freq = ⟨.fm, k⟩ ∧ t.tunA.rx.decoder = .empty)
    ∧ (s.tunA.phase = .gap → s.tunA.rx.decoder.data.identity = none → ∃ t, exec (.afCheckMeasurement m) s = .next t
      ∧ Happens (.clock :: .ports :: .tunA :: reassessed) s t ∧ t.tunA.cursor = some k
      ∧ (s.tunA.rx.qs + 10 ≤ quality .fm m → t.tunA.state = .afVerify ∧ t.tunA.released = true
          ∧ t.tunA.rx.freq = ⟨.fm, k⟩ ∧ t.tunA.rx.qs = quality .fm m)
      ∧ (quality .fm m < s.tunA.rx.qs + 10 → t.tunA.state = .afCheck ∧ t.tunA.phase = .failed
          ∧ t.tunA.rx.freq = s.tunA.rx.freq ∧ t.tunA.rx.qs = s.tunA.rx.qs))

/-- A failed check resumes TUNED at home with its held Qs and data (R91). A verification ends by the candidate's identity: an equal one
leaves Tuner A TUNED on the candidate, each field it has decoded replacing the saved one; a different one, and 500 ms without one, tune back
to the home frequency with the saved data and reject the candidate for 60 s, in an entry inserted for it where it has none (R92, R80). The
model's own choice here: log entries 7 (an event brings the clock to the moment it is due) , 14 (when the saved data is restored) and 55
(the low count is 0 from the tune on). -/
def Obligations.VerificationEnds : Prop :=
  (∀ (s : State) (d : Decoder), s.tunA.state = .afCheck → s.tunA.phase = .failed → s.tunA.saved = some d →
    ∃ t, exec .afGapEnd s = .next t ∧ Happens (.clock :: .ports :: .tunA :: reassessed) s t
      ∧ t.clock.now = max s.clock.now (s.tunA.rx.since + milliseconds 7)
      ∧ t.tunA.state = .tuned ∧ t.tunA.rx.freq = s.tunA.rx.freq ∧ t.tunA.rx.qs = s.tunA.rx.qs ∧ t.tunA.rx.decoder = d
      ∧ t.tunA.home = none ∧ t.tunA.saved = none ∧ t.tunA.low = 0)
  ∧ (∀ (s : State) (g : DataGroup) (d : Decoder) (home : Freq), s.tunA.state = .afVerify → s.tunA.released = true →
    s.tunA.rx.freq.band = .fm → s.tunA.home = some home → s.tunA.saved = some d →
    s.tunA.rx.decoder.data.identity = none → s.tunA.rx.decoder.lastIdentity = some g.identity.toNat →
    ∃ t, exec (.dataGroup .a g) s = .next t ∧ Happens (.tunA :: reassessed) s t
      ∧ (d.data.identity = some g.identity.toNat →
          VerifyPassed s.tunA.rx.freq s t ∧ t.tunA.rx.decoder.data.identity = some g.identity.toNat
            ∧ t.tunA.rx.decoder.data.tp = some g.tp ∧ t.tunA.rx.decoder.data.ta = some g.ta
            ∧ ((∀ n c0 c1, g.payload ≠ .name n c0 c1) →
                t.tunA.rx.decoder.data.name = s.tunA.rx.decoder.data.name.or d.data.name)
            ∧ ((∀ n p f0 f1, g.payload ≠ .alternates n p f0 f1) →
                t.tunA.rx.decoder.data.alternates = s.tunA.rx.decoder.data.alternates.or d.data.alternates))
      ∧ (d.data.identity ≠ some g.identity.toNat → VerifyFailed s.tunA.rx.freq s.tunA.rx.qs home d s t))
  ∧ (∀ (s : State) (m : Meas) (k i : Nat) (d : Decoder), s.tunA.state = .afCheck → s.tunA.phase = .gap →
    s.tunA.candidate = some k → s.tunA.saved = some d → s.tunA.home = some s.tunA.rx.freq →
    s.tunA.rx.decoder.data.identity = some i → s.tunA.rx.qs + 10 ≤ quality .fm m →
    ∃ t, exec (.afCheckMeasurement m) s = .next t ∧ Happens (.clock :: .ports :: .tunA :: reassessed) s t
      ∧ (d.data.identity = some i → VerifyPassed ⟨.fm, k⟩ s t ∧ t.tunA.rx.qs = quality .fm m)
      ∧ (d.data.identity ≠ some i → VerifyFailed ⟨.fm, k⟩ (quality .fm m) s.tunA.rx.freq d s t))
  ∧ ∀ (s : State) (d : Decoder) (home : Freq), s.tunA.state = .afVerify → s.tunA.home = some home → s.tunA.saved = some d →
    ∃ t, exec .afVerifyTimeout s = .next t ∧ Happens (.clock :: .ports :: .tunA :: reassessed) s t
      ∧ t.clock.now = max s.clock.now (s.tunA.verifyAt + milliseconds 500)
      ∧ VerifyFailed s.tunA.rx.freq s.tunA.rx.qs home d s t

/-- A good group of the station that a tuner receives (R72) sets its TP and TA flags; its identity once two consecutive groups carry the
same one, a change of which clears name and alternates; the name's two characters, the name being present once all four segments have come;
and the alternate list, once every position below its count has. The TA flag of the traffic source starts and ends an announcement (R99 to
R101, R109 to R111), and one that stays set lets it go on. 2 s without a group make the flags absent and keep the rest. The model's own
choice here: log entry 7, by which DATA_TIMEOUT brings the clock to the moment it is due. -/
def Obligations.StationDataDecodes : Prop :=
  (∀ (s : State) (u : TunerId) (g : DataGroup) (d : Decoder),
    ((u = .a ∧ s.tunA.state = .tuned)
      ∨ (u = .b ∧ s.tunB.state = .held ∧ s.tunB.holder.isSome = true ∧ s.tunB.settling = false)) →
    (s.receiver u).freq.band = .fm → d = (s.receiver u).decoder → d.segments.length = 4 →
    ∃ t e same, exec (.dataGroup u g) s = .next t ∧ Happens (.tunA :: reassessed) s t ∧ e = (t.receiver u).decoder
      ∧ e.data.tp = some g.tp ∧ e.data.ta = some g.ta ∧ e.lastIdentity = some g.identity.toNat
      ∧ e.data.identity = (if d.lastIdentity = some g.identity.toNat then some g.identity.toNat else d.data.identity)
      ∧ (same = true ↔ d.lastIdentity ≠ some g.identity.toNat ∨ d.data.identity = none
            ∨ d.data.identity = some g.identity.toNat)
      ∧ (∀ (n : Fin 4) (c0 c1 : Byte), g.payload = .name n c0 c1 →
          e.data.alternates = (if same then d.data.alternates else none)
          ∧ (same = true → ∀ x, d.data.name = some x → e.data.name = some ((x.set (2 * n.val) c0).set (2 * n.val + 1) c1))
          ∧ ∀ segs, segs = (if same then d.segments else List.replicate 4 none).set n.val (some (c0, c1)) →
              (same = false ∨ d.data.name = none) → e.segments = segs
                ∧ (none ∈ segs → e.data.name = none)
                ∧ ∀ p0 p1 p2 p3 : Byte × Byte, segs = [some p0, some p1, some p2, some p3] →
                    e.data.name = some [p0.1, p0.2, p1.1, p1.2, p2.1, p2.2, p3.1, p3.2])
      ∧ ∀ (count p f0 f1 : Nat), g.payload = .alternates count p f0 f1 →
          e.data.name = (if same then d.data.name else none)
          ∧ ∀ before mid parts : List (Option Nat),
              before = (if same = true ∧ d.altCount = some count then d.altParts else List.replicate count none) →
              mid = (if Freq.onRaster ⟨.fm, f0⟩ then before.set p (some f0) else before) →
              parts = (if Freq.onRaster ⟨.fm, f1⟩ then mid.set (p + 1) (some f1) else mid) →
              (none ∈ parts → e.altParts = parts ∧ e.altCount = some count
                ∧ e.data.alternates = if same then d.data.alternates else none)
              ∧ ∀ xs : List Nat, parts = xs.map some → e.data.alternates = some xs ∧ e.altCount = none)
  ∧ (∀ (s : State) (u : TunerId) (g : DataGroup), s.servesTraffic u → (u = .a → g.tp = true) → s.table.entries.length = 16 →
    s.table.counter < seqMax →
    ∃ t, exec (.dataGroup u g) s = .next t ∧ Happens (.tunA :: reassessed) s t
      ∧ (g.ta = true → s.traffic.announcing = false → AnnouncementStarts u s t)
      ∧ (s.traffic.announcing = true → s.traffic.source = .tuner u →
          (g.ta = false → AnnouncementEnds u s t)
          ∧ (g.ta = true → t.traffic.announcing = true ∧ t.traffic.source = .tuner u ∧ t.traffic.outcome = s.traffic.outcome
              ∧ t.table = s.table ∧ t.shift = s.shift)))
  ∧ ∀ (s : State) (u : TunerId) (d : Decoded), d = (s.receiver u).decoder.data →
    (u = .a ∨ (s.tunB.state = .held ∧ s.tunB.holder.isSome = true)) → (d.tp.isSome = true ∨ d.ta.isSome = true) →
    ∃ t, exec (.dataTimeout u) s = .next t ∧ Happens (.clock :: .ports :: .tunA :: reassessed) s t
      ∧ t.clock.now = max s.clock.now ((s.receiver u).groupAt + seconds 2)
      ∧ (t.receiver u).decoder.data = { d with tp := none, ta := none }

/-- The end of a sweep's channel (R86): an FM channel at Qs 25 or more gets a dwell; any other updates the list (R79, R80) and leaves Tuner
B on the next channel. A sweep ends after the last channel: entries not seen age, and go at the third missed sweep unless protected;
LIST_UPDATED is raised if the sweep changed the list (R81); SCAN begins again, and REFRESH ends with the refresh timer started anew in QUIET
(R93, R197). A second passes: every rejection counts down, and is absent at 0; nothing else of an entry changes (R78). The model's own
choices here: log entries 7, 17, 18 and 19 (an entry without an identity differs from every identity). -/
def Obligations.SweepAndRejections : Prop :=
  (∀ (s : State) (m : Option Meas) (q : Nat),
    ((s.tunB.state = .refresh ∧ s.power.state ≠ .run)
      ∨ (s.tunB.state = .scan ∧ s.power.state = .run ∧ s.tunB.holder = none ∧ s.radio.scan = true ∧ s.traffic.on = false)) →
    q = (match m with
      | some x => if s.tunB.rx.aside then quality s.tunB.rx.freq.band x
          else (3 * s.tunB.rx.qs + quality s.tunB.rx.freq.band x + 2) / 4
      | none => s.tunB.rx.qs) →
    ∃ t, exec (.sweepChannelEnd m) s = .next t ∧ Happens (.clock :: .ports :: .power :: reassessed) s t
      ∧ t.clock.now = max s.clock.now (s.tunB.rx.since + milliseconds (if s.tunB.dwell then 400 else 8))
      ∧ (s.tunB.dwell = false → s.tunB.rx.freq.band = .fm → 25 ≤ q →
          t.tunB.state = s.tunB.state ∧ t.tunB.dwell = true ∧ t.tunB.rx.freq = s.tunB.rx.freq ∧ t.tunB.rx.qs = q
            ∧ t.radio = s.radio)
      ∧ ((s.tunB.dwell = true ∨ s.tunB.rx.freq.band = .mw ∨ q < 25) →
          ∃ u : Radio, ChannelUpdated s.tunA.shields s.tunB.rx.freq q s.tunB.rx.decoder.data s.radio u
            ∧ (∀ x, sweepNext s.tunB.rx.freq = some x →
                t.radio = u ∧ t.tunB.state = s.tunB.state ∧ t.tunB.dwell = false ∧ t.tunB.rx.freq = x)
            ∧ (sweepNext s.tunB.rx.freq = none →
                t.radio.stations = agedList s.tunA.shields u.stations
                ∧ t.radio.version =
                    (if t.radio.stations.length < u.stations.length then (u.version + 1) % 65536 else u.version)
                ∧ (t.radio.stations.length < u.stations.length ∨ u.version ≠ s.radio.version ∨ s.tunB.changed = true →
                    RiseLatched 11 s t)
                ∧ (s.tunB.state = .refresh → t.tunB.state = .off
                    ∧ t.power = { s.power with
                        timer := if s.power.state = .quiet then some (t.clock.now, s.power.interval) else s.power.timer })
                ∧ (s.tunB.state = .scan → t.tunB.state = .scan ∧ t.tunB.rx.freq = ⟨.fm, 87500⟩ ∧ t.power = s.power))))
  ∧ ∀ s : State, ∃ t, exec .rejectionTick s = .next t ∧ Happens [.clock, .ports, .radio] s t ∧ Unreported s t
    ∧ t.clock.now = max s.clock.now (s.radio.secondAt + seconds 1) ∧ t.radio.version = s.radio.version
    ∧ t.radio.stations = s.radio.stations.map fun e =>
        { e with rejected := e.rejected.bind fun n => if n ≤ 1 then none else some (n - 1) }

/-! ## Traffic and the Shift Buffer -/

/-- PAUSE, RESUME and GO_LIVE where each takes effect (R104 to R106). The hold of the A eligible flag runs out while Tuner A does not
serve (R97), a replay is used up (R103), and a memo replay with capture stopped is used up, which removes the RADIO claim (R110). The
model's own choice here: log entries 7 (A_ELIGIBLE_EXPIRY brings the clock to the moment it is due) and 9. -/
def Obligations.PauseAndTraffic : Prop :=
  (∀ (f : Frame) (s : State) (r : Reply), s.holds .cockpit r → f.carries [] →
    (s.power.state = .run → s.shift.state = .off → s.mix.selected = .tunerA → s.store.shiftSize ≠ 0 →
      ∃ t, exec (.pause .cockpit f) s = .next t ∧ Taken .cockpit f r (.plain .done) [.shift] s t ∧ RiseLatched 3 s t
        ∧ t.shift = { state := .capture, purpose := some .pause, cause := some .order, captured := some .a, running := true,
                      write := some s.store.shiftFirst, replay := some s.store.shiftFirst, fill := 0, wrapped := false,
                      drained := false })
    ∧ (s.power.state = .run → s.shift.state = .replay →
      ∃ t, exec (.pause .cockpit f) s = .next t ∧ Taken .cockpit f r (.plain .done) [.shift, .store] s t ∧ Unreported s t
        ∧ t.shift = { s.shift with state := .capture, running := true, cause := some .order, drained := false }
        ∧ t.store.words = s.store.words)
    ∧ (s.shift.state = .capture →
      ∃ t, exec (.resume .cockpit f) s = .next t ∧ Taken .cockpit f r (.plain .done) [.shift, .store] s t ∧ Unreported s t
        ∧ t.shift = { s.shift with state := .replay, running := false } ∧ t.store.words = s.store.words)
    ∧ ((s.shift.state = .capture ∨ s.shift.state = .replay) →
      ∃ t, exec (.goLive .cockpit f) s = .next t ∧ Taken .cockpit f r (.plain .done) [.shift, .store] s t
        ∧ FallLatched 3 s t ∧ t.shift = .off ∧ (∀ k, (t.link k).advisories = (s.link k).advisories)
        ∧ t.store.words = s.store.words))
  ∧ (∀ (s : State) (t0 : Time), s.traffic.holdAt = some t0 → s.tunA.serving = false →
    ∃ t, exec .aEligibleExpiry s = .next t ∧ Happens (.clock :: .ports :: reassessed) s t
      ∧ t.clock.now = max s.clock.now (t0 + seconds 2) ∧ t.traffic.eligible = false ∧ t.traffic.holdAt = none)
  ∧ (∀ s : State, s.shift.state = .replay → s.shift.drained = true → s.shift.fill = 0 →
    ∃ t, exec .replayDrained s = .next t ∧ Happens [.shift, .store] s t ∧ t.shift = .off ∧ FallLatched 3 s t
      ∧ t.store.words = s.store.words)
  ∧ ∀ s : State, s.shift.state = .memoReplay → s.shift.running = false → s.shift.drained = true → s.shift.fill = 0 →
    ∃ t, exec .memoReplayEnd s = .next t ∧ Happens [.table, .shift, .store] s t ∧ t.shift = .off ∧ FallLatched 3 s t
      ∧ t.claim radioHandle = none ∧ (∀ k, k ≠ radioHandle → t.claim k = s.claim k) ∧ t.store.words = s.store.words

/-! ## The call -/

/-- CALL_STATE naming another state (R117, R118): the CALL claim has the fields of R36, and the canceller is OFF in IDLE and
RINGING, with coefficients, reference history and window cleared, and engaged in ACTIVE and HELD. RINGING wakes a parked hub whose call wake is on (R196), and nothing else moves it. The claim is
the newest when it is posted or changes its kind, and keeps its sequence number between RINGING and HELD (R20, R36). Entering ACTIVE starts
a pause capture where R108 has it and none otherwise, a memo of an announcement that the call displaces being considered first (R100,
R118); entering IDLE resumes one that a call started, with auto-resume on. -/
def Obligations.CallStateEnters : Prop :=
  ∀ (f : Frame) (s : State) (r : Reply) (b : Byte) (p : CallPhase) (wakes : Prop),
    s.holds .telephony r → f.carries [b] → callOf b.toNat = some p → p ≠ s.call.state →
    s.table.entries.length = 16 → (s.call.state ≠ .idle → (s.claim callHandle).isSome = true) →
    (wakes ↔ p = .ringing ∧ s.power.state ≠ .run ∧ s.power.wakeCall = true ∧ s.store.initialising = false) →
    ∃ t, exec (.callState .telephony f) s = .next t ∧ Exchanged .telephony f r (.plain .done) s t ∧ t.call.state = p
      ∧ (p = .idle → t.claim callHandle = none)
      ∧ (p ≠ .idle → ∃ c, t.claim callHandle = some c ∧ c.claimant = .call ∧ c.tier = .call
          ∧ c.kind = (if p = .active then .exclusive else .overlay) ∧ c.zones = placementZones s.call.placement
          ∧ c.source = (if p = .held then .silence else .callDown) ∧ c.level = none
          ∧ c.duck = (if p = .active then none else some 36) ∧ c.ramp = .medium ∧ c.ending = false)
      ∧ (p = .idle ∨ p = .ringing → t.call.echo.state = .off ∧ t.call.echo.coeffs = List.replicate 2048 0
          ∧ t.call.echo.history = List.replicate 2048 0 ∧ t.call.echo.count = 0 ∧ t.call.echo.active = 0
          ∧ t.call.echo.sumMic = 0 ∧ t.call.echo.sumErr = 0)
      ∧ (p = .active ∨ p = .held →
          (s.call.echo.state = .off → t.call.echo.state = .converging ∧ t.call.echo.coeffs = List.replicate 2048 0)
          ∧ (s.call.echo.state ≠ .off → t.call.echo = s.call.echo))
      ∧ (¬wakes → Taken .telephony f r (.plain .done) (.call :: tableFollowers) s t)
      ∧ (wakes → t.power.state = .run ∧ t.power.entry = some .call)
      ∧ (s.table.counter + 8 < seqMax → ∀ c, t.claim callHandle = some c →
          (s.call.state = .idle ∨ ¬(s.call.state = .active ↔ p = .active) → c.seq = s.table.counter + 1)
          ∧ ∀ d, s.claim callHandle = some d → s.call.state ≠ .idle → s.call.state ≠ .active → p ≠ .active → c.seq = d.seq)
      ∧ (p = .active → (s.shift.state = .off ∨ s.shift.state = .capture ∨ s.shift.state = .replay) →
          (∀ (pauses : Prop), (pauses ↔ s.traffic.pauseOnCall = true ∧ s.power.state = .run ∧ s.shift.state = .off
              ∧ s.mix.selected = .tunerA ∧ s.store.shiftSize ≠ 0) →
            ¬(s.traffic.announcing = true ∧ s.traffic.memo = true ∧ s.traffic.outcome = some .none) →
            (∀ k, (t.link k).advisories = (s.link k).advisories)
            ∧ (pauses → RiseLatched 3 s t
                ∧ t.shift = { state := .capture, purpose := some .pause, cause := some .call, captured := some .a, running := true,
                              write := some s.store.shiftFirst, replay := some s.store.shiftFirst, fill := 0, wrapped := false,
                              drained := false })
            ∧ (¬pauses → t.shift = s.shift))
          ∧ ∀ (u : TunerId) (d : Claim), s.traffic.announcing = true → s.traffic.memo = true → s.traffic.outcome = some .none →
              s.traffic.source = .tuner u → s.claim radioHandle = some d → d.source ≠ .shift →
              t.table.basedZones radioHandle = 0 → MemoConsidered u s t)
      ∧ (p = .idle → s.shift.state = .capture → t.shift =
          if s.shift.cause = some .call ∧ s.traffic.autoResume = true then { s.shift with state := .replay, running := false }
          else s.shift)
      ∧ ((p = .ringing ∨ p = .held) → ¬wakes → (s.shift.state = .capture ∨ s.shift.state = .replay) → t.shift = s.shift)

/-- CALL_PLACE on another place that may take a call (R119), and MIC_SELECT of another mode (R122): placement or mode, the uplink
microphone by the first line of R121 that applies, with the choice that a conference starts from (R123), and the canceller's reset
(R133). -/
def Obligations.CallPlacedAndMicSelected : Prop :=
  (∀ (f : Frame) (s : State) (r : Reply) (l : Link) (b : Byte) (p : Placement),
    s.holds l r → (l = .cockpit ∨ l = .telephony) → f.carries [b] → placementOf b.toNat = some p → p ≠ s.call.placement →
    (∀ st, p = .station st → (s.station st).jack ≠ .vacant ∧ (s.station st).jack ≠ .short) →
    s.table.counter < seqMax →
    ∃ t, exec (.callPlace l f) s = .next t ∧ Taken l f r (.plain .done) (.call :: tableFollowers) s t
      ∧ t.call.placement = p ∧ t.micFollows ∧ t.call.choice = s.call.choice ∧ t.call.state = s.call.state ∧ t.call.mode = s.call.mode
      ∧ (s.call.echo.state = .off → t.call.echo = s.call.echo)
      ∧ (s.call.echo.state ≠ .off → t.call.echo.state = .converging ∧ t.call.echo.coeffs = List.replicate 2048 0
          ∧ t.call.echo.count = 0 ∧ t.call.echo.history = s.call.echo.history ∧ t.call.echo.erle = s.call.echo.erle)
      ∧ ∀ c, s.claim callHandle = some c →
          t.claim callHandle = some (if s.call.state = .idle then c else { c with zones := placementZones p }))
  ∧ ∀ (f : Frame) (s : State) (r : Reply) (l : Link) (b : Byte) (m : MicMode),
    s.holds l r → (l = .cockpit ∨ l = .telephony) → f.carries [b] → micModeOf b.toNat = some m → m ≠ s.call.mode →
    ∃ t, exec (.micSelect l f) s = .next t ∧ Taken l f r (.plain .done) [.call] s t
      ∧ t.call.mode = m ∧ t.micFollows ∧ t.call.placement = s.call.placement
      ∧ (m = .conference → t.call.hold = 0 ∧ t.call.recent = List.replicate 4 (List.replicate 1024 0)
          ∧ (∀ n, s.call.mic = .cabin n → t.call.choice = n) ∧ (∀ st, s.call.mic = .jack st → t.call.choice = 0))
      ∧ (m ≠ .conference → t.call.choice = s.call.choice)
      ∧ (t.call.mic = s.call.mic → t.call.echo = s.call.echo)
      ∧ (t.call.mic ≠ s.call.mic → s.call.echo.state ≠ .off → t.call.echo.state = .converging)

/-- The orders that set one value of the call or of the stations: MIC_MUTE_SET and MIC_MUTE_CLEAR (R124), CALL_VOLUME (R125), STATION_CAP
(R141), REAR_LOCK (R147), STATION_VOLUME and STATION_SWAP (R138, R140), and STATION_SOURCE of another source (R139). A holder that leaves
TUNER_B hands Tuner B over to the other station if that one's source is TUNER_B, and returns it otherwise; its own grace timer stops, and
the new holder's starts where its plug is out (R148). -/
def Obligations.CallAndStationSettings : Prop :=
  (∀ (f : Frame) (s : State) (r : Reply) (l : Link) (on : Bool),
    s.holds l r → (l = .cockpit ∨ l = .telephony) → f.carries [] →
    ∃ t, exec (if on then .micMuteSet l f else .micMuteClear l f) s = .next t ∧ Taken l f r (.plain .done) [.call] s t
      ∧ Unreported s t ∧ t.call = { s.call with mutes := t.call.mutes }
      ∧ ∀ k, hasLink t.call.mutes k = if k = l then on else hasLink s.call.mutes k)
  ∧ (∀ (f : Frame) (s : State) (r : Reply) (l : Link) (v : Half),
    s.holds l r → (l = .cockpit ∨ l = .telephony) → f.carries (half v) →
    ∃ t, exec (.callVolume l f) s = .next t ∧ Taken l f r (.plain .done) [.call] s t ∧ Unreported s t
      ∧ t.call = { s.call with volume := clampInt 0 360 v.toInt })
  ∧ (∀ (f : Frame) (s : State) (r : Reply) (v : Half), s.holds .cockpit r → f.carries (half v) →
    ∃ t, exec (.stationCap .cockpit f) s = .next t ∧ Taken .cockpit f r (.plain .done) [.stations] s t ∧ Unreported s t
      ∧ t.stations = { s.stations with cap := clampInt 0 120 v.toInt })
  ∧ (∀ (f : Frame) (s : State) (r : Reply) (b : Byte) (on : Bool),
    s.holds .cockpit r → f.carries [b] → onOff b.toNat = some on →
    ∃ t, exec (.rearLock .cockpit f) s = .next t ∧ Taken .cockpit f r (.plain .done) [.stations] s t ∧ Unreported s t
      ∧ t.stations = { s.stations with lock := on })
  ∧ ∀ (f : Frame) (s : State) (r : Reply) (l : Link) (a : Byte) (st : StationId),
    s.holds l r → (l = .cockpit ∨ (l = .rear ∧ s.stations.lock = false)) → stationOf a.toNat = some st →
    (∀ (b : Byte) (src : Source), f.carries [a, b] → sourceOf b.toNat = some src → src ≠ (s.station st).source →
      (src = .tunerA ∨ src = .tunerB ∨ src = .mediaFront ∨ src = .mediaRear ∨ src = .silence) →
      ∃ t, exec (.stationSource l f) s = .next t ∧ Taken l f r (.plain .done) (.stations :: reassessed) s t
        ∧ (t.station st).source = src ∧ (t.station (other st)).source = (s.station (other st)).source
        ∧ (s.tunB.holder ≠ some st ∨ src = .tunerB →
            Taken l f r (.plain .done) [.stations] s t ∧ Unreported s t
              ∧ t.station st = { s.station st with source := src })
        ∧ (s.tunB.holder = some st → src ≠ .tunerB →
            t.station st = { s.station st with source := src, graceAt := none }
            ∧ ((s.station (other st)).source = .tunerB → t.tunB = { s.tunB with holder := some (other st) }
                ∧ t.station (other st) = { s.station (other st) with
                    graceAt := if (s.station (other st)).inserted then none else some s.clock.now })
            ∧ ((s.station (other st)).source ≠ .tunerB → t.tunB.holder = none ∧ t.station (other st) = s.station (other st))))
    ∧ (∀ v : Half, f.carries (a :: half v) →
      ∃ t, exec (.stationVolume l f) s = .next t ∧ Taken l f r (.plain .done) [.stations] s t ∧ Unreported s t
        ∧ t.station st = { s.station st with volume := clampInt 0 360 v.toInt } ∧ t.station (other st) = s.station (other st))
    ∧ ∀ (b : Byte) (on : Bool), f.carries [a, b] → onOff b.toNat = some on →
      ∃ t, exec (.stationSwap l f) s = .next t ∧ Taken l f r (.plain .done) [.stations] s t ∧ Unreported s t
        ∧ t.station st = { s.station st with swap := on } ∧ t.station (other st) = s.station (other st)

/-- The judgement of a full window (R132) by its ERLE (R131), with the edges of ECHO_CONVERGED, and the next window begun. The model's own choice here:
log entries 9 (a window of 8,000 samples or more is due) and 51 (the ERLE of a window is computed exactly). -/
def Obligations.WindowJudgement : Prop :=
  ∀ (s : State) (e : Canceller), e = s.call.echo → 8000 ≤ e.count →
    ∃ t, exec .windowJudged s = .next t ∧ Happens [.call] s t ∧ t.call = { s.call with echo := t.call.echo }
      ∧ t.call.echo.count = 0 ∧ t.call.echo.active = 0 ∧ t.call.echo.sumMic = 0 ∧ t.call.echo.sumErr = 0
      ∧ t.call.echo.history = e.history
      ∧ (e.state ≠ .converged → t.call.echo.state = .converged → RiseLatched 9 s t)
      ∧ (e.state = .converged → t.call.echo.state ≠ .converged → FallLatched 9 s t)
      ∧ (e.state = .diverged → t.call.echo.state = .converging ∧ t.call.echo.coeffs = e.coeffs ∧ t.call.echo.erle = e.erle)
      ∧ (e.state = .converging ∨ e.state = .converged →
          (e.active < 4000 → t.call.echo.state = e.state ∧ t.call.echo.coeffs = e.coeffs ∧ t.call.echo.erle = e.erle)
          ∧ (4000 ≤ e.active → 2 * e.sumMic < e.sumErr →
              t.call.echo.state = .diverged ∧ t.call.echo.coeffs = List.replicate 2048 0 ∧ t.call.echo.erle = e.erle)
          ∧ (∀ k, 4000 ≤ e.active → e.sumErr ≤ 2 * e.sumMic → Erle e.sumMic e.sumErr k →
              t.call.echo.coeffs = e.coeffs ∧ t.call.echo.erle = some k
              ∧ (e.state = .converging → t.call.echo.state = if 18 ≤ k then .converged else .converging)
              ∧ (e.state = .converged → t.call.echo.state = if k < 12 then .converging else .converged))
          ∧ (0 ≤ e.sumMic → 0 ≤ e.sumErr → e.sumErr ≤ 2 * e.sumMic → ∃ k, Erle e.sumMic e.sumErr k))

/-! ## The rear stations -/

/-- STATION_TUNE granted (R88, R148), and the end of a holding by its grace (R149): the former holder's timer stops, and at a handover the
new holder's is set to 0 where its plug is out and stopped otherwise (R148). The model's own choice
here: log entry 7, by which GRACE_EXPIRY brings the clock to the moment it is due. -/
def Obligations.TunerBHolding : Prop :=
  (∀ (f : Frame) (s : State) (r : Reply) (l : Link) (a b : Byte) (w : Word) (st : StationId) (band : Band),
    s.holds l r → (l = .cockpit ∨ (l = .rear ∧ s.stations.lock = false)) → f.carries ([a, b] ++ quad w) →
    stationOf a.toNat = some st → bandOf b.toNat = some band → Freq.onRaster ⟨band, w.toNat⟩ = true →
    (s.station st).source = .tunerB →
    (s.tunB.state = .idle ∨ s.tunB.state = .scan ∨ (s.tunB.state = .watch ∧ s.radio.rearFirst = true)
      ∨ (s.tunB.state = .held ∧ s.tunB.holder = some st)) →
    ∃ t, exec (.stationTune l f) s = .next t ∧ Taken l f r (.plain .done) (.stations :: reassessed) s t
      ∧ t.tunB.holder = some st ∧ t.tunB.state = .held ∧ t.tunB.settling = true ∧ t.tunB.rx.freq = ⟨band, w.toNat⟩
      ∧ t.tunB.rx.decoder = .empty ∧ t.tunB.trim = 360
      ∧ (s.tunB.holder ≠ some st →
          t.station st = { s.station st with graceAt := if (s.station st).inserted then none else some s.clock.now })
      ∧ (s.tunB.holder = some st → t.station st = s.station st))
  ∧ ∀ (s : State) (st : StationId) (t0 : Time), (s.station st).graceAt = some t0 → s.tunB.holder = some st →
    ∃ t, exec (.graceExpiry st) s = .next t ∧ Happens (.clock :: .ports :: .stations :: reassessed) s t
      ∧ t.clock.now = max s.clock.now (t0 + seconds 30) ∧ t.station st = { s.station st with graceAt := none }
      ∧ ((s.station (other st)).source = .tunerB → t.tunB = { s.tunB with holder := some (other st) }
          ∧ t.station (other st) = { s.station (other st) with
              graceAt := if (s.station (other st)).inserted then none else some t.clock.now })
      ∧ ((s.station (other st)).source ≠ .tunerB → t.tunB.holder = none ∧ t.station (other st) = s.station (other st))

/-- JACK_MEASURE on an idle plug (R144), an insertion (R142) with its wake (R196), a removal (R142), and the completion of a measurement
(R143). A call placed at a station that becomes OPEN or SHORT falls back to CABIN, which TELEPHONY and COCKPIT are told (R120); another
change of that station's class makes the choice of the microphone again (R121, R145). The model's own choice here: log entry 7, by which
MEASUREMENT_COMPLETE brings the clock to the moment it is due. -/
def Obligations.JackMonitor : Prop :=
  ∀ (s : State) (st : StationId),
    (∀ (f : Frame) (r : Reply) (l : Link) (a : Byte), s.holds l r → (l = .cockpit ∨ (l = .rear ∧ s.stations.lock = false)) →
      f.carries [a] → stationOf a.toNat = some st → (s.station st).inserted = true → (s.station st).measuring = false →
      ∃ t, exec (.jackMeasure l f) s = .next t ∧ Taken l f r (.plain .done) [.stations] s t ∧ Unreported s t
        ∧ t.station st = { s.station st with measuring := true, measureAt := s.clock.now }
        ∧ t.station (other st) = s.station (other st))
    ∧ ((s.station st).inserted = false →
      ∃ t, exec (.jackInsertion st) s = .next t ∧ (t.station st).inserted = true ∧ (t.station st).measuring = true
        ∧ (t.station st).jack = (s.station st).jack ∧ (t.station st).graceAt = none
        ∧ (s.power.wakeJack = true → s.power.state ≠ .run → s.store.initialising = false →
            t.power.state = .run ∧ t.power.entry = some .jack)
        ∧ (s.power.wakeJack = false ∨ s.power.state = .run ∨ s.store.initialising = true →
            Happens [.stations] s t ∧ Unreported s t))
    ∧ ((s.station st).inserted = true →
      ∃ t, exec (.jackRemoval st) s = .next t ∧ Happens (.stations :: .call :: tableFollowers) s t
        ∧ t.station st = { s.station st with
            inserted := false, measuring := false, jack := .vacant,
            graceAt := if s.tunB.holder = some st then some s.clock.now else (s.station st).graceAt }
        ∧ t.station (other st) = s.station (other st)
        ∧ (s.call.placement = .station st → (s.station st).jack ≠ .vacant →
            t.call.placement = .cabin ∧ t.micFollows ∧ FallbackTold st s t)
        ∧ (s.call.placement ≠ .station st → t.call = s.call ∧ t.table = s.table))
    ∧ ∀ (a b : Nat) (mic : Bool), (s.station st).measuring = true →
      ∃ t, exec (.measurementComplete st a b mic) s = .next t
        ∧ Happens (.clock :: .ports :: .stations :: .call :: tableFollowers) s t
        ∧ t.clock.now = max s.clock.now ((s.station st).measureAt + milliseconds 3)
        ∧ ∃ load, load = min 65535 (min a b)
          ∧ t.station st = { s.station st with
              load := some load, mic := some mic, measuring := false, count := ((s.station st).count + 1) % 256,
              jack := if load ≤ 3 then .short else if 1000 ≤ load then .line else if mic then .headset else .headphone }
          ∧ t.station (other st) = s.station (other st)
          ∧ (s.call.placement ≠ .station st → t.call = s.call ∧ t.table = s.table)
          ∧ (s.call.placement = .station st →
              (load ≤ 3 → (s.station st).jack ≠ .short →
                t.call.placement = .cabin ∧ t.micFollows ∧ FallbackTold st s t)
              ∧ (4 ≤ load → t.call.placement = s.call.placement ∧ t.table = s.table
                  ∧ ((s.station st).jack ≠ (t.station st).jack → t.micFollows)))

/-! ## The Chime Player -/

/-- An accepted CHIME_DEFINE replaces its descriptor, values clamped (R153, R154), and CHIME_READ answers a descriptor or a voice and
changes nothing (R166, log entry 40). -/
def Obligations.ChimeTable : Prop :=
  (∀ (f : Frame) (s : State) (r : Reply) (l : Link) (i m p z : Byte) (start len : Word) (par gap lv dk : Half)
    (mode : RepeatMode) (zs : ZoneSet) (g : Region),
    s.holds l r → (l = .cockpit ∨ l = .body) →
    f.carries ([i] ++ quad start ++ quad len ++ [m] ++ half par ++ half gap ++ [p, z] ++ half lv ++ half dk) →
    i.toNat ≤ 31 → repeatOf m.toNat par.toNat = some mode → zoneSetOf z.toNat = some zs → zs ≠ 0 →
    within zs speakerZones = true → 1 ≤ len.toNat → len.toNat ≤ 480000 → s.store.initialising = false →
    s.mayPlay l g start.toNat len.toNat → s.chime.inUse i.toNat = false →
    ∃ t, exec (.chimeDefine l f) s = .next t ∧ Taken l f r (.plain .done) [.chime] s t ∧ Unreported s t
      ∧ t.chime = { s.chime with
          descs := s.chime.descs.set i.toNat (some
            { valid := true, start := start.setWidth 24, length := len.toNat, mode := mode, gap := min 5000 gap.toNat,
              priority := min 7 p.toNat, zones := zs, level := clampInt (-24) 359 lv.toInt,
              duck := clampInt 0 120 dk.toInt, definer := l }) })
  ∧ ∀ (f : Frame) (s : State) (r : Reply) (l : Link) (i : Byte), s.holds l r → (l = .cockpit ∨ l = .body) →
    (f.carries [0, i] → i.toNat ≤ 31 → ∃ t, exec (.chimeRead l f) s = .next t ∧ Unreported s t
      ∧ Taken l f r (.answer (descriptorBytes (s.desc i.toNat) (s.chime.inUse i.toNat))) [] s t)
    ∧ (f.carries [1, i] → i.toNat ≤ 3 → ∃ t, exec (.chimeRead l f) s = .next t ∧ Unreported s t
      ∧ Taken l f r (.answer (s.voiceBytes (s.voice i.toNat))) [] s t)

/-- CHIME_START of a descriptor that passes its checks (R161, R162): a running one restarts, a requested one stays, the lowest idle
voice takes it, a weaker voice gives way to it, or it joins the queue behind its equals, or finds the queue full. Outside RUN, BODY's
wakes the hub where the chime wake is on (R196). -/
def Obligations.ChimeStarts : Prop :=
  ∀ (f : Frame) (s : State) (r : Reply) (l : Link) (i : Byte) (d : Nat) (x : Descriptor) (g : Region),
    s.holds l r → (l = .cockpit ∨ l = .body) → f.carries [i] → d = i.toNat → d ≤ 31 → s.desc d = some x → x.valid = true →
    1 ≤ x.length → s.mayPlay l g x.start.toNat x.length → s.store.initialising = false →
    s.chime.voices.length = 4 → s.table.entries.length = 16 →
    s.chime.counter < seqMax → s.table.counter + 1 < seqMax →
    (s.power.state = .run → (∃ n : Fin 4, (s.voice n.val).plays d = true) →
      ∃ t, exec (.chimeStart l f) s = .next t ∧ Taken l f r (.plain .done) [.chime] s t ∧ Unreported s t
        ∧ t.chime = { s.chime with
            voices := s.chime.voices.map fun v =>
              if v.plays d then
                { v with restart := true,
                         deadline := match x.mode with
                           | .untilStop ms => some (s.clock.now + milliseconds ms)
                           | .once | .count _ | .chain _ => v.deadline }
              else v })
    ∧ ((∀ n : Fin 4, (s.voice n.val).plays d = false) →
      (s.power.state = .run → ((∃ q ∈ s.chime.queue, q.desc = d) ∨ ∃ n : Fin 4, (s.voice n.val).reserves d = true) →
        ∃ t, exec (.chimeStart l f) s = .next t ∧ Taken l f r (.plain .done) [] s t ∧ Unreported s t)
      ∧ ((∀ q ∈ s.chime.queue, q.desc ≠ d) → (∀ n : Fin 4, (s.voice n.val).reserves d = false) →
        (∀ n : Fin 4, s.power.state = .run → (s.voice n.val).state = .idle → (∀ m : Fin 4, m < n → (s.voice m.val).state ≠ .idle) →
          ∃ t, exec (.chimeStart l f) s = .next t ∧ Taken l f r (.plain .done) (.chime :: tableFollowers) s t
            ∧ t.chime = { s.chime with
                counter := s.chime.counter + 1,
                voices := s.chime.voices.set n.val (x.opening ⟨d, l⟩ (s.chime.counter + 1) s.clock.now) }
            ∧ t.claim (voiceHandle n.val) = some
                { claimant := .voice n, tier := .urgent, kind := .overlay, zones := x.zones, source := .voice n,
                  level := some (clampInt (-24) 359 x.level), duck := some (clampInt 0 120 x.duck), ramp := .fast,
                  ending := false, seq := s.table.counter + 1 }
            ∧ ∀ k, k ≠ voiceHandle n.val → k ≠ radioHandle → t.claim k = s.claim k)
        ∧ (s.power.state = .run → (∀ n : Fin 4, (s.voice n.val).state ≠ .idle) →
          (∀ n : Fin 4, (s.voice n.val).sounding → s.voicePriority (s.voice n.val) < x.priority →
            (∀ m : Fin 4, m ≠ n → (s.voice m.val).sounding →
              s.voicePriority (s.voice n.val) < s.voicePriority (s.voice m.val)
                ∨ (s.voicePriority (s.voice n.val) = s.voicePriority (s.voice m.val)
                    ∧ (s.voice n.val).number < (s.voice m.val).number)) →
            ∃ t, exec (.chimeStart l f) s = .next t ∧ Taken l f r (.plain .done) [.chime, .table, .store] s t
              ∧ t.chime = { s.chime with
                  voices := s.chime.voices.set n.val
                    { (s.voice n.val).stoppedFor .preempted with successor := some ⟨d, l⟩ } }
              ∧ EndingSet n s t
              ∧ (∀ k old, (s.voice n.val).starter = some k → (s.voice n.val).desc = some old →
                  (t.link k).advisories = joinAdvisory (s.link k).advisories (.voicePreempted n old d)))
          ∧ ((∀ n : Fin 4, (s.voice n.val).sounding → x.priority ≤ s.voicePriority (s.voice n.val)) →
            (s.chime.queue.length < 4 →
              ∃ t ahead behind, exec (.chimeStart l f) s = .next t ∧ Taken l f r (.plain .accepted) [.chime] s t ∧ Unreported s t
                ∧ s.chime.queue = ahead ++ behind ∧ t.chime = { s.chime with queue := ahead ++ [⟨d, l⟩] ++ behind }
                ∧ (∀ q ∈ ahead, ∃ y, s.desc q.desc = some y ∧ x.priority ≤ y.priority)
                ∧ ∀ q, behind.head? = some q → ∀ y, s.desc q.desc = some y → y.priority < x.priority)
            ∧ (4 ≤ s.chime.queue.length →
              ∃ t, exec (.chimeStart l f) s = .next t ∧ Taken l f r (.plain .full) [] s t ∧ Unreported s t)))))
    ∧ (s.power.state ≠ .run → l = .body → s.power.wakeChime = true → s.chime.queue = [] →
      (∀ n : Fin 4, (s.voice n.val).state = .idle ∧ (s.voice n.val).successor = none) →
      ∃ t, exec (.chimeStart l f) s = .next t ∧ Exchanged l f r (.plain .done) s t ∧ t.power.state = .run
        ∧ t.power.entry = some .chime
        ∧ t.chime.voices = s.chime.voices.set 0 (x.opening ⟨d, l⟩ (s.chime.counter + 1) s.clock.now))

/-- CHIME_STOP of a descriptor in use and CHIME_STOP_ALL (R164, R165): voices in PLAYING or GAP are stopped with cause STOPPED, queued
requests withdrawn and reserved ones cancelled, of which each asking link is offered CHIME_ENDED and has its last-ended record (R160); and
CHIME_RENEW moves the deadlines of what plays until stopped (R163). The model's own
choice here: log entry 64, by which a link with both a queue entry and a reservation withdrawn has the reservation as the last ended. -/
def Obligations.ChimesStopAndRenew : Prop :=
  ∀ (f : Frame) (s : State) (r : Reply) (l : Link), s.holds l r → (l = .cockpit ∨ l = .body) → s.chime.voices.length = 4 →
    (∀ (i : Byte) (d : Nat), f.carries [i] → d = i.toNat → d ≤ 31 → s.chime.inUse d = true →
      ∃ t, exec (.chimeStop l f) s = .next t ∧ Taken l f r (.plain .done) [.chime, .table, .store] s t
        ∧ t.chime.queue = s.chime.queue.filter (fun q => q.desc ≠ d) ∧ t.chime.descs = s.chime.descs
        ∧ (∀ n : Fin 4,
            (t.voice n.val).state = (if (s.voice n.val).plays d then .stopping else (s.voice n.val).state)
            ∧ (t.voice n.val).cause = (if (s.voice n.val).plays d then some .stopped else (s.voice n.val).cause)
            ∧ (t.voice n.val).successor = (if (s.voice n.val).reserves d then none else (s.voice n.val).successor)
            ∧ (t.voice n.val).desc = (s.voice n.val).desc ∧ (t.voice n.val).position = (s.voice n.val).position
            ∧ (t.voice n.val).remaining = (s.voice n.val).remaining
            ∧ t.claim (voiceHandle n.val) =
                (s.claim (voiceHandle n.val)).map fun c =>
                  if (s.voice n.val).plays d then { c with ending := true } else c)
        ∧ (∀ k, k < 12 → t.claim k = s.claim k)
        ∧ ChimeEndedTold (fun k => (∃ n : Fin 4, (s.voice n.val).successor = some ⟨d, k⟩) ∨ (⟨d, k⟩ : Request) ∈ s.chime.queue) s t
        ∧ ∀ k : Link,
            ((∃ n : Fin 4, (s.voice n.val).successor = some ⟨d, k⟩) →
              t.chime.ended.get k = some ⟨d, none, .stopped⟩)
            ∧ ((∀ n : Fin 4, (s.voice n.val).successor ≠ some ⟨d, k⟩) → (⟨d, k⟩ : Request) ∈ s.chime.queue →
              t.chime.ended.get k = some ⟨d, none, .notPlayed⟩)
            ∧ ((∀ n : Fin 4, (s.voice n.val).successor ≠ some ⟨d, k⟩) → (⟨d, k⟩ : Request) ∉ s.chime.queue →
              t.chime.ended.get k = s.chime.ended.get k))
    ∧ (f.carries [] →
      ∃ t, exec (.chimeStopAll l f) s = .next t ∧ Taken l f r (.plain .done) [.chime, .table, .store] s t
        ∧ t.chime.queue = [] ∧ t.chime.descs = s.chime.descs
        ∧ ChimeEndedTold (fun k => (∃ (n : Fin 4) (d : Nat), (s.voice n.val).successor = some ⟨d, k⟩)
            ∨ ∃ d, (⟨d, k⟩ : Request) ∈ s.chime.queue) s t
        ∧ (∀ k : Link,
            (∀ (n : Fin 4) (d : Nat), (s.voice n.val).successor = some ⟨d, k⟩ →
              (∀ (m : Fin 4) (e : Nat), n < m → (s.voice m.val).successor ≠ some ⟨e, k⟩) →
              t.chime.ended.get k = some ⟨d, none, .stopped⟩)
            ∧ ((∀ (n : Fin 4) (d : Nat), (s.voice n.val).successor ≠ some ⟨d, k⟩) →
              (∀ d before behind, s.chime.queue = before ++ ⟨d, k⟩ :: behind → (∀ q ∈ behind, q.link ≠ k) →
                t.chime.ended.get k = some ⟨d, none, .notPlayed⟩)
              ∧ ((∀ q ∈ s.chime.queue, q.link ≠ k) → t.chime.ended.get k = s.chime.ended.get k)))
        ∧ ∀ n : Fin 4,
            (t.voice n.val).successor = none
            ∧ ((s.voice n.val).sounding → (t.voice n.val).state = .stopping ∧ (t.voice n.val).cause = some .stopped
                ∧ t.claim (voiceHandle n.val) = (s.claim (voiceHandle n.val)).map fun c => { c with ending := true })
            ∧ (¬(s.voice n.val).sounding → (t.voice n.val).state = (s.voice n.val).state
                ∧ t.claim (voiceHandle n.val) = s.claim (voiceHandle n.val)))
    ∧ ∀ (i : Byte) (d ms : Nat) (x : Descriptor), f.carries [i] → d = i.toNat → d ≤ 31 → s.desc d = some x →
      x.mode = .untilStop ms → (∃ n : Fin 4, (s.voice n.val).plays d = true) →
      ∃ t, exec (.chimeRenew l f) s = .next t ∧ Taken l f r (.plain .done) [.chime] s t ∧ Unreported s t
        ∧ t.chime = { s.chime with
            voices := s.chime.voices.map fun v =>
              if v.plays d then { v with deadline := some (s.clock.now + milliseconds ms) } else v }

/-- A voice at the end of a play (R156, R157), at the end of a gap, at its deadline (R163), and once its contributions have faded
(R158, R159): it plays again, follows its chain, is stopped, or becomes IDLE and takes the next request, dropping one that is no longer
playable. CHIME_ENDED of a chime that a reset stopped is not latched (R168). The model's own choice here: log entries 7 (DEADLINE_EXPIRY
brings the clock to the deadline), 9 and 38. -/
def Obligations.VoiceEvents : Prop :=
  ∀ (s : State) (n : Fin 4) (v : Voice) (i : Nat) (d : Descriptor),
    s.chime.voices.length = 4 → s.table.entries.length = 16 → v = s.voice n.val → v.desc = some i → s.desc i = some d →
    s.table.counter < seqMax → s.chime.counter < seqMax →
    (v.state = .playing → v.remaining = 0 →
      (∀ k, d.mode ≠ .untilStop k) → v.restart = false → v.repeats = some 0 → (∀ j, d.mode ≠ .chain (some j)) →
      ∃ t, exec (.voicePlayEnd n) s = .next t ∧ Happens [.chime, .table, .store] s t ∧ Unreported s t
        ∧ t.voice n.val = v.stoppedFor .completed ∧ EndingSet n s t
        ∧ ∀ m : Fin 4, m ≠ n → t.voice m.val = s.voice m.val)
    ∧ (v.state = .playing → v.remaining = 0 → v.restart = false →
      ((∃ k, d.mode = .untilStop k) ∨ ∃ k, v.repeats = some (k + 1)) →
      ∃ t w, exec (.voicePlayEnd n) s = .next t ∧ Happens [.chime, .store] s t ∧ Unreported s t
        ∧ t.chime = { s.chime with voices := s.chime.voices.set n.val (w.resumed d.length d.gap) }
        ∧ ((∃ k, d.mode = .untilStop k) → w = v)
        ∧ ((∀ k, d.mode ≠ .untilStop k) → ∀ k, v.repeats = some (k + 1) → w = { v with repeats := some k }))
    ∧ (v.state = .playing → v.remaining = 0 → v.restart = true → (∀ k, d.mode = .count k → 1 ≤ k) →
      ∃ t w, exec (.voicePlayEnd n) s = .next t ∧ Happens [.chime, .store] s t ∧ Unreported s t
        ∧ t.chime = { s.chime with voices := s.chime.voices.set n.val (w.resumed d.length d.gap) }
        ∧ w = { v with restart := false,
                       repeats := match d.mode with
                         | .once | .chain _ => some 0 | .count k => some (k - 1) | .untilStop _ => none })
    ∧ (∀ (j : Nat) (l : Link), v.state = .playing → v.remaining = 0 → v.restart = false → v.repeats = some 0 →
      d.mode = .chain (some j) → v.starter = some l →
      (s.playable j l = none →
        ∃ t, exec (.voicePlayEnd n) s = .next t ∧ Happens [.chime, .table, .store] s t
          ∧ t.voice n.val = v.stoppedFor .chainBroken ∧ EndingSet n s t)
      ∧ ∀ x, s.playable j l = some x →
        ∃ t, exec (.voicePlayEnd n) s = .next t ∧ Happens (.chime :: tableFollowers) s t
          ∧ t.voice n.val =
              { x.opening ⟨j, l⟩ v.number s.clock.now with
                  state := v.state, position := v.position, remaining := v.remaining, gapLeft := v.gapLeft, cause := v.cause,
                  successor := v.successor, faded := v.faded }.resumed x.length d.gap
          ∧ t.claim (voiceHandle n.val) = (s.claim (voiceHandle n.val)).map (fun c =>
              { c with zones := x.zones, level := some (clampInt (-24) 359 x.level), duck := some (clampInt 0 120 x.duck) }))
    ∧ (v.state = .gap → v.gapLeft = 0 →
      ∃ t, exec (.gapEnd n) s = .next t ∧ Happens [.chime, .store] s t ∧ Unreported s t
        ∧ t.chime = { s.chime with
            voices := s.chime.voices.set n.val { v with state := .playing, position := 0, remaining := d.length } })
    ∧ (∀ t0, v.deadline = some t0 → v.sounding →
      ∃ t, exec (.deadlineExpiry n) s = .next t ∧ Happens [.clock, .ports, .chime, .table, .store] s t ∧ Unreported s t
        ∧ t.clock.now = max s.clock.now t0
        ∧ t.chime = { s.chime with voices := s.chime.voices.set n.val (v.stoppedFor .expired) } ∧ EndingSet n s t)
    ∧ ∀ (l : Link) (cause : EndCause), v.state = .stopping → v.faded = true → v.starter = some l → v.cause = some cause →
      (v.successor = none → s.chime.queue = [] →
        ∃ t, exec (.voiceIdle n) s = .next t ∧ Happens (.chime :: tableFollowers) s t
          ∧ t.voice n.val = { v with state := .idle, desc := none, starter := none, deadline := none, cause := none,
                                     successor := none, faded := false }
          ∧ t.claim (voiceHandle n.val) = none
          ∧ (∀ k, k ≠ voiceHandle n.val → k ≠ radioHandle → t.claim k = s.claim k)
          ∧ (∀ k : Link, t.chime.ended.get k = if k = l then some ⟨i, some n, cause⟩ else s.chime.ended.get k)
          ∧ (cause ≠ .reset → (s.link l).riseEnable.getLsbD 14 = true → (t.link l).riseLatch.getLsbD 14 = true)
          ∧ (cause = .reset → ∀ k, (t.link k).riseLatch.getLsbD 14 = (s.link k).riseLatch.getLsbD 14))
      ∧ (∀ q : Request, v.successor = some q → s.playable q.desc q.link = none → s.chime.queue = [] →
        ∃ t, exec (.voiceIdle n) s = .next t ∧ Happens (.chime :: tableFollowers) s t
          ∧ (t.voice n.val).state = .idle ∧ (t.voice n.val).successor = none ∧ t.claim (voiceHandle n.val) = none
          ∧ (∀ k : Link, t.chime.ended.get k =
              if k = q.link then some ⟨q.desc, none, .dropped⟩ else if k = l then some ⟨i, some n, cause⟩
              else s.chime.ended.get k)
          ∧ ((s.link q.link).riseEnable.getLsbD 14 = true → (t.link q.link).riseLatch.getLsbD 14 = true))
      ∧ ∀ (q : Request) (x : Descriptor), (v.successor = some q ∨ (v.successor = none ∧ s.chime.queue.head? = some q)) →
        s.playable q.desc q.link = some x →
        ∃ t, exec (.voiceIdle n) s = .next t ∧ Happens (.chime :: tableFollowers) s t
          ∧ t.voice n.val = x.opening q (s.chime.counter + 1) s.clock.now
          ∧ t.chime.counter = s.chime.counter + 1
          ∧ t.chime.queue = (if v.successor = some q then s.chime.queue else s.chime.queue.tail)
          ∧ (∃ c, t.claim (voiceHandle n.val) = some c ∧ c.claimant = .voice n ∧ c.source = .voice n ∧ c.zones = x.zones
              ∧ c.ending = false)
          ∧ ∀ k : Link, t.chime.ended.get k = if k = l then some ⟨i, some n, cause⟩ else s.chime.ended.get k

/-! ## The Sample Store -/

/-- STORE_OPEN that passes its checks opens the link's channel at its base (R174), and STORE_CLOSE of an open channel answers what was
left and closes it (R176). -/
def Obligations.StoreChannels : Prop :=
  ∀ (f : Frame) (s : State) (r : Reply) (l : Link), s.holds l r → s.store.initialising = false →
    (∀ (w : Byte) (base count : Word) (writes : Bool) (g : Region), f.carries ([w] ++ quad base ++ quad count) →
      writesOf w.toNat = some writes → 1 ≤ count.toNat → count.toNat ≤ 262144 → base.toNat + count.toNat ≤ 16777216 →
      s.channel l = none → s.store.regionOf base.toNat (base.toNat + count.toNat) = some g →
      (writes = true → ((s.store.rights g).get l).write = true) → (writes = false → ((s.store.rights g).get l).read = true) →
      (writes = true → ∀ v ∈ s.voiceRanges, overlap base.toNat (base.toNat + count.toNat) v.1 v.2 = false) →
      ∃ t, exec (.storeOpen l f) s = .next t ∧ Taken l f r (.plain .done) [.store] s t ∧ Unreported s t
        ∧ t.store = { s.store with channels := s.store.channels.set l (some
            { write := writes, base := base.setWidth 24, current := base.setWidth 24, count := count.toNat,
              remaining := count.toNat }) })
    ∧ ∀ c, f.carries [] → s.channel l = some c →
      ∃ t, exec (.storeClose l f) s = .next t ∧ Taken l f r (.answer (be4 c.remaining)) [.store] s t ∧ Unreported s t
        ∧ t.store = { s.store with channels := s.store.channels.set l none }

/-- STORE_DATA on an open channel (R175): as many words as it brings or wants, and the channel has left, are taken and wait to be moved.
Once its REPLY_READY comes, with no other link's words waiting, they have landed from the current address onward, every other word
reading as before, or have been read into the reply; the channel has moved by them, and at its last word has closed, which TRANSFER_DONE
tells the link (R176). The model's own choice here: log entry 28. -/
def Obligations.StoreDataMoves : Prop :=
  (∀ (f : Frame) (s : State) (r : Reply) (l : Link) (c : Channel) (n : Nat),
    s.holds l r → s.store.initialising = false → s.channel l = some c → 1 ≤ c.remaining →
    (∀ ws : List Word, c.write = true → 1 ≤ ws.length → ws.length ≤ 64 → f.len.toNat = ws.length →
      f.bytes.take (4 * ws.length) = ws.flatMap quad → n = min ws.length c.remaining →
      ∃ t, exec (.storeData l f) s = .next t ∧ Taken l f r ⟨.done, n, []⟩ [.store] s t ∧ Unreported s t
        ∧ t.store = { s.store with waiting := s.store.waiting.set l (some ⟨ws.take n, n, []⟩) })
    ∧ (c.write = false → 129 ≤ f.len.toNat → n = min (min 64 (f.len.toNat - 128)) c.remaining →
      ∃ t, exec (.storeData l f) s = .next t ∧ Taken l f r ⟨.done, n, []⟩ [.store] s t ∧ Unreported s t
        ∧ t.store = { s.store with waiting := s.store.waiting.set l (some ⟨[], n, []⟩) }))
  ∧ ∀ (s : State) (l : Link) (a : Reply) (c : Channel) (ws : List Word) (n : Nat),
    (s.link l).slot = .pending a → s.channel l = some c → s.waiting l = some ⟨ws, n, []⟩ → (∀ k, k ≠ l → s.waiting k = none) →
    1 ≤ n → n ≤ 64 → n ≤ c.remaining → s.store.wf = true → (c.write = true → ws.length = n) →
    ∃ t, exec (.replyReady l) s = .next t ∧ OnlyChanges [.links, .store] s t ∧ WatchesKept s t
      ∧ (∀ k, k ≠ l → t.link k = s.link k) ∧ (t.link l).shifted = (s.link l).shifted
      ∧ (t.link l).slot = .held
          (if c.write then a
           else { a with results := (List.range n).flatMap fun i => quad (s.store.read (c.current + BitVec.ofNat 24 i)) })
      ∧ (c.write = true → ∀ i, i < n → ws[i]? = some (t.store.read (c.current + BitVec.ofNat 24 i)))
      ∧ (∀ b : Addr, (c.write = true → ∀ i, i < n → b ≠ c.current + BitVec.ofNat 24 i) → t.store.read b = s.store.read b)
      ∧ t.store = { s.store with
          words := t.store.words, pointer := nextLink l, waiting := .all none, posted := List.replicate 6 none,
          channels := s.store.channels.set l
            (if c.remaining = n then none
             else some { c with current := c.current + BitVec.ofNat 24 n, remaining := c.remaining - n }) }
      ∧ (c.remaining = n → (s.link l).riseEnable.getLsbD 13 = true → (t.link l).riseLatch.getLsbD 13 = true)
      ∧ (c.remaining ≠ n → Unreported s t)

/-- A bulk turn (R178) goes to the first link, at the pointer or after it, that has words waiting: it moves at most 32 of them, in address
order, and the pointer names the link after it; the stream requests posted before it have been served (R177). REPLY_READY takes turns
until its link has no words waiting. In the stream class (R177) a request of a requester that comes later stands while one of an earlier
requester does, and one that has been served does not stand again. The model's own choices here: log entries 28 and 30. -/
def Obligations.BulkTurns : Prop :=
  (∀ (s : State) (l : Link) (c : Channel) (x : Transfer) (turn : Link → Nat),
    (∀ k, turn k = (Link.code k + 4 - Link.code s.store.pointer) % 4) →
    s.channel l = some c → s.waiting l = some x → (∀ k, turn k < turn l → s.waiting k = none) →
    1 ≤ x.left → x.left ≤ c.remaining → s.store.wf = true → (c.write = true → x.words.length = x.left) →
    ∃ n, n = min 32 x.left ∧ s.bulkTurn.store.pointer = nextLink l ∧ s.bulkTurn.store.posted = List.replicate 6 none
      ∧ (∀ k, k ≠ l → s.bulkTurn.waiting k = s.waiting k ∧ s.bulkTurn.channel k = s.channel k)
      ∧ s.bulkTurn.channel l =
          (if c.remaining = n then none
           else some { c with current := c.current + BitVec.ofNat 24 n, remaining := c.remaining - n })
      ∧ s.bulkTurn.waiting l =
          (if x.left = n then none
           else some { words := x.words.drop n, left := x.left - n,
                       got := x.got ++ if c.write then []
                         else (List.range n).map fun i => s.store.read (c.current + BitVec.ofNat 24 i) })
      ∧ (c.write = true → ∀ i, i < n → x.words[i]? = some (s.bulkTurn.store.read (c.current + BitVec.ofNat 24 i)))
      ∧ ∀ b : Addr, (c.write = true → ∀ i, i < n → b ≠ c.current + BitVec.ofNat 24 i) →
          s.bulkTurn.store.read b = s.store.read b)
  ∧ (∀ (s : State) (l : Link) (a : Reply), (s.link l).slot = .pending a →
      ∃ t b, exec (.replyReady l) s = .next t ∧ t.waiting l = none ∧ (t.link l).slot = .held b
        ∧ b.status = a.status ∧ b.length = a.length ∧ (∀ k, s.waiting k = none → t.waiting k = none ∧ t.channel k = s.channel k))
  ∧ (∀ (s : State) (i k : Nat) (p q : Time), i < k → s.standing[i]? = some (some p) → s.store.posted[k]? = some (some q) →
      s.standing[k]? = some (some q))
  ∧ ∀ (s t : State) (k : Nat) (p : Time), t.store.posted = s.store.posted → s.clock.now ≤ t.clock.now →
      t.standing[k]? = some (some p) → s.standing[k]? = some (some p) ∧ s.store.posted[k]? = some (some p)

/-- REGION_SET that disturbs no voice and no channel: the bounds move, descriptors left outside CHIME and CLIP become invalid and are
counted in the reply and told to the links that defined them, and a buffer whose region moved is discarded, a paused broadcast's or a
memo's, with SHIFT_DISCARDED (R113, R171, R172). RIGHTS_SET changes one link's rights on one region (R173). The store's words stand. The
model's own choice here: log entry 68, by which DESCRIPTOR_INVALIDATED joins COCKPIT's list first. -/
def Obligations.BoundsAndRights : Prop :=
  (∀ (f : Frame) (s : State) (r : Reply) (a b : Half) (st : Store),
    s.holds .cockpit r → f.carries (half a ++ half b) → a.toNat ≤ b.toNat → b.toNat ≤ 256 → s.store.initialising = false →
    (∀ v ∈ s.voiceRanges, s.store.disturbs a.toNat b.toNat v.1 v.2 = false) →
    (∀ v ∈ s.store.channelRanges, s.store.disturbs a.toNat b.toNat v.1 v.2 = false) →
    st = { s.store with u0 := a.toNat, u1 := b.toNat } →
    ∃ t gone, exec (.regionSet .cockpit f) s = .next t
      ∧ Taken .cockpit f r (.answer [byteOf gone]) (.chime :: tableFollowers) s t
      ∧ t.store = { st with posted := t.store.posted }
      ∧ t.chime = { s.chime with descs := t.chime.descs } ∧ t.chime.descs.length = s.chime.descs.length
      ∧ (∀ i, t.desc i = (s.desc i).map fun x =>
          if x.valid = true ∧ st.soundRegion x.range.1 x.range.2 = none then { x with valid := false } else x)
      ∧ gone = (s.chime.descs.filter fun d => match d with
          | some x => x.valid && (st.soundRegion x.range.1 x.range.2).isNone
          | none => false).length
      ∧ (b.toNat = s.store.u1 → t.shift = s.shift ∧ t.table = s.table ∧ t.traffic = s.traffic)
      ∧ (b.toNat ≠ s.store.u1 → s.shift.state ≠ .off → s.memoWf → t.shift = .off ∧ FallLatched 3 s t
          ∧ (s.shift.purpose ≠ some .memo → t.table = s.table ∧ t.traffic = s.traffic)
          ∧ (s.shift.purpose = some .memo → t.traffic = { s.traffic with retained := none }
              ∧ (∀ k, k ≠ radioHandle → t.claim k = s.claim k)
              ∧ ∀ d, s.claim radioHandle = some d →
                  (d.source ≠ .shift → t.claim radioHandle = some d)
                  ∧ (d.source = .shift → s.traffic.announcing = false → t.claim radioHandle = none)
                  ∧ ∀ u, d.source = .shift → s.traffic.announcing = true → s.traffic.source = .tuner u →
                      t.claim radioHandle = some { d with source := sourceOfTuner u }))
      ∧ (s.chime.descs.length = 32 → s.memoWf → ∃ lost : Link → BitVec 32,
          (∀ (k : Link) (i : Nat), (lost k).getLsbD i = true ↔ ∃ x, s.desc i = some x ∧ x.definer = k ∧ x.valid = true
              ∧ st.soundRegion x.range.1 x.range.2 = none)
          ∧ ∀ (k : Link) (xs : List Advisory),
              xs = (if lost k = 0 then (s.link k).advisories
                    else joinAdvisory (s.link k).advisories (.descriptorInvalidated (lost k))) →
              (lost k ≠ 0 → (s.link k).riseEnable.getLsbD 15 = true → (t.link k).riseLatch.getLsbD 15 = true)
              ∧ (t.link k).advisories =
                  if k = .cockpit ∧ b.toNat ≠ s.store.u1 ∧ s.shift.state ≠ .off then
                    joinAdvisory xs (.shiftDiscarded .region s.shift.state s.shift.fill)
                  else xs))
  ∧ ∀ (f : Frame) (s : State) (r : Reply) (g k x y : Byte) (region : Region) (link : Link) (rd wr : Bool),
    s.holds .cockpit r → f.carries [g, k, x, y] → regionOf g.toNat = some region → linkOf k.toNat = some link →
    onOff x.toNat = some rd → onOff y.toNat = some wr → ¬(region = .shift ∧ wr = true) →
    ∃ t, exec (.rightsSet .cockpit f) s = .next t ∧ Taken .cockpit f r (.plain .done) [.store] s t ∧ Unreported s t
      ∧ t.store = { s.store with
          chimeRights := t.store.chimeRights, clipRights := t.store.clipRights, shiftRights := t.store.shiftRights }
      ∧ ∀ (g' : Region) (k' : Link), (t.store.rights g').get k' =
          if g' = region ∧ k' = link then ⟨rd, wr⟩ else (s.store.rights g').get k'

/-! ## The Link Block -/

/-- WATCH_SET and WATCH_CLEAR move members in and out of the issuing link's enable sets, notices having no fall (R187); EVENTS_READ answers
latch, levels, restart flag and advisories and empties them (R190); STATUS_READ answers a part of a group (R191), and LIST_READ the
version, the number of entries and up to 6 of them (R84), and neither changes anything. Each level is true as its condition says (R186,
R33), and whatever command changes the level of a condition other than 2, 3 and 4 latches the edge on every link that watches it (R188).
The model's own choice here: log entry 40, for the bytes that section 12 does not size. -/
def Obligations.WatchesAndReports : Prop :=
  (∀ (f : Frame) (s : State) (r : Reply) (l : Link) (a b : Half), s.holds l r → f.carries (half a ++ half b) →
    (∃ t, exec (.watchSet l f) s = .next t ∧ Exchanged l f r (.plain .done) s t ∧ OnlyChanges [.links] s t ∧ Unreported s t
      ∧ (t.link l).riseEnable = (s.link l).riseEnable ||| a
      ∧ (t.link l).fallEnable = (s.link l).fallEnable ||| (b &&& 0x07FF)
      ∧ (∀ k, (t.link k).restart = (s.link k).restart) ∧ ∀ k, k ≠ l → t.link k = s.link k)
    ∧ ∃ t, exec (.watchClear l f) s = .next t ∧ Exchanged l f r (.plain .done) s t ∧ OnlyChanges [.links] s t ∧ Unreported s t
      ∧ (t.link l).riseEnable = (s.link l).riseEnable &&& ~~~a
      ∧ (t.link l).fallEnable = (s.link l).fallEnable &&& ~~~(b &&& 0x07FF)
      ∧ (∀ k, (t.link k).restart = (s.link k).restart) ∧ ∀ k, k ≠ l → t.link k = s.link k)
  ∧ (∀ (f : Frame) (s : State) (r : Reply) (l : Link) (x : LinkState), s.holds l r → f.carries [] → x = s.link l →
    ∃ t bs, exec (.eventsRead l f) s = .next t ∧ OnlyChanges [.links] s t ∧ (∀ k, k ≠ l → t.link k = s.link k)
      ∧ r.shownIn (f.bytes.length + 2) x.attention bs
      ∧ t.link l =
          { slot := .pending (.answer (be2 x.riseLatch.toNat ++ be2 x.fallLatch.toNat ++ be2 (s.levels l).toNat
              ++ [if x.restart then 1 else 0] ++ [byteOf x.advisories.length] ++ x.advisories.flatMap Advisory.bytes)),
            shifted := some bs, riseEnable := x.riseEnable, fallEnable := x.fallEnable, riseLatch := 0,
            fallLatch := 0, advisories := [], restart := false })
  ∧ (∀ (f : Frame) (s : State) (r : Reply) (l : Link) (g i p : Byte) (bs : List Byte), s.holds l r → f.carries [g, i, p] →
    s.statusGroup g.toNat i.toNat = some bs → p.toNat < partCount bs.length →
    ∃ t, exec (.statusRead l f) s = .next t ∧ Unreported s t
      ∧ Taken l f r (.answer (byteOf (partCount bs.length) :: (bs.drop (254 * p.toNat)).take 254)) [] s t)
  ∧ (∀ (s : State) (l : Link) (k : Nat), (s.levels l).getLsbD k = true ↔ s.condition l k)
  ∧ (∀ (c : Instr) (s t : State) (l : Link) (k : Nat), exec c s = .next t → k ≠ 2 → k ≠ 3 → k ≠ 4 →
    (¬s.condition l k → t.condition l k → (t.link l).riseEnable.getLsbD k = true → (t.link l).riseLatch.getLsbD k = true)
    ∧ (s.condition l k → ¬t.condition l k → (t.link l).fallEnable.getLsbD k = true → (t.link l).fallLatch.getLsbD k = true))
  ∧ ∀ (f : Frame) (s : State) (r : Reply) (l : Link) (p : Byte), s.holds l r → f.carries [p] → p.toNat ≤ 47 →
    (l = .cockpit ∨ l = .rear) →
    ∃ t, exec (.listRead l f) s = .next t ∧ Unreported s t
      ∧ Taken l f r (.answer (be2 s.radio.version ++ [byteOf s.radio.stations.length]
          ++ ((s.radio.stations.drop p.toNat).take 6).flatMap Entry.bytes)) [] s t

/-- The frame exchange (R182 to R184): a select period shifts out the held reply's status, result length, results and pending flag, as far
as it lasts, and zeros behind them, and a null frame does no more; a period that begins before the reply is ready, be it an order's, is
answered WAIT and discarded; REPLY_READY puts the answer into the slot; and a code that names no order is answered so. The model's own
choices here: log entries 46, and 66, by which a null frame shifts out no more of the reply than the bytes it clocks. -/
def Obligations.FrameExchange : Prop :=
  (∀ (i : Instr) (c : Byte) (l : Link) (f : Frame) (s : State) (a : Reply),
    i.request = some (c, l, f) → (s.link l).slot = .pending a →
      ∃ t bs, exec i s = .next t ∧ OnlyChanges [.links] s t ∧ (∀ k, k ≠ l → t.link k = s.link k)
        ∧ t.link l = { s.link l with shifted := some bs }
        ∧ (Reply.plain .wait).shownIn (f.bytes.length + 2) (s.link l).attention bs)
  ∧ ∀ (s : State) (l : Link),
    (∀ (r : Reply) (n : Nat), s.holds l r →
      ∃ t bs, exec (.nullFrame ⟨l, n⟩) s = .next t ∧ OnlyChanges [.links] s t ∧ (∀ k, k ≠ l → t.link k = s.link k)
        ∧ t.link l = { s.link l with shifted := some bs } ∧ r.shownIn n (s.link l).attention bs)
    ∧ (∀ a, (s.link l).slot = .pending a →
      (∀ (i : Instr) (n : Nat), (i = .wait ⟨l, n⟩ ∨ i = .nullFrame ⟨l, n⟩) →
        ∃ t bs, exec i s = .next t ∧ OnlyChanges [.links] s t ∧ (∀ k, k ≠ l → t.link k = s.link k)
          ∧ t.link l = { s.link l with shifted := some bs } ∧ (Reply.plain .wait).shownIn n (s.link l).attention bs)
      ∧ (s.waiting l = none →
          ∃ t, exec (.replyReady l) s = .next t ∧ OnlyChanges [.links] s t ∧ (∀ k, k ≠ l → t.link k = s.link k)
            ∧ t.link l = { s.link l with slot := .held a }))
    ∧ ∀ (c : Byte) (f : Frame) (r : Reply), s.holds l r →
      ∃ t, exec (.unknownOrder l c f) s = .next t ∧ Unreported s t
        ∧ Taken l f r (.plain (if f.bytes.length < f.len.toNat then .badOperand else .unknownOrder)) [] s t

/-! ## Power and resets -/

/-- POWER (R194, R195, R197): the present state is DONE at once; RUN is entered with Tuner A tuned to its held frequency; leaving RUN
stops mix, voices, buffer, tuners and trackers and keeps the list and the store; and QUIET and SLEEP differ by the refresh timer and
sweep. WAKE_SET takes its settings (R196). The model's own choice here: log entries 1 and
2 (the clock, by which the first frame event of RUN is due at its entry) and 48 (the form of the timer). -/
def Obligations.PowerMoves : Prop :=
  (∀ (f : Frame) (s : State) (r : Reply) (l : Link) (b : Byte) (p : PowerState),
    s.holds l r → (l = .cockpit ∨ l = .body) → f.carries [b] → powerOf b.toNat = some p → s.store.initialising = false →
    (p = .run ∨ s.call.state = .idle) →
    (p = s.power.state → ∃ t, exec (.power l f) s = .next t ∧ Taken l f r (.plain .done) [] s t ∧ Unreported s t)
    ∧ (p = .run → s.power.state ≠ .run → ∃ t, exec (.power l f) s = .next t
      ∧ Taken l f r (.plain .done) (.clock :: .power :: .tunA :: reassessed) s t
      ∧ t.power = { s.power with state := .run, entry := some .power, timer := none }
      ∧ t.clock = { s.clock with frameDue := s.clock.now, periods := 48 }
      ∧ t.tunA.settlingOn s.tunA.rx.freq (some (.runEntry, .resumed)) s.clock.now)
    ∧ (p ≠ .run → s.power.state = .run → ∃ t, exec (.power l f) s = .next t ∧ Exchanged l f r (.plain .done) s t
      ∧ WatchesKept s t
      ∧ t.power = { s.power with state := p, timer := if p = .quiet then some (s.clock.now, s.power.interval) else none }
      ∧ (∀ x ∈ t.mix.sinks, x.list = [] ∧ x.waiting = [] ∧ x.sending = silentFrame ∧ x.computed = silentFrame)
      ∧ (∀ n : Fin 4, (t.voice n.val).state = .idle) ∧ t.chime.queue = [] ∧ t.chime.descs = s.chime.descs
      ∧ t.tunA.state = .off ∧ t.tunB.state = .off ∧ t.tunB.holder = none ∧ (∀ q, (t.tracker q).state = .absent)
      ∧ (s.memoWf → t.shift.state = .off ∧ t.traffic.announcing = false)
      ∧ t.radio = s.radio ∧ t.store.words = s.store.words ∧ t.clock = s.clock)
    ∧ (p ≠ .run → s.power.state ≠ .run → p ≠ s.power.state → ∃ t, exec (.power l f) s = .next t
      ∧ Taken l f r (.plain .done) (.power :: reassessed) s t
      ∧ t.power = { s.power with state := p, timer := if p = .quiet then some (s.clock.now, s.power.interval) else none }
      ∧ (p = .quiet → t.tunB = s.tunB ∧ t.table = s.table)
      ∧ (p = .sleep → s.tunB.state = .refresh → t.tunB.state = .off)))
  ∧ ∀ (f : Frame) (s : State) (r : Reply) (a b c d : Byte) (m : Half) (w x y z : Bool),
    s.holds .cockpit r → f.carries ([a, b, c, d] ++ half m) → onOff a.toNat = some w → onOff b.toNat = some x →
    onOff c.toNat = some y → onOff d.toNat = some z →
    ∃ t, exec (.wakeSet .cockpit f) s = .next t ∧ Taken .cockpit f r (.plain .done) [.power] s t ∧ Unreported s t
      ∧ t.power = { s.power with
          wakeIgnition := w, wakeChime := x, wakeJack := y, wakeCall := z, interval := max 1 (min 240 m.toNat) }

/-- Power-on starts the fill (R179, R198), whose end places the hub in SLEEP and lets an ignition that is then high wake it; a rise of
the ignition wakes it later (R196), and when the level falls again no rule says; and the refresh timer starts a sweep in QUIET (R93, R197). The model's own choice here: log entries 7
(STORE_READY and REFRESH_TIMER_EXPIRY bring the clock to the moment they are due) and 20 to 24. -/
def Obligations.PowerEvents : Prop :=
  (∀ (s : State) (ignition jack1 jack2 : Bool), ∃ t, exec (.powerOn ignition jack1 jack2) s = .next t
    ∧ t.pending = s.pending ∧ t.store = Store.fresh ∧ t.store.initialising = true ∧ t.store.words = []
    ∧ t.power.state = .sleep ∧ (ignition = false → t.power.ignition = .low)
    ∧ (ignition = true → ∃ falls, t.power.ignition = .high falls) ∧ t.table.counter = 0 ∧ (∀ h, t.claim h = none)
    ∧ t.mix = Mix.fresh ∧ (∀ k, t.link k = LinkState.fresh) ∧ t.stations.one.measuring = jack1
    ∧ t.stations.two.measuring = jack2 ∧ t.radio.stations = [])
  ∧ (∀ (s : State) (high : Prop), s.store.initialising = true →
    (high ↔ ∃ falls, s.power.ignition = .high falls
      ∧ ∀ x, falls = some x → max s.clock.now (s.store.initAt + milliseconds 40) < x) →
    ∃ t, exec .storeReady s = .next t ∧ t.store.initialising = false ∧ t.store.words = s.store.words
      ∧ t.clock.now = max s.clock.now (s.store.initAt + milliseconds 40)
      ∧ (high → s.power.wakeIgnition = true →
          Happens (.clock :: .ports :: .power :: .tunA :: reassessed) s t ∧ t.power.state = .run
            ∧ t.power.entry = some .ignition ∧ t.tunA.settlingOn s.tunA.rx.freq (some (.runEntry, .resumed)) t.clock.now)
      ∧ (¬high ∨ s.power.wakeIgnition = false →
          Happens [.clock, .ports, .power, .store] s t ∧ Unreported s t ∧ t.power = { s.power with state := .sleep }))
  ∧ (∀ s : State,
    (s.power.state = .run ∨ s.power.wakeIgnition = false ∨ s.store.initialising = true →
      ∃ t falls, exec .ignitionRise s = .next t ∧ Happens [.power] s t ∧ Unreported s t
        ∧ t.power = { s.power with ignition := .high falls } ∧ ∀ x, falls = some x → s.clock.now ≤ x)
    ∧ (s.power.state ≠ .run → s.power.wakeIgnition = true → s.store.initialising = false →
      ∃ t falls, exec .ignitionRise s = .next t ∧ Happens (.clock :: .power :: .tunA :: reassessed) s t
        ∧ t.power = { s.power with state := .run, entry := some .ignition, timer := none, ignition := .high falls }
        ∧ (∀ x, falls = some x → s.clock.now ≤ x)
        ∧ t.tunA.settlingOn s.tunA.rx.freq (some (.runEntry, .resumed)) s.clock.now))
  ∧ ∀ (s : State) (t0 : Time) (m : Nat), s.power.timer = some (t0, m) → s.power.state = .quiet → s.tunB.state ≠ .refresh →
    ∃ t, exec .refreshTimerExpiry s = .next t ∧ Happens (.clock :: .power :: reassessed) s t
      ∧ t.clock.now = max s.clock.now (t0 + minutes m) ∧ t.power = { s.power with timer := none }
      ∧ t.tunB.state = .refresh ∧ t.tunB.rx.freq = ⟨.fm, 87500⟩ ∧ ∀ e ∈ t.radio.stations, e.seen = false

/-- LINK_RESET (R192, R38, R65, R135, R151, R168) takes back what its link has in the hub and leaves what the others have; HUB_RESET (R193)
returns every block to its reset values, keeping the power state, the Station List, the descriptors and the store. The model's own choices
here: log entries 20 (the canceller's last sample did not adapt), 26, 27 and 28 (words waiting at HUB_RESET are moved first). -/
def Obligations.Resets : Prop :=
  (∀ (f : Frame) (s : State) (r : Reply) (l : Link), s.holds l r → f.carries [] → s.table.counter + 8 < seqMax →
    ∃ t, exec (.linkReset l f) s = .next t ∧ Exchanged l f r (.plain .done) s t
      ∧ OnlyChanges [.links, .table, .mix, .call, .chime, .store, .shift, .traffic, .stations, .tunB, .radio] s t
      ∧ (t.link l).riseEnable = 0 ∧ (t.link l).fallEnable = 0 ∧ (t.link l).restart = false
      ∧ ((t.link l).riseLatch = 0 ∧ (t.link l).fallLatch = 0) ∧ (l ≠ .cockpit → (t.link l).advisories = [])
      ∧ (∀ k, k ≠ l → (t.link k).riseEnable = (s.link k).riseEnable ∧ (t.link k).fallEnable = (s.link k).fallEnable
          ∧ (t.link k).restart = (s.link k).restart)
      ∧ (∀ h, h < 10 → t.claim h = match s.claim h with
          | some c => if c.claimant = .link l then none else some c
          | none => none)
      ∧ t.channel l = none ∧ (∀ k, k ≠ l → t.channel k = s.channel k) ∧ t.store.words = s.store.words
      ∧ (∀ z k, hasLink (t.mute z) k = (hasLink (s.mute z) k && decide (k ≠ l)))
      ∧ (∀ k, hasLink t.call.mutes k = (hasLink s.call.mutes k && decide (k ≠ l)))
      ∧ (∀ n : Fin 4, s.chime.voices.length = 4 → (s.voice n.val).sounding → (s.voice n.val).starter = some l →
          (t.voice n.val).state = .stopping ∧ (t.voice n.val).cause = some .reset)
      ∧ (∀ q ∈ t.chime.queue, q.link ≠ l)
      ∧ (l = .telephony → t.call.state = .idle) ∧ (l ≠ .telephony → t.call.state = s.call.state)
      ∧ (l ≠ .rear → t.tunB = s.tunB ∧ t.stations = s.stations)
      ∧ (l = .rear → ∀ st, s.tunB.holder = some st →
          t.tunB.holder = (if (s.station (other st)).source = .tunerB then some (other st) else none)
          ∧ t.station st = { s.station st with graceAt := none }
          ∧ t.station (other st) =
              if (s.station (other st)).source = .tunerB then
                { s.station (other st) with graceAt := if (s.station (other st)).inserted then none else some s.clock.now }
              else s.station (other st)))
  ∧ ∀ (f : Frame) (s : State) (r : Reply), s.holds .cockpit r → f.carries [] →
    ∃ t, exec (.hubReset .cockpit f) s = .next t ∧ (t.link .cockpit).slot = .pending (.plain .done)
      ∧ ((∀ k, s.waiting k = none) → Exchanged .cockpit f r (.plain .done) s t)
      ∧ t.clock = s.clock ∧ t.ports = s.ports ∧ t.pending = s.pending
      ∧ (∀ k, (t.link k).riseEnable = 0 ∧ (t.link k).fallEnable = 0 ∧ (t.link k).riseLatch = 0
          ∧ (t.link k).fallLatch = 0 ∧ (t.link k).advisories = [] ∧ (t.link k).restart = true)
      ∧ t.table = { s.table with entries := List.replicate 16 none } ∧ t.mix = Mix.fresh ∧ t.traffic = Traffic.fresh
      ∧ t.shift = .off ∧ t.call = Call.fresh ∧ t.stations.cap = 48 ∧ t.stations.lock = false
      ∧ (∀ st, (t.station st).source = .mediaRear ∧ (t.station st).volume = 96 ∧ (t.station st).graceAt = none
          ∧ (t.station st).inserted = (s.station st).inserted)
      ∧ t.chime.descs = s.chime.descs ∧ t.chime.counter = s.chime.counter ∧ t.chime.queue = []
      ∧ (∀ v ∈ t.chime.voices, v.state = .idle)
      ∧ t.store.channels = .all none ∧ t.store.waiting = .all none
      ∧ ((∀ k, s.waiting k = none) → t.store = { s.store with channels := .all none, posted := t.store.posted })
      ∧ t.store = { s.store with
          words := t.store.words, pointer := t.store.pointer, channels := .all none, waiting := .all none,
          posted := t.store.posted }
      ∧ t.power.state = s.power.state ∧ t.power.entry = s.power.entry ∧ t.power.interval = 15
      ∧ t.power.wakeIgnition = true ∧ t.power.wakeChime = true ∧ t.power.wakeJack = true ∧ t.power.wakeCall = true
      ∧ t.radio.stations.map (fun e => (e.freq, e.preset)) = s.radio.stations.map (fun e => (e.freq, e.preset))
      ∧ t.tunB.holder = none
      ∧ (s.power.state = .run →
          t.tunA.settlingOn (s.tunA.seekStart.getD (s.tunA.home.getD s.tunA.rx.freq)) (some (.hubReset, .resumed)) s.clock.now)
      ∧ (s.power.state ≠ .run → t.tunA.state = .off ∧ t.tunB.state = .off)

/-! ## Frames and ports -/

/-- A frame event in RUN at which nothing else is due: it stands 48 sample periods after the last, or at the entry of RUN; every sink sends
what it computed at the one before (R2, R48, R62); the tuners' states stand, and a fast change of their trim has been taken (R52); voices
move on by 48 samples, gaps by a frame, and a stopping voice learns whether it is still heard (R156, R158); and no stream request stands but
those posted at it by a requester that needs words (R177). Outside RUN there are no frame events. The model's own choices here: log entries
1, 2 and 7 (the clock), 6 (a frame event outside RUN), 9, and 38, its reading of R158: a voice is still heard while any contribution of its
claim's handle, in any role and so a tail too, stands below 360. -/
def Obligations.FrameAdvances : Prop :=
  (∀ (s : State) (x : FrameInput), s.power.state ≠ .run → exec (.frameEvent x) s = .next s)
  ∧ ∀ (s : State) (x : FrameInput), s.power.state = .run → s.nothingDue →
    ∃ t, exec (.frameEvent x) s = .next t
      ∧ Happens [.clock, .ports, .mix, .tunA, .tunB, .shift, .store, .call, .stations, .chime] s t
      ∧ t.clock = ⟨max s.clock.now s.clock.frameDue, s.clock.frameDue + 48 * 1000000, 0⟩
      ∧ (∀ k, (t.sink k).sending = if k < s.mix.sinks.length then (s.sink k).computed else silentFrame)
      ∧ t.tunA.state = s.tunA.state ∧ t.tunB.state = s.tunB.state ∧ t.tunA.rx.fastDue = false ∧ t.tunB.rx.fastDue = false
      ∧ t.ports.t0 = [] ∧ t.ports.t1 = [] ∧ (∀ p, (t.tracker p).delivered = [] ∧ (t.tracker p).state = (s.tracker p).state)
      ∧ (∀ n : Fin 4, s.chime.voices.length = 4 →
          ((s.voice n.val).state = .playing → t.voice n.val =
            { s.voice n.val with position := (s.voice n.val).position + min 48 (s.voice n.val).remaining,
                                 remaining := (s.voice n.val).remaining - 48 })
          ∧ ((s.voice n.val).state = .gap → t.voice n.val = { s.voice n.val with gapLeft := (s.voice n.val).gapLeft - 1 })
          ∧ ((s.voice n.val).state = .stopping → (t.voice n.val).state = .stopping
              ∧ (t.voice n.val).position = (s.voice n.val).position + min 48 (s.voice n.val).remaining
              ∧ (t.voice n.val).remaining = (s.voice n.val).remaining - 48
              ∧ ((t.voice n.val).faded = true ↔
                  ∀ y ∈ t.mix.sinks, ∀ c ∈ y.list, c.origin = .handle (voiceHandle n.val) → 360 ≤ c.applied)))
      ∧ ∀ (k : Nat) (p : Time), t.standing[k]? = some (some p) → p = t.clock.now
          ∧ (k = 0 → t.shift.running = true)
          ∧ (k = 1 → (t.shift.state = .replay ∨ t.shift.state = .memoReplay) ∧ 0 < t.shift.fill)
          ∧ ∀ n : Fin 4, k = 2 + n.val →
              (t.voice n.val).state = .playing ∨ ((t.voice n.val).state = .stopping ∧ 0 < (t.voice n.val).remaining)

/-- The contribution list at a frame event. Departures (R49): what the view no longer places becomes a tail at the newest end, target 360,
and none is removed. Arrivals (R50): the newest tail of the same origin, kind and source takes its role again; otherwise a new contribution
at 360 enters a list with room, or takes the place of the oldest tail, or waits. The base comes first, then the overlays that wait, in
their order, then the new ones by sequence number (R50, R51). Each contribution then moves toward its target by at most its ramp's rate
(R52, R54), and a tail that has come to 360 goes (R48). The target is 360 for a tail, an ending claim, a muted zone (R54) and where a volume
of 360 silences (R43, R125, R140); else on a LINE station 24 plus the source trim (R55), elsewhere R53's sum, clamped. The duck of a sink is
the greatest of its overlays whose claims are not ending (R25). The model's own choices here: log entries 9, 35 (the order of what departs
at one frame event), 36, 44, and 65, by which a volume of 360 silences whatever the other terms of R53's sum. -/
def Obligations.ContributionList : Prop :=
  (∀ (xs D gone : List Contribution) (base : Wanted) (mixed : List (Nat × Claim)),
    D = departures xs base mixed →
    gone = xs.filter (fun c => (c.role = .base && !c.isOf base)
      || (c.role = .overlay && mixed.all fun m => !c.isOf (m.2.wanted m.1))) →
    D.length = xs.length
      ∧ D = xs.filter (fun c => c.role = .base && c.isOf base)
          ++ xs.filter (fun c => c.role = .tail) ++ gone.map (fun c => { c with role := .tail, target := 360 })
          ++ xs.filter (fun c => c.role = .overlay && mixed.any fun m => c.isOf (m.2.wanted m.1)))
  ∧ (∀ (xs : List Contribution) (w : Wanted) (r : Role) (new : Contribution)
      (put : Contribution → List Contribution → List Contribution), r ≠ .tail →
    (∀ c ys, put c ys = if r = .base then { c with role := .base } :: ys else ys ++ [{ c with role := .overlay }]) →
    new = { origin := w.origin, source := w.source, kind := w.kind, role := r, target := 360, applied := 360, ramp := w.ramp,
            fast := false } →
    (∀ a c b, xs = a ++ c :: b → c.role = .tail → c.isOf w = true → (∀ y ∈ b, ¬(y.role = .tail ∧ y.isOf w = true)) →
      arrive r w xs = some (put c (a ++ b)))
    ∧ ((∀ y ∈ xs, ¬(y.role = .tail ∧ y.isOf w = true)) →
      (xs.length < 6 → arrive r w xs = some (put new xs))
      ∧ (6 ≤ xs.length → ∀ a c b, xs = a ++ c :: b → c.role = .tail → (∀ y ∈ a, y.role ≠ .tail) →
          arrive r w xs = some (put new (a ++ b)))
      ∧ (6 ≤ xs.length → (∀ y ∈ xs, y.role ≠ .tail) → arrive r w xs = none)))
  ∧ (∀ (p : Nat × Claim) (rest : List (Nat × Claim)) (xs : List Contribution),
    (∀ ys, arrive .overlay (p.2.wanted p.1) xs = some ys → arriveAll (p :: rest) xs = arriveAll rest ys)
    ∧ (arrive .overlay (p.2.wanted p.1) xs = none →
        arriveAll (p :: rest) xs = ((arriveAll rest xs).1, p.1 :: (arriveAll rest xs).2)))
  ∧ (∀ (s : State) (x : FrameInput), s.power.state = .run → s.nothingDue → s.mix.sinks.length = 20 →
    ∃ t, exec (.frameEvent x) s = .next t ∧ ∀ (k : Nat) (z : Zone), k < 20 → z = Zone.ofSink k →
      ∃ (D xs ys : List Contribution) (absent old new : List (Nat × Claim)),
        D = departures ((s.sink k).list.map s.markFast) (s.wantedBase z) (s.table.mixed z)
        ∧ xs = (if D.any (fun c => c.role = .base) then D else (arrive .base (s.wantedBase z) D).getD D)
        ∧ absent = (s.table.mixed z).filter (fun m => xs.all fun c => !(c.role = .overlay && c.origin = .handle m.1))
        ∧ old = (s.sink k).waiting.filterMap (fun h => absent.find? fun m => m.1 = h)
        ∧ new.Pairwise (fun a b => a.2.seq ≤ b.2.seq) ∧ (∀ m, m ∈ new ↔ m ∈ absent ∧ m.1 ∉ (s.sink k).waiting)
        ∧ (ys, (t.sink k).waiting) = arriveAll (old ++ new) xs
        ∧ 0 ≤ (t.sink k).duck ∧ (∀ c ∈ ys, s.duckOf c ≤ (t.sink k).duck)
        ∧ ((t.sink k).duck = 0 ∨ ∃ c ∈ ys, s.duckOf c = (t.sink k).duck)
        ∧ (t.sink k).boost = (if hasZone s.mix.curveZones z = true ∧ z.station = none then boostAt s.mix.speed s.mix.curve else 0)
        ∧ (t.sink k).list =
            (ys.map (s.moveContribution z (t.sink k).duck (s.sink k).guard (s.sink k).trim)).filter
              fun c => !(c.role = .tail && c.applied = 360))
  ∧ (∀ (s : State) (c : Contribution), (c.role ≠ .overlay ∨ c.origin = .program → s.duckOf c = 0)
      ∧ ∀ h x, c.role = .overlay → c.origin = .handle h → s.claim h = some x →
          s.duckOf c = if x.ending then 0 else x.duck.getD 0)
  ∧ (∀ (s : State) (z : Zone) (duck guard trim sourceTrim volume boost : Int) (c : Contribution),
    sourceTrim = (match c.source with
      | .mediaFront => s.mix.trimFront | .mediaRear => s.mix.trimRear | .nav => s.mix.trimNav
      | .tunerA => s.tunA.trim | .tunerB => s.tunB.trim
      | .callDown | .voice _ | .shift | .silence => 0) →
    volume = (match z.station with | some st => (s.station st).volume | none => s.mix.volumes.getD z.code 120) →
    boost = (if hasZone s.mix.curveZones z = true ∧ z.station = none then boostAt s.mix.speed s.mix.curve else 0) →
    ((c.role = .tail ∨ s.mix.mutes.getD z.code 0 ≠ 0 ∨ ∃ h x, c.origin = .handle h ∧ s.claim h = some x ∧ x.ending = true) →
      s.target z duck guard trim c = 360)
    ∧ ∀ (level own : Int) (silences : Prop), c.role ≠ .tail → s.mix.mutes.getD z.code 0 = 0 →
      ((c.origin = .program ∧ level = 0 ∧ own = volume ∧ (silences ↔ volume = 360))
        ∨ ∃ h x, c.origin = .handle h ∧ s.claim h = some x ∧ x.ending = false ∧ level = x.level.getD s.call.volume
            ∧ own = (if x.tier = .normal then volume else 0)
            ∧ (silences ↔ (x.level = none ∧ s.call.volume = 360) ∨ (x.tier = .normal ∧ volume = 360))) →
      (∀ st, z.station = some st → (s.station st).jack = .line →
        s.target z duck guard trim c = clampInt (-24) 360 (24 + sourceTrim))
      ∧ ((∀ st, z.station = some st → (s.station st).jack ≠ .line) →
        (silences → s.target z duck guard trim c = 360)
        ∧ (¬silences → s.target z duck guard trim c =
            clampInt (-24) 360
              (sourceTrim + level + own + (if c.role = .base then duck else 0) + trim + guard - boost))))
  ∧ ∀ (s : State) (z : Zone) (duck guard trim rate : Int) (c d : Contribution) (fast : Bool),
    d = s.moveContribution z duck guard trim c →
    (fast = true ↔ c.fast = true
      ∨ (c.role ≠ .tail ∧ ∃ h x, c.origin = .handle h ∧ s.claim h = some x ∧ x.ending = true)) →
    rate = (if fast then 24 else match d.ramp with | .slow => 1 | .medium => 4 | .fast => 24) →
    (c.role = .tail ∨ c.origin = .program → d.ramp = c.ramp)
      ∧ (∀ h x, c.role ≠ .tail → c.origin = .handle h → s.claim h = some x → d.ramp = x.ramp)
      ∧ d.target = s.target z duck guard trim c ∧ -24 ≤ d.target ∧ d.target ≤ 360
      ∧ d.fast = (c.fast && decide (d.applied ≠ d.target)) ∧ d.role = c.role ∧ d.origin = c.origin ∧ d.source = c.source
      ∧ ((c.applied + rate < d.target ∧ d.applied = c.applied + rate)
          ∨ (d.target < c.applied - rate ∧ d.applied = c.applied - rate)
          ∨ (c.applied - rate ≤ d.target ∧ d.target ≤ c.applied + rate ∧ d.applied = d.target))

/-- The samples of a sink at a frame event whose sample periods have passed: the saturated sum of its contributions' products (R48, R57,
R58), with at least the cap's attenuation on a station with headphones or a headset (R55), from what the ports, tuners, voices and the Shift
Buffer hand over (R13, R14): an L sink takes the left sample of each pair, an R sink the right, a SUM sink the floor of half their sum, and a
station's swap exchanges the sides of its two sinks (R15, R16); the clip guard rises by 2 where a sum clips (R61); the sums go through the delay line and the output fade, and
are zero on a station that is OPEN or SHORT (R62, R63). The slots of Q0 and Q1 carry in RUN, in 24 bits and 8 zero bits, the samples being
sent of sinks 0..15 and 16..19, and zero outside RUN (R17). The model's own choices here: log entries 2, 9, 37 and 57. -/
def Obligations.SamplesAndOutputs : Prop :=
  (∀ (s : State) (x : FrameInput), s.power.state = .run → s.nothingDue → s.sizesWf → s.clock.periods = 48 →
    ∃ t, exec (.frameEvent x) s = .next t ∧ ∀ k, k < 20 →
      ∃ (raw delayed : Nat → Int) (used : Int → Int) (o d : Nat) (swap : Bool) (side : Int × Int → Int),
        swap = (((k == 16 || k == 17) && (s.station .one).swap) || ((k == 18 || k == 19) && (s.station .two).swap))
        ∧ (k ∈ [0, 2, 5, 7, 9, 11, 14, 16, 18] → ∀ p, side p = if swap then p.2 else p.1)
        ∧ (k ∈ [1, 3, 6, 8, 10, 12, 15, 17, 19] → ∀ p, side p = if swap then p.1 else p.2)
        ∧ (k ∈ [4, 13] → ∀ p, side p = (p.1 + p.2) / 2) ∧
        (∀ a, used a = if s.zoneClass (Zone.ofSink k) = some .headphone ∨ s.zoneClass (Zone.ofSink k) = some .headset
          then max a s.stations.cap else a)
        ∧ (∀ i, i < 48 → raw i = ((t.sink k).list.map fun c =>
            (side (s.sampleOf x i c.source) * gain (used c.applied) + 16384) / 32768).sum)
        ∧ ((t.sink k).clip = true ↔ ∃ i, i < 48 ∧ raw i ≠ clampInt (-8388608) 8388607 (raw i))
        ∧ ((t.sink k).clip = true → (t.sink k).guard = min 24 ((s.sink k).guard + 2) ∧ (t.sink k).clean = 0)
        ∧ ((t.sink k).clip = false → (t.sink k).guard = (s.sink k).guard ∧ (t.sink k).clean = (s.sink k).clean + 1)
        ∧ (∀ j, j < 48 → (t.sink k).line.getD j 0 = clampInt (-8388608) 8388607 (raw (47 - j)))
        ∧ (∀ j, 48 ≤ j → j < 960 → (t.sink k).line.getD j 0 = (s.sink k).line.getD (j - 48) 0)
        ∧ ((s.sink k).delayState = .steady → o = (s.sink k).fade)
        ∧ ((s.sink k).delayState = .fadeOut → o = min 360 ((s.sink k).fade + 24))
        ∧ ((s.sink k).delayState = .fadeIn → o = (s.sink k).fade - 24)
        ∧ (t.sink k).fade = o ∧ ((t.sink k).faded = true ↔ (s.sink k).delayState = .fadeOut ∧ o = 360)
        ∧ d = (s.sink k).delay
        ∧ (∀ i, i < 48 → delayed i =
            if d ≤ i then clampInt (-8388608) 8388607 (raw (i - d)) else (s.sink k).line.getD (d - 1 - i) 0)
        ∧ ∀ i, i < 48 → (t.sink k).computed.getD i 0 =
            if s.zoneClass (Zone.ofSink k) = some .vacant ∨ s.zoneClass (Zone.ofSink k) = some .short then 0
            else (delayed i * gain o + 16384) / 32768)
  ∧ ∀ (s : State) (i : Nat), (s.q0 i).length = 16 ∧ (s.q1 i).length = 4
    ∧ ∀ (k : Nat) (w : Word), ((k < 16 ∧ (s.q0 i)[k]? = some w) ∨ (16 ≤ k ∧ (s.q1 i)[k - 16]? = some w)) →
        (s.power.state ≠ .run → w = 0)
        ∧ (s.power.state = .run → w.extractLsb' 0 8 = 0
            ∧ (inSample ((s.sink k).sending.getD i 0) → (w.extractLsb' 8 24).toInt = (s.sink k).sending.getD i 0))

/-- The Shift Buffer at a frame event whose sample periods have passed (R102, R103): a replay takes up to 48 words from Rp onward around the
ring; a capture writes the captured tuner's 48 pairs, rounded to 16 bits, to the words from W onward and no other word, moves W past them,
and in a full ring moves Rp past the oldest, which sets the wrapped flag and raises SHIFT_WRAPPED the first time; without a capture no word
of the store changes. The model's own choices here: log entries 2, 9, 10, 47 and 57. -/
def Obligations.ShiftBufferFrames : Prop :=
  ∀ (s : State) (x : FrameInput) (w p : Addr) (n g : Nat),
    s.power.state = .run → s.nothingDue → s.clock.periods = 48 → s.store.wf = true → s.shiftWf → s.shift.state ≠ .off →
    s.shift.write = some w → s.shift.replay = some p →
    n = (if s.shift.state = .replay ∨ s.shift.state = .memoReplay then min 48 s.shift.fill else 0) → g = s.shift.fill - n →
    ∃ t, exec (.frameEvent x) s = .next t
      ∧ t.shift = { s.shift with write := t.shift.write, replay := t.shift.replay, fill := t.shift.fill,
                                 wrapped := t.shift.wrapped, drained := t.shift.drained }
      ∧ (t.shift.drained = true ↔ (s.shift.state = .replay ∨ s.shift.state = .memoReplay) ∧ s.shift.fill ≤ 48)
      ∧ (s.shift.running = false ∨ s.shift.captured = none →
          t.shift.write = some w ∧ t.shift.replay = some (s.ring p n) ∧ t.shift.fill = g ∧ t.shift.wrapped = s.shift.wrapped
            ∧ t.store.words = s.store.words)
      ∧ ∀ u, s.shift.running = true → s.shift.captured = some u →
          (∀ i, i < 48 → ∃ y : Int × Int, y = s.sampleOf x i (match u with | .a => .tunerA | .b => .tunerB)
            ∧ ((t.store.read (s.ring w i)).extractLsb' 16 16).toInt = clampInt (-32768) 32767 ((y.1 + 128) / 256)
            ∧ ((t.store.read (s.ring w i)).extractLsb' 0 16).toInt = clampInt (-32768) 32767 ((y.2 + 128) / 256))
          ∧ (∀ a, (∀ i, i < 48 → a ≠ s.ring w i) → t.store.read a = s.store.read a)
          ∧ t.shift.write = some (s.ring w 48) ∧ t.shift.fill = min s.store.shiftSize (g + 48)
          ∧ t.shift.replay = some (s.ring p (n + (g + 48 - s.store.shiftSize)))
          ∧ (t.shift.wrapped = true ↔ s.shift.wrapped = true ∨ s.store.shiftSize < g + 48)
          ∧ (s.shift.wrapped = false → t.shift.wrapped = true → RiseLatched 4 s t)

/-- The call at a frame event: the reference is taken from the sinks whose base is the CALL claim (R127); in an ACTIVE call the canceller
takes the 16 samples of reference and microphone in order (R126, R128), and otherwise the uplink is silent; the uplink samples join P2's
output buffer while its tracker holds the port (R5, R11); a conference takes its microphones' samples into the sums and moves its choice to
the loudest, once the hold has come to 3,200 (R123); and the headset microphones are sampled from here on (R146). The model's own choices
here: log entries 9, 10, 58, and 63, by which the cabin microphones hand over what FRAME_EVENT brings at the first frame event of RUN
too. -/
def Obligations.CallFrames : Prop :=
  ∀ (s : State) (x : FrameInput), s.power.state = .run → s.nothingDue → s.sizesWf →
    ∃ (t : State) (ks : List Nat), exec (.frameEvent x) s = .next t
      ∧ t.call.refZones = s.table.basedZones callHandle
      ∧ ks = (List.range 20).filter (fun k => hasZone t.call.refZones (Zone.ofSink k))
      ∧ t.call = { s.call with mic := t.call.mic, hold := t.call.hold, echo := t.call.echo, choice := t.call.choice,
                               recent := t.call.recent, refZones := t.call.refZones, uplink := t.call.uplink }
      ∧ t.call.uplink.length = 16
      ∧ (s.call.state = .active → s.call.echo.state ≠ .off →
          ∃ es : Nat → Canceller, es 0 = s.call.echo ∧ t.call.echo = es 16
            ∧ ∀ j, j < 16 → (t.call.uplink.getD j 0, es (j + 1))
                = (es j).sample (s.call.mutes != 0) (t.referenceAt ks j) (s.micAt x j s.call.mic))
      ∧ (s.call.state ≠ .active ∨ s.call.echo.state = .off →
          t.call.echo = s.call.echo ∧ t.call.uplink = List.replicate 16 0)
      ∧ ((s.ports.p2.state = .locked ∨ s.ports.p2.state = .holdover) → s.ports.uplink.buffer.length ≤ 32 →
          t.ports.uplink.buffer = (s.ports.uplink.buffer ++ t.call.uplink.map fun u => [u]).take 32)
      ∧ (s.ports.p2.state ≠ .locked → s.ports.p2.state ≠ .holdover → t.ports.uplink = s.ports.uplink)
      ∧ (s.call.mode ≠ .conference →
          t.call.mic = s.call.mic ∧ t.call.hold = s.call.hold ∧ t.call.choice = s.call.choice ∧ t.call.recent = s.call.recent)
      ∧ (s.call.mode = .conference →
          t.micFollows
          ∧ (∀ n : Fin 4, t.call.recent.getD n.val [] =
              ((List.range 16).map (fun j => s.micAt x (15 - j) (.cabin n)) ++ s.call.recent.getD n.val []).take 1024)
          ∧ ∀ q : Fin 4 → Int, (∀ n, q n = ((t.call.recent.getD n.val []).map fun y => y * y).sum) →
              (s.call.hold + 16 < 3200 → t.call.hold = s.call.hold + 16 ∧ t.call.choice = s.call.choice)
              ∧ (3200 ≤ s.call.hold + 16 → (∀ n, q n ≤ q s.call.choice) →
                  t.call.hold = 3200 ∧ t.call.choice = s.call.choice)
              ∧ (3200 ≤ s.call.hold + 16 → (∃ n, q s.call.choice < q n) →
                  t.call.hold = 0 ∧ (∀ n, q n ≤ q t.call.choice) ∧ ∀ n, n < t.call.choice → q n < q t.call.choice))
      ∧ ∀ st, t.station st = { s.station st with sampling := decide ((s.station st).jack = .headset) }

/-- One sample of the echo canceller (R128): the reference joins the history; the estimate is its product with the coefficients, and the
error the microphone's difference from it; the uplink sample is the error, at 24 steps while the canceller has not converged and the cabin
sounds, and zero while muted (R126). The coefficients move by the nearest integer to N / D (R129) unless muted, quiet or in double talk
(R130), and the window takes the sample in (R131). The model's own reading here: log entry 39 (double talk is looked for in the sums before
this sample). -/
def Obligations.CancellerSample : Prop :=
  ∀ (e e' : Canceller) (muted : Bool) (x m u : Int), e.state ≠ .off → e.coeffs.length = 2048 → e.history.length = 2048 →
    (u, e') = e.sample muted x m →
    ∃ (h : Nat → Int) (y err p : Int),
      e'.history = x :: e.history.dropLast ∧ (∀ k, h k = e'.history.getD k 0)
      ∧ p = ((List.range 2048).map fun k => h k * h k).sum
      ∧ y = clampInt (-32768) 32767
          ((((List.range 2048).map fun k => e.coeffs.getD k 0 * h k).sum + 536870912) / 1073741824)
      ∧ err = clampInt (-32768) 32767 (m - y)
      ∧ u = (if muted then 0 else clampInt (-32768) 32767
          ((err * gain (if (e.state = .converging ∨ e.state = .diverged) ∧ 1048576 ≤ p then 24 else 0) + 16384) / 32768))
      ∧ (e'.adapted = true ↔ muted = false ∧ 1048576 ≤ p
          ∧ ¬(e.state = .converged
              ∧ 2 * (e.dtEst.map fun z => z * z).sum < (e.dtMic.map fun z => z * z).sum))
      ∧ (e'.adapted = false → e'.coeffs = e.coeffs)
      ∧ (e'.adapted = true → e'.coeffs.length = 2048 ∧ ∀ k, k < 2048 → ∃ n δ : Int,
          n = err * h k * (if e.state = .converged then 67108864 else 268435456)
          ∧ 2 * (p + 1048576) * δ ≤ 2 * n + (p + 1048576) ∧ 2 * n + (p + 1048576) < 2 * (p + 1048576) * (δ + 1)
          ∧ e'.coeffs.getD k 0 = clampInt (-2147483648) 2147483647 (e.coeffs.getD k 0 + δ))
      ∧ e' = { e with
          coeffs := e'.coeffs, history := e'.history, adapted := e'.adapted, dtMic := m :: e.dtMic.dropLast,
          dtEst := y :: e.dtEst.dropLast, count := e.count + 1, sumMic := e.sumMic + m * m, sumErr := e.sumErr + err * err,
          active := if 1048576 ≤ p then e.active + 1 else e.active }

/-- On an empty queue one sample period passes, and only the clock and what runs with it know it: in RUN each rate converter that holds
its port gives one output, between its two oldest sets, or zero while not started or short of sets (R11, R13), and each tuner is heard as
it stands, or not at all (R14, R70). A set joins the buffer unless 32 are held, and the 16th starts the converter (R11). The model's own
choices here: log entries 1 and 2. -/
def Obligations.Converters : Prop :=
  (∀ s : State, s.pending = [] →
    ∃ t, step s = .next t ∧ t.clock.now = s.clock.now + 1000000 ∧ OnlyChanges [.clock, .ports] s t
      ∧ (s.power.state ≠ .run → t.ports = s.ports)
      ∧ (s.power.state = .run → s.clock.periods < 48 →
          s.clock.frameDue = s.clock.now + (48 - s.clock.periods) * 1000000 →
          t.clock.periods = s.clock.periods + 1
          ∧ PeriodRun 3 s.ports.p0 t.ports.p0 ∧ PeriodRun 2 s.ports.p1 t.ports.p1 ∧ PeriodRun 1 s.ports.p2 t.ports.p2
          ∧ t.ports.t0 = s.ports.t0 ++
              [if s.tunA.state = .tuned ∨ (s.tunA.state = .afVerify ∧ s.tunA.released = true)
                  ∨ (s.tunA.state = .afCheck ∧ (s.tunA.phase = .prefadeCheck ∨ s.tunA.phase = .prefadeVerify))
                then some ⟨s.tunA.rx.freq.band, s.tunA.rx.sep⟩ else none]
          ∧ t.ports.t1 = s.ports.t1 ++
              [if (s.tunB.state = .watch ∨ s.tunB.state = .held) ∧ s.tunB.settling = false
                then some ⟨s.tunB.rx.freq.band, s.tunB.rx.sep⟩ else none]))
  ∧ ∀ (c d : Converter) (set : List Int), d = c.push set →
    d.buffer = (if c.buffer.length < 32 then c.buffer ++ [set] else c.buffer) ∧ d.step = c.step
      ∧ (d.started = true ↔ c.started = true ∨ 16 ≤ d.buffer.length)
      ∧ d.phase = (if c.started = false ∧ 16 ≤ d.buffer.length then 0 else c.phase)

/-- A rate tracker at a frame sync (R8 to R10): ABSENT becomes ACQUIRE; in ACQUIRE a first period that fits a nominal rate selects it, a
good period counts, the 64th locks, and a slip offers its period as a first one; in LOCKED and HOLDOVER a period inside the window of ±2%
is good, and the estimate and the step follow from the last 64 good ones; a third slip in a row brings HOLDOVER, 64 good periods bring
LOCKED back, and a period of another nominal rate brings ACQUIRE. The frame's set joins the converter's buffer (R11). The model's own
choices here: log entries 7 (the sync brings the clock to its moment), 32 (the mean rate is the number of the periods kept over their total
time), 5 (the step is rounded half up), 33 and 34. -/
def Obligations.TrackerPeriods : Prop :=
  ∀ (s : State) (gap : Time) (set : PortFrame) (p : Port) (x : Tracker) (fits : Nat → Prop) (inside : Prop),
    s.power.state = .run → p = PortFrame.port set → x = s.tracker p → 0 < gap →
    (∀ hz, fits hz ↔ 98 * hz * gap ≤ 4800000000000 ∧ 4800000000000 ≤ 102 * hz * gap) →
    (inside ↔ 98 * x.estimate.num * gap ≤ 4800000000000 * x.estimate.den
      ∧ 4800000000000 * x.estimate.den ≤ 102 * x.estimate.num * gap) →
    ∃ t y, exec (.frameSync gap set) s = .next t ∧ Happens [.clock, .ports] s t ∧ Unreported s t ∧ y = t.tracker p
      ∧ t.clock.now = max s.clock.now (x.lastSync + gap) ∧ y.lastSync = t.clock.now ∧ y.measuring = true
      ∧ (∀ q, q ≠ p → (t.tracker q).state = (s.tracker q).state)
      ∧ (x.state = .absent → y.state = .acquire ∧ y.nominal = none ∧ y.good = 0)
      ∧ (x.measuring = false → x.state ≠ .absent → y.state = x.state ∧ y.good = x.good ∧ y.nominal = x.nominal
          ∧ y.estimate = x.estimate)
      ∧ (x.measuring = true → x.state = .acquire →
          (∀ hz ∈ nominals p, (x.nominal = none ∨ ∃ k, x.nominal = some k ∧ ¬fits k) → fits hz →
            y.state = .acquire ∧ y.nominal = some hz ∧ y.good = 1)
          ∧ ((x.nominal = none ∨ ∃ k, x.nominal = some k ∧ ¬fits k) → (∀ hz ∈ nominals p, ¬fits hz) →
            y.state = .acquire ∧ y.nominal = none ∧ y.good = 0)
          ∧ ∀ hz, x.nominal = some hz → fits hz →
            y.nominal = some hz ∧ y.slips = 0 ∧ y.good = min 64 (x.good + 1)
            ∧ y.periods = (x.periods ++ [gap]).drop (x.periods.length + 1 - 64)
            ∧ (x.good < 63 → y.state = .acquire)
            ∧ (63 ≤ x.good → y.state = .locked ∧ y.estimated ∧ y.conv.buffer = [] ∧ y.conv.started = false))
      ∧ (x.measuring = true → x.state = .locked → inside →
          y.state = .locked ∧ y.slips = 0 ∧ y.good = min 64 (x.good + 1) ∧ y.estimated
          ∧ y.periods = (x.periods ++ [gap]).drop (x.periods.length + 1 - 64) ∧ y.nominal = x.nominal)
      ∧ (x.measuring = true → x.state = .locked → ¬inside →
          y.good = 0 ∧ y.slips = min 3 (x.slips + 1) ∧ y.state = (if 2 ≤ x.slips then .holdover else .locked)
          ∧ y.estimate = x.estimate ∧ (2 ≤ x.slips → y.holdoverAt = t.clock.now))
      ∧ (x.measuring = true → x.state = .holdover →
          (inside → y.slips = 0 ∧ y.good = min 64 (x.good + 1) ∧ y.state = (if 63 ≤ x.good then .locked else .holdover)
            ∧ (1 ≤ x.good → y.estimated) ∧ (x.good = 0 → y.estimate = x.estimate) ∧ y.holdoverAt = x.holdoverAt)
          ∧ (∀ hz ∈ nominals p, ¬inside → fits hz → x.nominal ≠ some hz →
              y.state = .acquire ∧ y.nominal = some hz ∧ y.good = 1 ∧ y.conv.buffer = [] ∧ y.conv.started = false)
          ∧ (¬inside → (∀ hz ∈ nominals p, fits hz → x.nominal = some hz) →
              y.state = .holdover ∧ y.good = 0 ∧ y.slips = min 3 (x.slips + 1) ∧ y.estimate = x.estimate))
      ∧ ((x.state = .locked ∨ x.state = .holdover) → (y.state = .locked ∨ y.state = .holdover) →
          s.clock.periods = 48 →
          y.conv.buffer = if x.conv.buffer.length < 32 then x.conv.buffer ++ [PortFrame.samples set] else x.conv.buffer)

/-- A rate tracker without a sync (R8 to R10): 1.02 window periods after the last sync or overdue slip a slip is counted, which in ACQUIRE
clears the selection; 100 ms without a sync end ACQUIRE, and 100 ms of HOLDOVER lose the port, which PORT_LOST tells the links concerned.
The hub sends no slot on P2 once it is lost, and in each frame of P2 zero in ACQUIRE and the converted uplink while the tracker holds the
port (R5, R11). The model's own choices here: log entries 7 (each event brings the clock to the moment it is due), 41 (a slot of P2 goes
out at each FRAME_SYNC of P2, with the step of the present estimate, and zero on locking, the output converter being emptied with the input
one), 5 (that step is rounded half up), 33 and 34. -/
def Obligations.TrackerTimers : Prop :=
  (∀ (s : State) (p : Port) (x : Tracker), x = s.tracker p →
    (s.power.state = .run → (x.state = .locked ∨ x.state = .holdover) →
      ∃ t, exec (.overdueSlip p) s = .next t ∧ Happens [.clock, .ports] s t ∧ Unreported s t
        ∧ t.clock.now = max s.clock.now
            (x.waitFrom + 102 * 48000000000 * x.estimate.den / (100 * x.estimate.num))
        ∧ (t.tracker p).waitFrom = t.clock.now ∧ (t.tracker p).measuring = false
        ∧ (t.tracker p).slips = min 3 (x.slips + 1) ∧ (t.tracker p).good = 0
        ∧ (t.tracker p).state = (if x.state = .holdover ∨ 2 ≤ x.slips then .holdover else .locked)
        ∧ (x.state = .holdover → (t.tracker p).holdoverAt = x.holdoverAt))
    ∧ (∀ hz, s.power.state = .run → x.state = .acquire → x.nominal = some hz →
      ∃ t, exec (.overdueSlip p) s = .next t ∧ Happens [.clock, .ports] s t ∧ Unreported s t
        ∧ t.clock.now = max s.clock.now (x.waitFrom + 102 * 48000000000 / (100 * hz))
        ∧ (t.tracker p).waitFrom = t.clock.now ∧ (t.tracker p).measuring = false
        ∧ (t.tracker p).state = .acquire ∧ (t.tracker p).nominal = none ∧ (t.tracker p).good = 0)
    ∧ (x.state = .acquire →
      ∃ t, exec (.acquireGiveUp p) s = .next t ∧ Happens [.clock, .ports] s t ∧ Unreported s t
        ∧ t.clock.now = max s.clock.now (x.lastSync + milliseconds 100)
        ∧ (t.tracker p).state = .absent ∧ (t.tracker p).nominal = none ∧ (t.tracker p).conv.buffer = []
        ∧ (p = .p2 → t.ports.uplinkSlot = none)
        ∧ ∀ q, q ≠ p → (t.tracker q).state = (s.tracker q).state)
    ∧ (x.state = .holdover →
      ∃ t, exec (.holdoverTimeout p) s = .next t ∧ Happens [.clock, .ports] s t
        ∧ t.clock.now = max s.clock.now (x.holdoverAt + milliseconds 100)
        ∧ (t.tracker p).state = .absent ∧ (t.tracker p).nominal = none ∧ (t.tracker p).conv.buffer = []
        ∧ (p = .p2 → t.ports.uplinkSlot = none)
        ∧ (∀ q, q ≠ p → (t.tracker q).state = (s.tracker q).state)
        ∧ ∀ k, (t.link k).advisories =
            if k = .cockpit ∨ (k = .rear ∧ p = .p1) ∨ (k = .telephony ∧ p = .p2) then
              joinAdvisory (s.link k).advisories (.portLost p)
            else (s.link k).advisories))
  ∧ ∀ (s : State) (gap : Time) (v : Half), s.power.state = .run → 0 < gap →
    ∃ t, exec (.frameSync gap (.telephony v)) s = .next t
      ∧ (t.ports.p2.state = .acquire → t.ports.uplinkSlot = some 0)
      ∧ (t.ports.p2.state = .locked → s.ports.p2.state = .acquire → t.ports.uplinkSlot = some 0)
      ∧ ((t.ports.p2.state = .locked ∨ t.ports.p2.state = .holdover) →
          (s.ports.p2.state = .locked ∨ s.ports.p2.state = .holdover) →
          (s.ports.uplink.started = false ∨ s.ports.uplink.buffer.length < 2 → t.ports.uplinkSlot = some 0)
          ∧ ∀ a b rest, s.ports.uplink.started = true → s.ports.uplink.buffer = [a] :: [b] :: rest →
              t.ports.uplinkSlot = some (a + ((b - a) * (s.ports.uplink.phase : Int) + 32768) / 65536)
              ∧ ∃ k : Nat, (0 < t.ports.p2.estimate.num →
                  2 * t.ports.p2.estimate.num * k ≤ 2097152000 * t.ports.p2.estimate.den + t.ports.p2.estimate.num
                  ∧ 2097152000 * t.ports.p2.estimate.den + t.ports.p2.estimate.num < 2 * t.ports.p2.estimate.num * (k + 1))
                ∧ t.ports.uplink.phase = (s.ports.uplink.phase + k) % 65536
                ∧ t.ports.uplink.buffer = s.ports.uplink.buffer.drop ((s.ports.uplink.phase + k) / 65536))
end

