-- ==== Sys2Proof/Laws/State.lean ====
section
/-! SUPPORT. One lemma for each field and each update of `State`, and for the members of its records: reading what was written gives
it back, and reading anything else gives what was there. -/

namespace Sys2Proof.Machine

@[simp] theorem State.withPending_pending (s : State) (x : List Instr) : (s.withPending x).pending = x := rfl
@[simp] theorem State.withPending_clock (s : State) (x : List Instr) : (s.withPending x).clock = s.clock := rfl
@[simp] theorem State.withPending_ports (s : State) (x : List Instr) : (s.withPending x).ports = s.ports := rfl
@[simp] theorem State.withPending_table (s : State) (x : List Instr) : (s.withPending x).table = s.table := rfl
@[simp] theorem State.withPending_mix (s : State) (x : List Instr) : (s.withPending x).mix = s.mix := rfl
@[simp] theorem State.withPending_tunA (s : State) (x : List Instr) : (s.withPending x).tunA = s.tunA := rfl
@[simp] theorem State.withPending_tunB (s : State) (x : List Instr) : (s.withPending x).tunB = s.tunB := rfl
@[simp] theorem State.withPending_radio (s : State) (x : List Instr) : (s.withPending x).radio = s.radio := rfl
@[simp] theorem State.withPending_traffic (s : State) (x : List Instr) : (s.withPending x).traffic = s.traffic := rfl
@[simp] theorem State.withPending_shift (s : State) (x : List Instr) : (s.withPending x).shift = s.shift := rfl
@[simp] theorem State.withPending_call (s : State) (x : List Instr) : (s.withPending x).call = s.call := rfl
@[simp] theorem State.withPending_stations (s : State) (x : List Instr) : (s.withPending x).stations = s.stations := rfl
@[simp] theorem State.withPending_chime (s : State) (x : List Instr) : (s.withPending x).chime = s.chime := rfl
@[simp] theorem State.withPending_store (s : State) (x : List Instr) : (s.withPending x).store = s.store := rfl
@[simp] theorem State.withPending_links (s : State) (x : List Instr) : (s.withPending x).links = s.links := rfl
@[simp] theorem State.withPending_power (s : State) (x : List Instr) : (s.withPending x).power = s.power := rfl

@[simp] theorem State.withClock_pending (s : State) (x : Clock) : (s.withClock x).pending = s.pending := rfl
@[simp] theorem State.withClock_clock (s : State) (x : Clock) : (s.withClock x).clock = x := rfl
@[simp] theorem State.withClock_ports (s : State) (x : Clock) : (s.withClock x).ports = s.ports := rfl
@[simp] theorem State.withClock_table (s : State) (x : Clock) : (s.withClock x).table = s.table := rfl
@[simp] theorem State.withClock_mix (s : State) (x : Clock) : (s.withClock x).mix = s.mix := rfl
@[simp] theorem State.withClock_tunA (s : State) (x : Clock) : (s.withClock x).tunA = s.tunA := rfl
@[simp] theorem State.withClock_tunB (s : State) (x : Clock) : (s.withClock x).tunB = s.tunB := rfl
@[simp] theorem State.withClock_radio (s : State) (x : Clock) : (s.withClock x).radio = s.radio := rfl
@[simp] theorem State.withClock_traffic (s : State) (x : Clock) : (s.withClock x).traffic = s.traffic := rfl
@[simp] theorem State.withClock_shift (s : State) (x : Clock) : (s.withClock x).shift = s.shift := rfl
@[simp] theorem State.withClock_call (s : State) (x : Clock) : (s.withClock x).call = s.call := rfl
@[simp] theorem State.withClock_stations (s : State) (x : Clock) : (s.withClock x).stations = s.stations := rfl
@[simp] theorem State.withClock_chime (s : State) (x : Clock) : (s.withClock x).chime = s.chime := rfl
@[simp] theorem State.withClock_store (s : State) (x : Clock) : (s.withClock x).store = s.store := rfl
@[simp] theorem State.withClock_links (s : State) (x : Clock) : (s.withClock x).links = s.links := rfl
@[simp] theorem State.withClock_power (s : State) (x : Clock) : (s.withClock x).power = s.power := rfl

@[simp] theorem State.withPorts_pending (s : State) (x : Ports) : (s.withPorts x).pending = s.pending := rfl
@[simp] theorem State.withPorts_clock (s : State) (x : Ports) : (s.withPorts x).clock = s.clock := rfl
@[simp] theorem State.withPorts_ports (s : State) (x : Ports) : (s.withPorts x).ports = x := rfl
@[simp] theorem State.withPorts_table (s : State) (x : Ports) : (s.withPorts x).table = s.table := rfl
@[simp] theorem State.withPorts_mix (s : State) (x : Ports) : (s.withPorts x).mix = s.mix := rfl
@[simp] theorem State.withPorts_tunA (s : State) (x : Ports) : (s.withPorts x).tunA = s.tunA := rfl
@[simp] theorem State.withPorts_tunB (s : State) (x : Ports) : (s.withPorts x).tunB = s.tunB := rfl
@[simp] theorem State.withPorts_radio (s : State) (x : Ports) : (s.withPorts x).radio = s.radio := rfl
@[simp] theorem State.withPorts_traffic (s : State) (x : Ports) : (s.withPorts x).traffic = s.traffic := rfl
@[simp] theorem State.withPorts_shift (s : State) (x : Ports) : (s.withPorts x).shift = s.shift := rfl
@[simp] theorem State.withPorts_call (s : State) (x : Ports) : (s.withPorts x).call = s.call := rfl
@[simp] theorem State.withPorts_stations (s : State) (x : Ports) : (s.withPorts x).stations = s.stations := rfl
@[simp] theorem State.withPorts_chime (s : State) (x : Ports) : (s.withPorts x).chime = s.chime := rfl
@[simp] theorem State.withPorts_store (s : State) (x : Ports) : (s.withPorts x).store = s.store := rfl
@[simp] theorem State.withPorts_links (s : State) (x : Ports) : (s.withPorts x).links = s.links := rfl
@[simp] theorem State.withPorts_power (s : State) (x : Ports) : (s.withPorts x).power = s.power := rfl

@[simp] theorem State.withTable_pending (s : State) (x : ClaimTable) : (s.withTable x).pending = s.pending := rfl
@[simp] theorem State.withTable_clock (s : State) (x : ClaimTable) : (s.withTable x).clock = s.clock := rfl
@[simp] theorem State.withTable_ports (s : State) (x : ClaimTable) : (s.withTable x).ports = s.ports := rfl
@[simp] theorem State.withTable_table (s : State) (x : ClaimTable) : (s.withTable x).table = x := rfl
@[simp] theorem State.withTable_mix (s : State) (x : ClaimTable) : (s.withTable x).mix = s.mix := rfl
@[simp] theorem State.withTable_tunA (s : State) (x : ClaimTable) : (s.withTable x).tunA = s.tunA := rfl
@[simp] theorem State.withTable_tunB (s : State) (x : ClaimTable) : (s.withTable x).tunB = s.tunB := rfl
@[simp] theorem State.withTable_radio (s : State) (x : ClaimTable) : (s.withTable x).radio = s.radio := rfl
@[simp] theorem State.withTable_traffic (s : State) (x : ClaimTable) : (s.withTable x).traffic = s.traffic := rfl
@[simp] theorem State.withTable_shift (s : State) (x : ClaimTable) : (s.withTable x).shift = s.shift := rfl
@[simp] theorem State.withTable_call (s : State) (x : ClaimTable) : (s.withTable x).call = s.call := rfl
@[simp] theorem State.withTable_stations (s : State) (x : ClaimTable) : (s.withTable x).stations = s.stations := rfl
@[simp] theorem State.withTable_chime (s : State) (x : ClaimTable) : (s.withTable x).chime = s.chime := rfl
@[simp] theorem State.withTable_store (s : State) (x : ClaimTable) : (s.withTable x).store = s.store := rfl
@[simp] theorem State.withTable_links (s : State) (x : ClaimTable) : (s.withTable x).links = s.links := rfl
@[simp] theorem State.withTable_power (s : State) (x : ClaimTable) : (s.withTable x).power = s.power := rfl

@[simp] theorem State.withMix_pending (s : State) (x : Mix) : (s.withMix x).pending = s.pending := rfl
@[simp] theorem State.withMix_clock (s : State) (x : Mix) : (s.withMix x).clock = s.clock := rfl
@[simp] theorem State.withMix_ports (s : State) (x : Mix) : (s.withMix x).ports = s.ports := rfl
@[simp] theorem State.withMix_table (s : State) (x : Mix) : (s.withMix x).table = s.table := rfl
@[simp] theorem State.withMix_mix (s : State) (x : Mix) : (s.withMix x).mix = x := rfl
@[simp] theorem State.withMix_tunA (s : State) (x : Mix) : (s.withMix x).tunA = s.tunA := rfl
@[simp] theorem State.withMix_tunB (s : State) (x : Mix) : (s.withMix x).tunB = s.tunB := rfl
@[simp] theorem State.withMix_radio (s : State) (x : Mix) : (s.withMix x).radio = s.radio := rfl
@[simp] theorem State.withMix_traffic (s : State) (x : Mix) : (s.withMix x).traffic = s.traffic := rfl
@[simp] theorem State.withMix_shift (s : State) (x : Mix) : (s.withMix x).shift = s.shift := rfl
@[simp] theorem State.withMix_call (s : State) (x : Mix) : (s.withMix x).call = s.call := rfl
@[simp] theorem State.withMix_stations (s : State) (x : Mix) : (s.withMix x).stations = s.stations := rfl
@[simp] theorem State.withMix_chime (s : State) (x : Mix) : (s.withMix x).chime = s.chime := rfl
@[simp] theorem State.withMix_store (s : State) (x : Mix) : (s.withMix x).store = s.store := rfl
@[simp] theorem State.withMix_links (s : State) (x : Mix) : (s.withMix x).links = s.links := rfl
@[simp] theorem State.withMix_power (s : State) (x : Mix) : (s.withMix x).power = s.power := rfl

@[simp] theorem State.withTunA_pending (s : State) (x : TunerA) : (s.withTunA x).pending = s.pending := rfl
@[simp] theorem State.withTunA_clock (s : State) (x : TunerA) : (s.withTunA x).clock = s.clock := rfl
@[simp] theorem State.withTunA_ports (s : State) (x : TunerA) : (s.withTunA x).ports = s.ports := rfl
@[simp] theorem State.withTunA_table (s : State) (x : TunerA) : (s.withTunA x).table = s.table := rfl
@[simp] theorem State.withTunA_mix (s : State) (x : TunerA) : (s.withTunA x).mix = s.mix := rfl
@[simp] theorem State.withTunA_tunA (s : State) (x : TunerA) : (s.withTunA x).tunA = x := rfl
@[simp] theorem State.withTunA_tunB (s : State) (x : TunerA) : (s.withTunA x).tunB = s.tunB := rfl
@[simp] theorem State.withTunA_radio (s : State) (x : TunerA) : (s.withTunA x).radio = s.radio := rfl
@[simp] theorem State.withTunA_traffic (s : State) (x : TunerA) : (s.withTunA x).traffic = s.traffic := rfl
@[simp] theorem State.withTunA_shift (s : State) (x : TunerA) : (s.withTunA x).shift = s.shift := rfl
@[simp] theorem State.withTunA_call (s : State) (x : TunerA) : (s.withTunA x).call = s.call := rfl
@[simp] theorem State.withTunA_stations (s : State) (x : TunerA) : (s.withTunA x).stations = s.stations := rfl
@[simp] theorem State.withTunA_chime (s : State) (x : TunerA) : (s.withTunA x).chime = s.chime := rfl
@[simp] theorem State.withTunA_store (s : State) (x : TunerA) : (s.withTunA x).store = s.store := rfl
@[simp] theorem State.withTunA_links (s : State) (x : TunerA) : (s.withTunA x).links = s.links := rfl
@[simp] theorem State.withTunA_power (s : State) (x : TunerA) : (s.withTunA x).power = s.power := rfl

@[simp] theorem State.withTunB_pending (s : State) (x : TunerB) : (s.withTunB x).pending = s.pending := rfl
@[simp] theorem State.withTunB_clock (s : State) (x : TunerB) : (s.withTunB x).clock = s.clock := rfl
@[simp] theorem State.withTunB_ports (s : State) (x : TunerB) : (s.withTunB x).ports = s.ports := rfl
@[simp] theorem State.withTunB_table (s : State) (x : TunerB) : (s.withTunB x).table = s.table := rfl
@[simp] theorem State.withTunB_mix (s : State) (x : TunerB) : (s.withTunB x).mix = s.mix := rfl
@[simp] theorem State.withTunB_tunA (s : State) (x : TunerB) : (s.withTunB x).tunA = s.tunA := rfl
@[simp] theorem State.withTunB_tunB (s : State) (x : TunerB) : (s.withTunB x).tunB = x := rfl
@[simp] theorem State.withTunB_radio (s : State) (x : TunerB) : (s.withTunB x).radio = s.radio := rfl
@[simp] theorem State.withTunB_traffic (s : State) (x : TunerB) : (s.withTunB x).traffic = s.traffic := rfl
@[simp] theorem State.withTunB_shift (s : State) (x : TunerB) : (s.withTunB x).shift = s.shift := rfl
@[simp] theorem State.withTunB_call (s : State) (x : TunerB) : (s.withTunB x).call = s.call := rfl
@[simp] theorem State.withTunB_stations (s : State) (x : TunerB) : (s.withTunB x).stations = s.stations := rfl
@[simp] theorem State.withTunB_chime (s : State) (x : TunerB) : (s.withTunB x).chime = s.chime := rfl
@[simp] theorem State.withTunB_store (s : State) (x : TunerB) : (s.withTunB x).store = s.store := rfl
@[simp] theorem State.withTunB_links (s : State) (x : TunerB) : (s.withTunB x).links = s.links := rfl
@[simp] theorem State.withTunB_power (s : State) (x : TunerB) : (s.withTunB x).power = s.power := rfl

@[simp] theorem State.withRadio_pending (s : State) (x : Radio) : (s.withRadio x).pending = s.pending := rfl
@[simp] theorem State.withRadio_clock (s : State) (x : Radio) : (s.withRadio x).clock = s.clock := rfl
@[simp] theorem State.withRadio_ports (s : State) (x : Radio) : (s.withRadio x).ports = s.ports := rfl
@[simp] theorem State.withRadio_table (s : State) (x : Radio) : (s.withRadio x).table = s.table := rfl
@[simp] theorem State.withRadio_mix (s : State) (x : Radio) : (s.withRadio x).mix = s.mix := rfl
@[simp] theorem State.withRadio_tunA (s : State) (x : Radio) : (s.withRadio x).tunA = s.tunA := rfl
@[simp] theorem State.withRadio_tunB (s : State) (x : Radio) : (s.withRadio x).tunB = s.tunB := rfl
@[simp] theorem State.withRadio_radio (s : State) (x : Radio) : (s.withRadio x).radio = x := rfl
@[simp] theorem State.withRadio_traffic (s : State) (x : Radio) : (s.withRadio x).traffic = s.traffic := rfl
@[simp] theorem State.withRadio_shift (s : State) (x : Radio) : (s.withRadio x).shift = s.shift := rfl
@[simp] theorem State.withRadio_call (s : State) (x : Radio) : (s.withRadio x).call = s.call := rfl
@[simp] theorem State.withRadio_stations (s : State) (x : Radio) : (s.withRadio x).stations = s.stations := rfl
@[simp] theorem State.withRadio_chime (s : State) (x : Radio) : (s.withRadio x).chime = s.chime := rfl
@[simp] theorem State.withRadio_store (s : State) (x : Radio) : (s.withRadio x).store = s.store := rfl
@[simp] theorem State.withRadio_links (s : State) (x : Radio) : (s.withRadio x).links = s.links := rfl
@[simp] theorem State.withRadio_power (s : State) (x : Radio) : (s.withRadio x).power = s.power := rfl

@[simp] theorem State.withTraffic_pending (s : State) (x : Traffic) : (s.withTraffic x).pending = s.pending := rfl
@[simp] theorem State.withTraffic_clock (s : State) (x : Traffic) : (s.withTraffic x).clock = s.clock := rfl
@[simp] theorem State.withTraffic_ports (s : State) (x : Traffic) : (s.withTraffic x).ports = s.ports := rfl
@[simp] theorem State.withTraffic_table (s : State) (x : Traffic) : (s.withTraffic x).table = s.table := rfl
@[simp] theorem State.withTraffic_mix (s : State) (x : Traffic) : (s.withTraffic x).mix = s.mix := rfl
@[simp] theorem State.withTraffic_tunA (s : State) (x : Traffic) : (s.withTraffic x).tunA = s.tunA := rfl
@[simp] theorem State.withTraffic_tunB (s : State) (x : Traffic) : (s.withTraffic x).tunB = s.tunB := rfl
@[simp] theorem State.withTraffic_radio (s : State) (x : Traffic) : (s.withTraffic x).radio = s.radio := rfl
@[simp] theorem State.withTraffic_traffic (s : State) (x : Traffic) : (s.withTraffic x).traffic = x := rfl
@[simp] theorem State.withTraffic_shift (s : State) (x : Traffic) : (s.withTraffic x).shift = s.shift := rfl
@[simp] theorem State.withTraffic_call (s : State) (x : Traffic) : (s.withTraffic x).call = s.call := rfl
@[simp] theorem State.withTraffic_stations (s : State) (x : Traffic) : (s.withTraffic x).stations = s.stations := rfl
@[simp] theorem State.withTraffic_chime (s : State) (x : Traffic) : (s.withTraffic x).chime = s.chime := rfl
@[simp] theorem State.withTraffic_store (s : State) (x : Traffic) : (s.withTraffic x).store = s.store := rfl
@[simp] theorem State.withTraffic_links (s : State) (x : Traffic) : (s.withTraffic x).links = s.links := rfl
@[simp] theorem State.withTraffic_power (s : State) (x : Traffic) : (s.withTraffic x).power = s.power := rfl

@[simp] theorem State.withShift_pending (s : State) (x : ShiftBuffer) : (s.withShift x).pending = s.pending := rfl
@[simp] theorem State.withShift_clock (s : State) (x : ShiftBuffer) : (s.withShift x).clock = s.clock := rfl
@[simp] theorem State.withShift_ports (s : State) (x : ShiftBuffer) : (s.withShift x).ports = s.ports := rfl
@[simp] theorem State.withShift_table (s : State) (x : ShiftBuffer) : (s.withShift x).table = s.table := rfl
@[simp] theorem State.withShift_mix (s : State) (x : ShiftBuffer) : (s.withShift x).mix = s.mix := rfl
@[simp] theorem State.withShift_tunA (s : State) (x : ShiftBuffer) : (s.withShift x).tunA = s.tunA := rfl
@[simp] theorem State.withShift_tunB (s : State) (x : ShiftBuffer) : (s.withShift x).tunB = s.tunB := rfl
@[simp] theorem State.withShift_radio (s : State) (x : ShiftBuffer) : (s.withShift x).radio = s.radio := rfl
@[simp] theorem State.withShift_traffic (s : State) (x : ShiftBuffer) : (s.withShift x).traffic = s.traffic := rfl
@[simp] theorem State.withShift_shift (s : State) (x : ShiftBuffer) : (s.withShift x).shift = x := rfl
@[simp] theorem State.withShift_call (s : State) (x : ShiftBuffer) : (s.withShift x).call = s.call := rfl
@[simp] theorem State.withShift_stations (s : State) (x : ShiftBuffer) : (s.withShift x).stations = s.stations := rfl
@[simp] theorem State.withShift_chime (s : State) (x : ShiftBuffer) : (s.withShift x).chime = s.chime := rfl
@[simp] theorem State.withShift_store (s : State) (x : ShiftBuffer) : (s.withShift x).store = s.store := rfl
@[simp] theorem State.withShift_links (s : State) (x : ShiftBuffer) : (s.withShift x).links = s.links := rfl
@[simp] theorem State.withShift_power (s : State) (x : ShiftBuffer) : (s.withShift x).power = s.power := rfl

@[simp] theorem State.withCall_pending (s : State) (x : Call) : (s.withCall x).pending = s.pending := rfl
@[simp] theorem State.withCall_clock (s : State) (x : Call) : (s.withCall x).clock = s.clock := rfl
@[simp] theorem State.withCall_ports (s : State) (x : Call) : (s.withCall x).ports = s.ports := rfl
@[simp] theorem State.withCall_table (s : State) (x : Call) : (s.withCall x).table = s.table := rfl
@[simp] theorem State.withCall_mix (s : State) (x : Call) : (s.withCall x).mix = s.mix := rfl
@[simp] theorem State.withCall_tunA (s : State) (x : Call) : (s.withCall x).tunA = s.tunA := rfl
@[simp] theorem State.withCall_tunB (s : State) (x : Call) : (s.withCall x).tunB = s.tunB := rfl
@[simp] theorem State.withCall_radio (s : State) (x : Call) : (s.withCall x).radio = s.radio := rfl
@[simp] theorem State.withCall_traffic (s : State) (x : Call) : (s.withCall x).traffic = s.traffic := rfl
@[simp] theorem State.withCall_shift (s : State) (x : Call) : (s.withCall x).shift = s.shift := rfl
@[simp] theorem State.withCall_call (s : State) (x : Call) : (s.withCall x).call = x := rfl
@[simp] theorem State.withCall_stations (s : State) (x : Call) : (s.withCall x).stations = s.stations := rfl
@[simp] theorem State.withCall_chime (s : State) (x : Call) : (s.withCall x).chime = s.chime := rfl
@[simp] theorem State.withCall_store (s : State) (x : Call) : (s.withCall x).store = s.store := rfl
@[simp] theorem State.withCall_links (s : State) (x : Call) : (s.withCall x).links = s.links := rfl
@[simp] theorem State.withCall_power (s : State) (x : Call) : (s.withCall x).power = s.power := rfl

@[simp] theorem State.withStations_pending (s : State) (x : Stations) : (s.withStations x).pending = s.pending := rfl
@[simp] theorem State.withStations_clock (s : State) (x : Stations) : (s.withStations x).clock = s.clock := rfl
@[simp] theorem State.withStations_ports (s : State) (x : Stations) : (s.withStations x).ports = s.ports := rfl
@[simp] theorem State.withStations_table (s : State) (x : Stations) : (s.withStations x).table = s.table := rfl
@[simp] theorem State.withStations_mix (s : State) (x : Stations) : (s.withStations x).mix = s.mix := rfl
@[simp] theorem State.withStations_tunA (s : State) (x : Stations) : (s.withStations x).tunA = s.tunA := rfl
@[simp] theorem State.withStations_tunB (s : State) (x : Stations) : (s.withStations x).tunB = s.tunB := rfl
@[simp] theorem State.withStations_radio (s : State) (x : Stations) : (s.withStations x).radio = s.radio := rfl
@[simp] theorem State.withStations_traffic (s : State) (x : Stations) : (s.withStations x).traffic = s.traffic := rfl
@[simp] theorem State.withStations_shift (s : State) (x : Stations) : (s.withStations x).shift = s.shift := rfl
@[simp] theorem State.withStations_call (s : State) (x : Stations) : (s.withStations x).call = s.call := rfl
@[simp] theorem State.withStations_stations (s : State) (x : Stations) : (s.withStations x).stations = x := rfl
@[simp] theorem State.withStations_chime (s : State) (x : Stations) : (s.withStations x).chime = s.chime := rfl
@[simp] theorem State.withStations_store (s : State) (x : Stations) : (s.withStations x).store = s.store := rfl
@[simp] theorem State.withStations_links (s : State) (x : Stations) : (s.withStations x).links = s.links := rfl
@[simp] theorem State.withStations_power (s : State) (x : Stations) : (s.withStations x).power = s.power := rfl

@[simp] theorem State.withChime_pending (s : State) (x : Chime) : (s.withChime x).pending = s.pending := rfl
@[simp] theorem State.withChime_clock (s : State) (x : Chime) : (s.withChime x).clock = s.clock := rfl
@[simp] theorem State.withChime_ports (s : State) (x : Chime) : (s.withChime x).ports = s.ports := rfl
@[simp] theorem State.withChime_table (s : State) (x : Chime) : (s.withChime x).table = s.table := rfl
@[simp] theorem State.withChime_mix (s : State) (x : Chime) : (s.withChime x).mix = s.mix := rfl
@[simp] theorem State.withChime_tunA (s : State) (x : Chime) : (s.withChime x).tunA = s.tunA := rfl
@[simp] theorem State.withChime_tunB (s : State) (x : Chime) : (s.withChime x).tunB = s.tunB := rfl
@[simp] theorem State.withChime_radio (s : State) (x : Chime) : (s.withChime x).radio = s.radio := rfl
@[simp] theorem State.withChime_traffic (s : State) (x : Chime) : (s.withChime x).traffic = s.traffic := rfl
@[simp] theorem State.withChime_shift (s : State) (x : Chime) : (s.withChime x).shift = s.shift := rfl
@[simp] theorem State.withChime_call (s : State) (x : Chime) : (s.withChime x).call = s.call := rfl
@[simp] theorem State.withChime_stations (s : State) (x : Chime) : (s.withChime x).stations = s.stations := rfl
@[simp] theorem State.withChime_chime (s : State) (x : Chime) : (s.withChime x).chime = x := rfl
@[simp] theorem State.withChime_store (s : State) (x : Chime) : (s.withChime x).store = s.store := rfl
@[simp] theorem State.withChime_links (s : State) (x : Chime) : (s.withChime x).links = s.links := rfl
@[simp] theorem State.withChime_power (s : State) (x : Chime) : (s.withChime x).power = s.power := rfl

@[simp] theorem State.withStore_pending (s : State) (x : Store) : (s.withStore x).pending = s.pending := rfl
@[simp] theorem State.withStore_clock (s : State) (x : Store) : (s.withStore x).clock = s.clock := rfl
@[simp] theorem State.withStore_ports (s : State) (x : Store) : (s.withStore x).ports = s.ports := rfl
@[simp] theorem State.withStore_table (s : State) (x : Store) : (s.withStore x).table = s.table := rfl
@[simp] theorem State.withStore_mix (s : State) (x : Store) : (s.withStore x).mix = s.mix := rfl
@[simp] theorem State.withStore_tunA (s : State) (x : Store) : (s.withStore x).tunA = s.tunA := rfl
@[simp] theorem State.withStore_tunB (s : State) (x : Store) : (s.withStore x).tunB = s.tunB := rfl
@[simp] theorem State.withStore_radio (s : State) (x : Store) : (s.withStore x).radio = s.radio := rfl
@[simp] theorem State.withStore_traffic (s : State) (x : Store) : (s.withStore x).traffic = s.traffic := rfl
@[simp] theorem State.withStore_shift (s : State) (x : Store) : (s.withStore x).shift = s.shift := rfl
@[simp] theorem State.withStore_call (s : State) (x : Store) : (s.withStore x).call = s.call := rfl
@[simp] theorem State.withStore_stations (s : State) (x : Store) : (s.withStore x).stations = s.stations := rfl
@[simp] theorem State.withStore_chime (s : State) (x : Store) : (s.withStore x).chime = s.chime := rfl
@[simp] theorem State.withStore_store (s : State) (x : Store) : (s.withStore x).store = x := rfl
@[simp] theorem State.withStore_links (s : State) (x : Store) : (s.withStore x).links = s.links := rfl
@[simp] theorem State.withStore_power (s : State) (x : Store) : (s.withStore x).power = s.power := rfl

@[simp] theorem State.withLinks_pending (s : State) (x : PerLink LinkState) : (s.withLinks x).pending = s.pending := rfl
@[simp] theorem State.withLinks_clock (s : State) (x : PerLink LinkState) : (s.withLinks x).clock = s.clock := rfl
@[simp] theorem State.withLinks_ports (s : State) (x : PerLink LinkState) : (s.withLinks x).ports = s.ports := rfl
@[simp] theorem State.withLinks_table (s : State) (x : PerLink LinkState) : (s.withLinks x).table = s.table := rfl
@[simp] theorem State.withLinks_mix (s : State) (x : PerLink LinkState) : (s.withLinks x).mix = s.mix := rfl
@[simp] theorem State.withLinks_tunA (s : State) (x : PerLink LinkState) : (s.withLinks x).tunA = s.tunA := rfl
@[simp] theorem State.withLinks_tunB (s : State) (x : PerLink LinkState) : (s.withLinks x).tunB = s.tunB := rfl
@[simp] theorem State.withLinks_radio (s : State) (x : PerLink LinkState) : (s.withLinks x).radio = s.radio := rfl
@[simp] theorem State.withLinks_traffic (s : State) (x : PerLink LinkState) : (s.withLinks x).traffic = s.traffic := rfl
@[simp] theorem State.withLinks_shift (s : State) (x : PerLink LinkState) : (s.withLinks x).shift = s.shift := rfl
@[simp] theorem State.withLinks_call (s : State) (x : PerLink LinkState) : (s.withLinks x).call = s.call := rfl
@[simp] theorem State.withLinks_stations (s : State) (x : PerLink LinkState) : (s.withLinks x).stations = s.stations := rfl
@[simp] theorem State.withLinks_chime (s : State) (x : PerLink LinkState) : (s.withLinks x).chime = s.chime := rfl
@[simp] theorem State.withLinks_store (s : State) (x : PerLink LinkState) : (s.withLinks x).store = s.store := rfl
@[simp] theorem State.withLinks_links (s : State) (x : PerLink LinkState) : (s.withLinks x).links = x := rfl
@[simp] theorem State.withLinks_power (s : State) (x : PerLink LinkState) : (s.withLinks x).power = s.power := rfl

@[simp] theorem State.withPower_pending (s : State) (x : Power) : (s.withPower x).pending = s.pending := rfl
@[simp] theorem State.withPower_clock (s : State) (x : Power) : (s.withPower x).clock = s.clock := rfl
@[simp] theorem State.withPower_ports (s : State) (x : Power) : (s.withPower x).ports = s.ports := rfl
@[simp] theorem State.withPower_table (s : State) (x : Power) : (s.withPower x).table = s.table := rfl
@[simp] theorem State.withPower_mix (s : State) (x : Power) : (s.withPower x).mix = s.mix := rfl
@[simp] theorem State.withPower_tunA (s : State) (x : Power) : (s.withPower x).tunA = s.tunA := rfl
@[simp] theorem State.withPower_tunB (s : State) (x : Power) : (s.withPower x).tunB = s.tunB := rfl
@[simp] theorem State.withPower_radio (s : State) (x : Power) : (s.withPower x).radio = s.radio := rfl
@[simp] theorem State.withPower_traffic (s : State) (x : Power) : (s.withPower x).traffic = s.traffic := rfl
@[simp] theorem State.withPower_shift (s : State) (x : Power) : (s.withPower x).shift = s.shift := rfl
@[simp] theorem State.withPower_call (s : State) (x : Power) : (s.withPower x).call = s.call := rfl
@[simp] theorem State.withPower_stations (s : State) (x : Power) : (s.withPower x).stations = s.stations := rfl
@[simp] theorem State.withPower_chime (s : State) (x : Power) : (s.withPower x).chime = s.chime := rfl
@[simp] theorem State.withPower_store (s : State) (x : Power) : (s.withPower x).store = s.store := rfl
@[simp] theorem State.withPower_links (s : State) (x : Power) : (s.withPower x).links = s.links := rfl
@[simp] theorem State.withPower_power (s : State) (x : Power) : (s.withPower x).power = x := rfl

/-! ## Members of records -/

@[simp] theorem PerLink.get_set {α : Type} (p : PerLink α) (l k : Link) (a : α) :
    (p.set l a).get k = if k = l then a else p.get k := by
  cases l <;> cases k <;> rfl

@[simp] theorem PerLink.get_all {α : Type} (a : α) (k : Link) : (PerLink.all a).get k = a := by cases k <;> rfl

@[simp] theorem State.setLink_link (s : State) (l k : Link) (x : LinkState) :
    (s.setLink l x).link k = if k = l then x else s.link k := by simp [State.setLink, State.link]

@[simp] theorem State.setSlot_link (s : State) (l k : Link) (x : Slot) :
    (s.setSlot l x).link k = if k = l then { s.link l with slot := x } else s.link k := by simp [State.setSlot]

@[simp] theorem State.shiftOut_link (s : State) (l k : Link) (n : Nat) (r : Reply) :
    (s.shiftOut l n r).link k =
      if k = l then { s.link l with shifted := some (fit n 0 (r.bytes (s.link l).attention)) } else s.link k := by
  simp [State.shiftOut]

@[simp] theorem State.offer_link (s : State) (l k : Link) (rise fall : BitVec 16) :
    (s.offer l rise fall).link k = if k = l then (s.link l).offer rise fall else s.link k := by simp [State.offer]

@[simp] theorem State.notice_link (s : State) (l k : Link) (c : Nat) :
    (s.notice l c).link k = if k = l then (s.link l).offer (conditionBit c true) 0 else s.link k := by simp [State.notice]

@[simp] theorem State.offerAll_link (s : State) (k : Link) (rise fall : BitVec 16) :
    (s.offerAll rise fall).link k = (s.link k).offer rise fall := by
  cases k <;> simp [State.offerAll, Link.every]

@[simp] theorem State.offerEdges_link (before after : State) (k : Link) :
    (State.offerEdges before after).link k =
      (after.link k).offer (after.levels k &&& ~~~before.levels k &&& ~~~offeredInPlace)
        (before.levels k &&& ~~~after.levels k &&& ~~~offeredInPlace) := by
  cases k <;> simp [State.offerEdges, Link.every]

@[simp] theorem State.setStation_station (s : State) (st k : StationId) (x : Station) :
    (s.setStation st x).station k = if k = st then x else s.station k := by cases st <;> cases k <;> rfl

@[simp] theorem State.setTracker_tracker (s : State) (p q : Port) (x : Tracker) :
    (s.setTracker p x).tracker q = if q = p then x else s.tracker q := by cases p <;> cases q <;> rfl

@[simp] theorem State.setReceiver_receiver (s : State) (t u : TunerId) (x : Receiver) :
    (s.setReceiver t x).receiver u = if u = t then x else s.receiver u := by cases t <;> cases u <;> rfl

@[simp] theorem State.setChannel_channel (s : State) (l k : Link) (c : Option Channel) :
    (s.setChannel l c).channel k = if k = l then c else s.channel k := by simp [State.setChannel, State.channel]

theorem getD_set {α : Type} (xs : List α) (i j : Nat) (a d : α) (h : i < xs.length) :
    (xs.set i a).getD j d = if j = i then a else xs.getD j d := by
  by_cases hj : j = i
  · subst hj; simp [List.getD, h]
  · simp [List.getD, hj, Ne.symm hj]

theorem State.setClaim_claim (s : State) (h k : Nat) (c : Option Claim) (hl : h < s.table.entries.length) :
    (s.setClaim h c).claim k = if k = h then c else s.claim k := getD_set _ _ _ _ _ hl

theorem State.setSink_sink (s : State) (k j : Nat) (x : Sink) (h : k < s.mix.sinks.length) :
    (s.setSink k x).sink j = if j = k then x else s.sink j := getD_set _ _ _ _ _ h

theorem State.setVoice_voice (s : State) (n m : Nat) (v : Voice) (h : n < s.chime.voices.length) :
    (s.setVoice n v).voice m = if m = n then v else s.voice m := getD_set _ _ _ _ _ h

theorem State.setDesc_desc (s : State) (d e : Nat) (x : Descriptor) (h : d < s.chime.descs.length) :
    (s.setDesc d x).desc e = if e = d then some x else s.desc e := getD_set _ _ _ _ _ h

end Sys2Proof.Machine
end

