-- ==== Sys2Proof/Laws/Blocks.lean ====
section
/-! SUPPORT. What each shared operation may change: for every one the blocks it stays within, in the terms of `Happens`. A frame of a
command follows from these by `Happens.trans` and `Happens.mono`, without unfolding the operations. -/

namespace Sys2Proof.Machine

/-! ## The frame relations themselves -/

theorem State.sameBlock_refl (s : State) (b : Block) : s.sameBlock s b := by cases b <;> rfl

theorem State.sameBlock_trans {s t u : State} {b : Block} (h : s.sameBlock t b) (k : t.sameBlock u b) : s.sameBlock u b := by
  cases b <;> simp only [State.sameBlock] at * <;> rw [k, h]

theorem OnlyChanges.refl (bs : List Block) (s : State) : OnlyChanges bs s s := ⟨rfl, fun b _ => s.sameBlock_refl b⟩

theorem OnlyChanges.trans {bs : List Block} {s t u : State} (h : OnlyChanges bs s t) (k : OnlyChanges bs t u) :
    OnlyChanges bs s u := ⟨k.1.trans h.1, fun b hb => State.sameBlock_trans (h.2 b hb) (k.2 b hb)⟩

theorem OnlyChanges.mono {bs cs : List Block} {s t : State} (h : OnlyChanges bs s t) (hs : bs ⊆ cs) : OnlyChanges cs s t :=
  ⟨h.1, fun b hb => h.2 b fun hc => hb (hs hc)⟩

theorem LinksUndisturbed.refl (s : State) : LinksUndisturbed s s := fun _ => ⟨rfl, rfl, rfl, rfl, rfl⟩

theorem LinksUndisturbed.trans {s t u : State} (h : LinksUndisturbed s t) (k : LinksUndisturbed t u) : LinksUndisturbed s u :=
  fun l => ⟨(k l).1.trans (h l).1, (k l).2.1.trans (h l).2.1, (k l).2.2.1.trans (h l).2.2.1,
    (k l).2.2.2.1.trans (h l).2.2.2.1, (k l).2.2.2.2.trans (h l).2.2.2.2⟩

theorem LinksUndisturbed.of_links {s t : State} (h : t.links = s.links) : LinksUndisturbed s t := by
  intro l; simp [State.link, h]

theorem Happens.refl (bs : List Block) (s : State) : Happens bs s s := ⟨.refl s, .refl _ s⟩

theorem Happens.trans {bs : List Block} {s t u : State} (h : Happens bs s t) (k : Happens bs t u) : Happens bs s u :=
  ⟨h.links.trans k.links, h.blocks.trans k.blocks⟩

theorem Happens.mono {bs cs : List Block} {s t : State} (h : Happens bs s t) (hs : bs ⊆ cs) : Happens cs s t :=
  ⟨h.links, h.blocks.mono (List.cons_subset_cons _ hs)⟩

theorem Happens.ite {bs : List Block} {s t u : State} {c : Prop} [Decidable c] (h : Happens bs s t) (k : Happens bs s u) :
    Happens bs s (if c then t else u) := by split <;> assumption

/-- A change of one block apart from the Link Block. -/
theorem Happens.of_same {bs : List Block} {s t : State} (hl : t.links = s.links) (hp : t.pending = s.pending)
    (hb : ∀ b, b ∉ bs → b ≠ .links → s.sameBlock t b) : Happens bs s t :=
  ⟨.of_links hl, hp, fun b h => hb b (fun k => h (List.mem_cons_of_mem _ k)) (fun k => h (by simp [k]))⟩

/-! ## One update -/

theorem happens_withClock (s : State) (x : Clock) : Happens [.clock] s (s.withClock x) :=
  .of_same rfl rfl fun b h _ => by cases b <;> first | rfl | simp at h
theorem happens_withPorts (s : State) (x : Ports) : Happens [.ports] s (s.withPorts x) :=
  .of_same rfl rfl fun b h _ => by cases b <;> first | rfl | simp at h
theorem happens_withTable (s : State) (x : ClaimTable) : Happens [.table] s (s.withTable x) :=
  .of_same rfl rfl fun b h _ => by cases b <;> first | rfl | simp at h
theorem happens_withMix (s : State) (x : Mix) : Happens [.mix] s (s.withMix x) :=
  .of_same rfl rfl fun b h _ => by cases b <;> first | rfl | simp at h
theorem happens_withTunA (s : State) (x : TunerA) : Happens [.tunA] s (s.withTunA x) :=
  .of_same rfl rfl fun b h _ => by cases b <;> first | rfl | simp at h
theorem happens_withTunB (s : State) (x : TunerB) : Happens [.tunB] s (s.withTunB x) :=
  .of_same rfl rfl fun b h _ => by cases b <;> first | rfl | simp at h
theorem happens_withRadio (s : State) (x : Radio) : Happens [.radio] s (s.withRadio x) :=
  .of_same rfl rfl fun b h _ => by cases b <;> first | rfl | simp at h
theorem happens_withTraffic (s : State) (x : Traffic) : Happens [.traffic] s (s.withTraffic x) :=
  .of_same rfl rfl fun b h _ => by cases b <;> first | rfl | simp at h
theorem happens_withShift (s : State) (x : ShiftBuffer) : Happens [.shift] s (s.withShift x) :=
  .of_same rfl rfl fun b h _ => by cases b <;> first | rfl | simp at h
theorem happens_withCall (s : State) (x : Call) : Happens [.call] s (s.withCall x) :=
  .of_same rfl rfl fun b h _ => by cases b <;> first | rfl | simp at h
theorem happens_withStations (s : State) (x : Stations) : Happens [.stations] s (s.withStations x) :=
  .of_same rfl rfl fun b h _ => by cases b <;> first | rfl | simp at h
theorem happens_withChime (s : State) (x : Chime) : Happens [.chime] s (s.withChime x) :=
  .of_same rfl rfl fun b h _ => by cases b <;> first | rfl | simp at h
theorem happens_withStore (s : State) (x : Store) : Happens [.store] s (s.withStore x) :=
  .of_same rfl rfl fun b h _ => by cases b <;> first | rfl | simp at h
theorem happens_withPower (s : State) (x : Power) : Happens [.power] s (s.withPower x) :=
  .of_same rfl rfl fun b h _ => by cases b <;> first | rfl | simp at h

/-! ## The Link Block: offers and advisories -/

theorem onlyChanges_setLink (s : State) (l : Link) (x : LinkState) : OnlyChanges [.links] s (s.setLink l x) :=
  ⟨rfl, fun b h => by cases b <;> first | rfl | simp at h⟩

/-- A change of a link's latch or advisories alone. -/
theorem happens_setLink (s : State) (l : Link) (x : LinkState)
    (h : x.riseEnable = (s.link l).riseEnable ∧ x.fallEnable = (s.link l).fallEnable ∧ x.restart = (s.link l).restart
      ∧ x.slot = (s.link l).slot ∧ x.shifted = (s.link l).shifted) : Happens [] s (s.setLink l x) :=
  ⟨fun k => by by_cases hk : k = l <;> simp [hk, h], onlyChanges_setLink s l x⟩

theorem happens_offer (s : State) (l : Link) (rise fall : BitVec 16) : Happens [] s (s.offer l rise fall) :=
  happens_setLink _ _ _ ⟨rfl, rfl, rfl, rfl, rfl⟩

theorem happens_notice (s : State) (l : Link) (c : Nat) : Happens [] s (s.notice l c) := happens_offer _ _ _ _

theorem happens_foldl {α : Type} {bs : List Block} (f : State → α → State) (hf : ∀ s a, Happens bs s (f s a)) (xs : List α)
    (s : State) : Happens bs s (xs.foldl f s) := by
  induction xs generalizing s with
  | nil => exact .refl _ _
  | cons a xs ih => exact (hf s a).trans (ih _)

theorem happens_offerAll (s : State) (rise fall : BitVec 16) : Happens [] s (s.offerAll rise fall) :=
  happens_foldl _ (fun s l => happens_offer s l rise fall) _ _

theorem happens_riseAll (s : State) (c : Nat) : Happens [] s (s.riseAll c) := happens_offerAll _ _ _
theorem happens_fallAll (s : State) (c : Nat) : Happens [] s (s.fallAll c) := happens_offerAll _ _ _

theorem happens_offerEdges (before after : State) : Happens [] after (State.offerEdges before after) :=
  happens_foldl _ (fun s l => happens_offer s l _ _) _ _

theorem happens_advise (s : State) (l : Link) (a : Advisory) : Happens [] s (s.advise l a) :=
  .trans (happens_setLink s l { s.link l with advisories := joinAdvisory (s.link l).advisories a } ⟨rfl, rfl, rfl, rfl, rfl⟩)
    (happens_notice _ _ _)

/-! ## The Claim Table and the Shift Buffer -/

theorem happens_setPosted (s : State) (r : Nat) (x : Bool) : Happens [.store] s (s.setPosted r x) := happens_withStore _ _
theorem happens_postReplay (s : State) : Happens [.store] s s.postReplay := happens_setPosted _ _ _
theorem happens_setClaim (s : State) (h : Nat) (c : Option Claim) : Happens [.table] s (s.setClaim h c) := happens_withTable _ _
theorem happens_changeClaim (s : State) (h : Nat) (f : Claim → Claim) : Happens [.table] s (s.changeClaim h f) :=
  happens_setClaim _ _ _

theorem happens_post (s : State) (h : Nat) (c : Claim) : Happens [.table, .traffic] s (s.post h c) := by
  unfold State.post State.readyToPost State.renumber
  refine .trans (t := if s.table.counter < seqMax then s else _) ?_ ((happens_withTable _ _).mono (by simp))
  refine .ite (.refl _ _) (.trans ((happens_withTable _ _).mono (by simp)) ((happens_withTraffic _ _).mono (by simp)))

theorem happens_startCapture (s : State) (st : ShiftState) (p : Purpose) (c : Option PauseCause) (t : TunerId) :
    Happens [.shift] s (s.startCapture st p c t) := (happens_withShift _ _).trans ((happens_riseAll _ _).mono (by simp))

theorem happens_shiftOff (s : State) : Happens [.shift, .store] s s.shiftOff := by
  have h := ((happens_withShift s .off).mono (cs := [.shift, .store]) (by simp)).trans
    (((happens_setPosted _ 0 false).mono (by simp)).trans ((happens_setPosted _ 1 false).mono (by simp)))
  have k : Happens [.shift, .store] s (if s.shift.state = .off then ((s.withShift .off).setPosted 0 false).setPosted 1 false
      else (((s.withShift .off).setPosted 0 false).setPosted 1 false).fallAll 3) :=
    .ite h (h.trans ((happens_fallAll _ _).mono (by simp)))
  exact .ite (k.trans ((happens_fallAll _ _).mono (by simp))) k

theorem happens_considerMemo (s : State) (t : TunerId) : Happens [.traffic, .shift] s (s.considerMemo t) := by
  unfold State.considerMemo
  refine .ite (.refl _ _) ?_
  have miss : ∀ r, Happens [.traffic, .shift] s
      ((s.withTraffic { s.traffic with outcome := some .missed }).advise .cockpit (.taMissed r (.tuner t))) := fun r =>
    .trans ((happens_withTraffic _ _).mono (by simp)) ((happens_advise _ _ _).mono (by simp))
  split
  · exact .ite (miss _) (.trans ((happens_withTraffic _ _).mono (by simp)) ((happens_startCapture _ _ _ _ _).mono (by simp)))
  all_goals first | exact miss _ | exact .refl _ _

theorem happens_replayMemo (s : State) : Happens [.table, .shift, .store] s s.replayMemo :=
  ((happens_withShift _ _).mono (by simp)).trans
    (((happens_changeClaim _ _ _).mono (by simp)).trans ((happens_postReplay _).mono (by simp)))

/-- What a change of the Claim Table may bring about stays within `tableFollowers`. -/
theorem happens_tableChanged (s : State) : Happens tableFollowers s s.tableChanged := by
  unfold State.tableChanged
  have memo : Happens tableFollowers s (match s.unheard with | some t => s.considerMemo t | none => s) := by
    split
    · exact (happens_considerMemo _ _).mono (by simp [tableFollowers])
    · exact .refl _ _
  split
  · exact .ite ((happens_replayMemo _).mono (by simp [tableFollowers])) (.refl _ _)
  · split
    · refine .ite ?_ (.refl _ _)
      exact ((happens_withShift _ _).mono (by simp [tableFollowers])).trans
        (((happens_post _ _ _).mono (by simp [tableFollowers])).trans
          (((happens_withTraffic _ _).mono (by simp [tableFollowers])).trans
            ((happens_postReplay _).mono (by simp [tableFollowers]))))
    · exact .refl _ _
  · exact .refl _ _
  all_goals exact memo

theorem happens_startAnnouncement (s : State) (t : TunerId) : Happens tableFollowers s (s.startAnnouncement t) := by
  unfold State.startAnnouncement
  refine .trans (t := (s.withTraffic { s.traffic with announcing := true, outcome := some .none }).riseAll 2)
    (.trans ((happens_withTraffic _ _).mono (by simp [tableFollowers])) ((happens_riseAll _ _).mono (by simp))) ?_
  generalize (s.withTraffic { s.traffic with announcing := true, outcome := some .none }).riseAll 2 = u
  have claim : Happens tableFollowers u ((u.post radioHandle (radioClaim (sourceOfTuner t))).tableChanged) :=
    .trans ((happens_post _ _ _).mono (by simp [tableFollowers])) (happens_tableChanged _)
  dsimp only
  split
  · exact claim
  · exact claim
  · exact claim
  · generalize hv : u.post radioHandle (radioClaim (sourceOfTuner t)) = v
    have h : Happens tableFollowers u
        ((v.withTraffic { v.traffic with retained := none, outcome := some .captured }).withShift
          { (v.withTraffic { v.traffic with retained := none, outcome := some .captured }).shift with
            state := .memoCapture, captured := some t, running := true }) := by
      rw [← hv]
      exact ((happens_post _ _ _).mono (by simp [tableFollowers])).trans
        (((happens_withTraffic _ _).mono (by simp [tableFollowers])).trans
          ((happens_withShift _ _).mono (by simp [tableFollowers])))
    exact .ite (h.trans ((happens_replayMemo _).mono (by simp [tableFollowers]))) h
  · exact ((happens_withTraffic _ _).mono (by simp [tableFollowers])).trans
      ((happens_withShift _ _).mono (by simp [tableFollowers]))
  · exact .refl _ _

theorem happens_dropRadio (s : State) : Happens tableFollowers s (s.setClaim radioHandle none).tableChanged :=
  .trans ((happens_setClaim _ _ _).mono (by simp [tableFollowers])) (happens_tableChanged _)

theorem happens_endClaim (s : State) : Happens tableFollowers s
    (match s.claim radioHandle with
      | some c => if c.source = .shift then s else (s.setClaim radioHandle none).tableChanged
      | none => s) := by
  split
  · exact .ite (.refl _ _) (happens_dropRadio _)
  · exact .refl _ _

theorem happens_endAnnouncement (s : State) : Happens tableFollowers s s.endAnnouncement := by
  unfold State.endAnnouncement
  refine .trans (t := (s.withTraffic { s.traffic with announcing := false, outcome := none }).fallAll 2)
    (.trans ((happens_withTraffic _ _).mono (by simp [tableFollowers])) ((happens_fallAll _ _).mono (by simp))) ?_
  generalize (s.withTraffic { s.traffic with announcing := false, outcome := none }).fallAll 2 = u
  have h : Happens tableFollowers u
      (match u.shift.state with
        | .memoCapture =>
          (u.withTraffic { u.traffic with retained := (u.claim radioHandle).map fun c => c.seq }).withShift
            { u.shift with state := .memoHeld, running := false }
        | .memoReplay => u.withShift { u.shift with running := false }
        | .off | .capture | .replay | .memoHeld => u) := by
    split
    · exact ((happens_withTraffic _ _).mono (by simp [tableFollowers])).trans
        ((happens_withShift _ _).mono (by simp [tableFollowers]))
    · exact (happens_withShift _ _).mono (by simp [tableFollowers])
    all_goals exact .refl _ _
  exact .trans h (happens_endClaim _)

theorem happens_dropMemoClaim (s : State) : Happens tableFollowers s s.dropMemoClaim := by
  unfold State.dropMemoClaim
  refine .trans (t := s.withTraffic { s.traffic with retained := none })
    ((happens_withTraffic _ _).mono (by simp [tableFollowers])) ?_
  dsimp only
  split
  · refine .ite ?_ (.refl _ _)
    split
    · exact .trans ((happens_changeClaim _ _ _).mono (by simp [tableFollowers])) (happens_tableChanged _)
    · exact happens_dropRadio _
  · exact .refl _ _

theorem happens_discard (s : State) (c : DiscardCause) : Happens tableFollowers s (s.discard c) := by
  unfold State.discard
  refine .ite (.refl _ _) ?_
  have h := (happens_shiftOff s).mono (cs := tableFollowers) (by simp [tableFollowers])
  have k : Happens tableFollowers s (if c = .hubReset then s.shiftOff
      else s.shiftOff.advise .cockpit (.shiftDiscarded c s.shift.state s.shift.fill)) :=
    .ite h (h.trans ((happens_advise _ _ _).mono (by simp)))
  exact .ite (k.trans (happens_dropMemoClaim _)) k

theorem happens_retuned (s : State) (t : TunerId) : Happens tableFollowers s (s.retuned t) :=
  .ite (happens_discard _ _) (.refl _ _)

/-! ## The tuners -/

theorem happens_tuneA (s : State) (f : Freq) (r : Option (TuneCause × TuneResult)) : Happens [.tunA] s (s.tuneA f r) :=
  happens_withTunA _ _

theorem happens_tuneDone (s : State) (r : TuneCause × TuneResult) : Happens [.tunA] s (s.tuneDone r) :=
  .trans (happens_withTunA _ _) ((happens_riseAll _ _).mono (by simp))

theorem happens_enterB (s : State) (st : BState) (f : Option Freq) : Happens (.tunB :: tableFollowers) s (s.enterB st f) :=
  .trans ((happens_withTunB _ _).mono (by simp)) ((happens_retuned _ _).mono (by simp))

theorem happens_startSweep (s : State) (st : BState) : Happens (.radio :: .tunB :: tableFollowers) s (s.startSweep st) :=
  .trans ((happens_withRadio _ _).mono (by simp)) ((happens_enterB _ _ _).mono (by simp))

theorem happens_assignB (s : State) : Happens reassessed s s.assignB := by
  unfold State.assignB
  have enter : ∀ st f, Happens reassessed s (s.enterB st f) := fun st f =>
    (happens_enterB _ _ _).mono (by simp [reassessed, tableFollowers])
  refine .ite (.refl _ _) ?_
  split
  · exact .ite (.refl _ _) (enter _ _)
  · exact .ite (.refl _ _) (enter _ _)
  · exact .ite (.ite (.refl _ _) ((happens_startSweep _ _).mono (by simp [reassessed, tableFollowers])))
      (.ite (.refl _ _) (enter _ _))

theorem happens_followEligible (s : State) : Happens [.traffic] s s.followEligible :=
  .ite (happens_withTraffic _ _) (.ite (happens_withTraffic _ _) (.refl _ _))

theorem happens_followWatch (s : State) : Happens [.traffic] s s.followWatch := happens_withTraffic _ _

theorem happens_followAnnouncement (s : State) (src : TrafficSource) : Happens tableFollowers s
    (match src with
      | .tuner t => if !s.traffic.announcing && s.taOf src then s.startAnnouncement t else s
      | .none => s) := by
  split
  · exact .ite (happens_startAnnouncement _ _) (.refl _ _)
  · exact .refl _ _

theorem happens_followSource (s : State) : Happens tableFollowers s s.followSource := by
  unfold State.followSource
  have h : Happens tableFollowers s
      (if s.traffic.announcing && !(s.sourceNow = s.traffic.source && s.taOf s.sourceNow) then s.endAnnouncement else s) :=
    .ite (happens_endAnnouncement _) (.refl _ _)
  exact (h.trans ((happens_withTraffic _ _).mono (by simp [tableFollowers]))).trans (happens_followAnnouncement _ _)

/-- A new assessment stays within `reassessed`. -/
theorem happens_reassess (s : State) : Happens reassessed s s.reassess :=
  .trans ((happens_followEligible _).mono (by simp [reassessed]))
    (.trans ((happens_followWatch _).mono (by simp [reassessed]))
      (.trans (happens_assignB _) ((happens_followSource _).mono (by simp [reassessed, tableFollowers]))))

theorem happens_retuneA (s : State) (f : Freq) (r : TuneCause × TuneResult) : Happens (.tunA :: reassessed) s (s.retuneA f r) :=
  .trans ((happens_tuneA _ _ _).mono (by simp))
    (.trans ((happens_retuned _ _).mono (by simp [reassessed, tableFollowers])) ((happens_reassess _).mono (by simp)))

/-! ## The clock -/

theorem happens_reach (s : State) (t : Time) : Happens [.clock, .ports] s (s.reach t) := by
  unfold State.reach
  exact .ite (.trans ((happens_withPorts _ _).mono (by simp)) ((happens_withClock _ _).mono (by simp)))
    ((happens_withClock _ _).mono (by simp))

theorem reach_now (s : State) (t : Time) : (s.reach t).clock.now = max s.clock.now t := by
  unfold State.reach; dsimp only; split <;> rfl

/-! ## Power -/

theorem happens_enterRun (s : State) (c : EntryCause) : Happens (.clock :: .power :: .tunA :: reassessed) s (s.enterRun c) :=
  .trans ((happens_withPower _ _).mono (by simp))
    (.trans ((happens_withClock _ _).mono (by simp)) ((happens_retuneA _ _ _).mono (by simp)))

theorem happens_wake (s : State) (on : Bool) (c : EntryCause) :
    Happens (.clock :: .power :: .tunA :: reassessed) s (s.wake on c) := .ite (happens_enterRun _ _) (.refl _ _)

end Sys2Proof.Machine
end

