-- ==== Sys2Proof/Laws/Orders.lean ====
section
/-! SUPPORT. What the frame exchange does with an order, once for every order: the state that follows where it is taken, what it
changes, and how the operand bytes of a frame are read back. -/

namespace Sys2Proof.Machine

/-! ## Operand bytes -/

theorem operands_carries {f : Frame} {ops : List Byte} (h : f.carries ops) : operands ops.length f = some ops := by
  obtain ⟨hl, ht⟩ := h
  have : ops.length ≤ f.bytes.length := by
    have := congrArg List.length ht
    simp at this; omega
  simp [operands, hl, ht, this]

theorem half_value (x : Half) : (x.extractLsb' 8 8).toNat * 256 + (x.extractLsb' 0 8).toNat = x.toNat := by
  have := x.isLt
  simp [BitVec.extractLsb'_toNat, Nat.shiftRight_eq_div_pow]; omega

theorem quad_value (x : Word) :
    ((x.extractLsb' 24 8).toNat * 256 + (x.extractLsb' 16 8).toNat) * 65536
      + ((x.extractLsb' 8 8).toNat * 256 + (x.extractLsb' 0 8).toNat) = x.toNat := by
  have := x.isLt
  simp [BitVec.extractLsb'_toNat, Nat.shiftRight_eq_div_pow]; omega

theorem half_signed (x : Half) :
    (BitVec.ofNat 16 ((x.extractLsb' 8 8).toNat * 256 + (x.extractLsb' 0 8).toNat)).toInt = x.toInt := by
  rw [half_value, BitVec.ofNat_toNat, BitVec.setWidth_eq]

/-! ## The reply frame -/

/-- What is shifted out of a reply in `n` bytes. -/
theorem shown_fit (r : Reply) (n : Nat) (p : Bool) : r.shownIn n p (fit n 0 (r.bytes p)) := by
  refine ⟨by simp [fit], fun i hi => ?_⟩
  have hr : r.bytes p = byteOf r.status.code :: byteOf r.length :: (r.results ++ [flag p]) := by simp [Reply.bytes]
  rw [hr]
  generalize byteOf r.status.code :: byteOf r.length :: (r.results ++ [flag p]) = bs
  have ht : (fit n 0 bs)[i]? = (bs ++ List.replicate n 0)[i]? := by simp [fit, hi]
  simp only [List.getD, ht]
  by_cases h : i < bs.length
  · rw [List.getElem?_append_left h]
  · rw [List.getElem?_append_right (by omega), List.getElem?_replicate, List.getElem?_eq_none (by omega)]
    split <;> rfl

/-! ## An order taken -/

/-- The state after an order that passes the Link Block's checks, in terms of the owning block's answer. -/
theorem order_next {α : Type} {l : Link} {f : Frame} {links : List Link} {ops : Option α} {body : α → State → Reply × State} {s : State}
    {b : α} {r : Reply} (hr : s.holds l r) (ho : ops = some b) (hl : links.contains l = true) :
    order l f links ops body s =
      .next ((State.offerEdges (s.shiftOut l (clocked f) r) (body b (s.shiftOut l (clocked f) r)).2).setSlot l
        (.pending (body b (s.shiftOut l (clocked f) r)).1)) := by
  unfold State.holds at hr
  simp only [order, takeOrder, hr, checked, ho, hl, if_true]

/-- What an order changes is what its owning block changes, with the exchange of frames on its link. -/
theorem taken_of_happens {l : Link} {f : Frame} {r answer : Reply} {bs : List Block} {s u : State}
    (h : Happens bs (s.shiftOut l (clocked f) r) u) :
    Taken l f r answer bs s ((State.offerEdges (s.shiftOut l (clocked f) r) u).setSlot l (.pending answer)) := by
  have k := h.trans ((happens_offerEdges (s.shiftOut l (clocked f) r) u).mono (by simp))
  refine ⟨⟨by simp, ⟨_, ?_, shown_fit r (clocked f) (s.link l).attention⟩, fun m hm => ?_⟩, fun m => ?_, ?_⟩
  · have := (k.links l).2.2.2.2
    simpa using this
  · have h1 := (k.links m).2.2.2.1
    have h2 := (k.links m).2.2.2.2
    simp only [State.setSlot_link, if_neg hm, State.shiftOut_link] at h1 h2 ⊢
    exact ⟨h1, h2⟩
  · have h1 := k.links m
    by_cases hm : m = l
    · subst hm
      simp only [State.setSlot_link, if_true, State.shiftOut_link] at h1 ⊢
      exact ⟨h1.1, h1.2.1, h1.2.2.1⟩
    · simp only [State.setSlot_link, if_neg hm, State.shiftOut_link] at h1 ⊢
      exact ⟨h1.1, h1.2.1, h1.2.2.1⟩
  · have a := (onlyChanges_setLink s l
      { s.link l with shifted := some (fit (clocked f) 0 (r.bytes (s.link l).attention)) }).mono (cs := .links :: bs) (by simp)
    have c := (onlyChanges_setLink (State.offerEdges (s.shiftOut l (clocked f) r) u) l
      { (State.offerEdges (s.shiftOut l (clocked f) r) u).link l with slot := .pending answer }).mono (cs := .links :: bs) (by simp)
    exact (a.trans k.blocks).trans c

/-- An event changes what its operation changes, with the edges it causes. -/
theorem event_happens {bs : List Block} {f : State → State} {s : State} (h : Happens bs s (f s)) :
    ∃ t, event f s = .next t ∧ Happens bs s t :=
  ⟨_, rfl, h.trans ((happens_offerEdges s (f s)).mono (by simp))⟩

/-- Offering nothing leaves a link's latch as it was. -/
@[simp] theorem LinkState.offer_zero (x : LinkState) : x.offer 0 0 = x := by simp [LinkState.offer]

/-- An operation that moves no level causes no edge. -/
theorem offerEdges_quiet {before after : State} (h : ∀ l, after.levels l = before.levels l) (l : Link) :
    (State.offerEdges before after).link l = after.link l := by
  simpa [h l] using LinkState.offer_zero (after.link l)

/-- An order whose answer leaves the links alone and moves no level reports nothing. -/
theorem unreported_order {l : Link} {n : Nat} {r answer : Reply} {s u : State} (hl : u.links = (s.shiftOut l n r).links)
    (hv : ∀ k, u.levels k = (s.shiftOut l n r).levels k) :
    Unreported s ((State.offerEdges (s.shiftOut l n r) u).setSlot l (.pending answer)) := by
  intro k
  have h := offerEdges_quiet (before := s.shiftOut l n r) (after := u) hv
  have h2 : ∀ k, u.link k = (s.shiftOut l n r).link k := fun k => by simp [State.link, hl]
  by_cases hk : k = l <;> simp [State.setSlot_link, h, h2, hk]

/-- An event that leaves the links alone and moves no level reports nothing. -/
theorem unreported_event {s u : State} (hl : u.links = s.links) (hv : ∀ k, u.levels k = s.levels k) :
    Unreported s (State.offerEdges s u) := by
  intro k
  have h2 : u.link k = s.link k := by simp [State.link, hl]
  simp only [offerEdges_quiet hv, h2, and_self]

end Sys2Proof.Machine
end

