-- ==== Sys2Proof/Laws/Store.lean ====
section
/-! SUPPORT. The Sample Store's words: every write keeps the canonical form, the word written reads back, and every other word reads
as before. -/

namespace Sys2Proof.Machine

theorem readWord_below (xs : List (Nat × Word)) (lo a : Nat) (h : wordsAbove (some lo) xs = true) (ha : a ≤ lo) :
    readWord xs a = 0 := by
  cases xs with
  | nil => rfl
  | cons p rest =>
    obtain ⟨b, x⟩ := p
    simp only [wordsAbove, Bool.and_eq_true, decide_eq_true_eq] at h
    have h1 : a < b := by omega
    have h2 : a ≠ b := by omega
    simp [readWord, h1, h2]

theorem wordsAbove_weaken (xs : List (Nat × Word)) (lo : Option Nat) (b : Nat) (h : wordsAbove (some b) xs = true)
    (hl : ∀ l, lo = some l → l ≤ b) : wordsAbove lo xs = true := by
  cases xs with
  | nil => rfl
  | cons p rest =>
    obtain ⟨c, x⟩ := p
    simp only [wordsAbove, Bool.and_eq_true, decide_eq_true_eq] at h ⊢
    refine ⟨⟨⟨?_, h.1.1.2⟩, h.1.2⟩, h.2⟩
    cases lo with
    | none => rfl
    | some l => have := hl l rfl; simp; omega

/-- A write keeps the canonical form. -/
theorem wordsAbove_writeWord (xs : List (Nat × Word)) (lo : Option Nat) (a : Nat) (v : Word) (h : wordsAbove lo xs = true)
    (ha : a < 16777216) (hl : ∀ l, lo = some l → l < a) : wordsAbove lo (writeWord xs a v) = true := by
  induction xs generalizing lo with
  | nil =>
    by_cases hv : v = 0#32
    · simp [writeWord, hv, wordsAbove]
    · cases lo with
      | none => simp [writeWord, hv, wordsAbove, ha]
      | some l => simp [writeWord, hv, wordsAbove, ha, hl l rfl]
  | cons p rest ih =>
    obtain ⟨b, x⟩ := p
    have h' := h
    simp only [wordsAbove, Bool.and_eq_true, decide_eq_true_eq] at h'
    obtain ⟨⟨⟨h1, h2⟩, h3⟩, h4⟩ := h'
    have hlo : ∀ l, lo = some l → l < b := by
      intro l hl'; subst hl'; simpa using h1
    unfold writeWord
    split
    · rename_i hab
      by_cases hv : v = 0#32
      · simpa [hv] using h
      · cases lo with
        | none => simp_all [wordsAbove]
        | some l => simp_all [wordsAbove]
    · split
      · rename_i hab
        subst hab
        by_cases hv : v = 0#32
        · simpa [hv] using wordsAbove_weaken rest lo a h4 (fun l hl' => (hlo l hl').le)
        · cases lo with
          | none => simp_all [wordsAbove]
          | some l => simp_all [wordsAbove]
      · rename_i h5 h6
        have := ih (some b) h4 (by intro l hl'; cases hl'; omega)
        cases lo with
        | none => simp_all [wordsAbove]
        | some l => simp_all [wordsAbove]

/-- The word written reads back, and every other word reads as before. -/
theorem readWord_writeWord (xs : List (Nat × Word)) (lo : Option Nat) (a c : Nat) (v : Word) (h : wordsAbove lo xs = true) :
    readWord (writeWord xs a v) c = if c = a then v else readWord xs c := by
  induction xs generalizing lo with
  | nil =>
    by_cases hv : v = 0#32 <;> by_cases hc : c = a <;> by_cases hlt : c < a <;> simp [writeWord, readWord, hv, hc]
  | cons p rest ih =>
    obtain ⟨b, x⟩ := p
    simp only [wordsAbove, Bool.and_eq_true, decide_eq_true_eq] at h
    obtain ⟨-, h4⟩ := h
    have hb := fun d hd => readWord_below rest b d h4 hd
    unfold writeWord
    split
    · rename_i hab
      by_cases hv : v = 0#32
      · by_cases hc : c = a
        · have h1 : c < b := by omega
          have h2 : c ≠ b := by omega
          simp [hv, hc, readWord, hab, hab.ne]
        · simp [hv, hc]
      · by_cases hc : c = a
        · simp [hv, hc, readWord]
        · by_cases hlt : c < a
          · have h1 : c < b := by omega
            have h2 : c ≠ b := by omega
            simp [hv, hc, readWord, hlt, h1, h2]
          · simp [hv, hc, readWord, hlt]
    · split
      · rename_i hab
        subst hab
        by_cases hv : v = 0#32
        · by_cases hc : c = a
          · simp [hv, hc, hb a le_rfl]
          · by_cases hlt : c < a
            · simp [hv, hc, readWord, hlt, hb c hlt.le]
            · simp [hv, hc, readWord, hlt]
        · by_cases hc : c = a <;> simp [hv, hc, readWord]
      · rename_i h5 h6
        have := ih (some b) h4
        by_cases hc : c = b
        · have h1 : c ≠ a := by omega
          simp [readWord, hc]
          intro hba; omega
        · by_cases hlt : c < b
          · have h1 : c ≠ a := by omega
            simp [readWord, hc, hlt, h1]
          · simp [readWord, hc, hlt, this]

/-- A write to the store keeps its form. -/
theorem Store.write_wf (st : Store) (a : Addr) (v : Word) (h : st.wf = true) : (st.write a v).wf = true :=
  wordsAbove_writeWord _ _ _ _ h (by simpa using a.isLt) (by simp)

/-- A word written is read back, and every other word stands. -/
theorem Store.read_write (st : Store) (a b : Addr) (v : Word) (h : st.wf = true) :
    (st.write a v).read b = if b = a then v else st.read b := by
  simp only [Store.read, Store.write, readWord_writeWord st.words none a.toNat b.toNat v h, BitVec.toNat_inj]

/-- A burst keeps the form, too. -/
theorem Store.writeAll_wf (ws : List Word) (st : Store) (a : Addr) (h : st.wf = true) : (st.writeAll a ws).wf = true := by
  induction ws generalizing st a with
  | nil => exact h
  | cons w ws ih => exact ih _ _ (st.write_wf a w h)

/-- The reset state's store has the canonical form. -/
theorem reset_store_wf : State.reset.store.wf = true := rfl

end Sys2Proof.Machine
end

