-- ==== Sys2Proof/Laws/Transfers.lean ====
section
/-! SUPPORT. What moves words in the Sample Store and what it may change: the bursts and turns of the bulk class (R175, R178) and the
recording of a capture (R102). Each keeps the canonical form of the words. -/

namespace Sys2Proof.Machine

/-! ## The fields that the Sample Store's operations leave -/

@[simp] theorem State.setChannel_words (s : State) (l : Link) (c : Option Channel) : (s.setChannel l c).store.words = s.store.words :=
  rfl

@[simp] theorem State.setWaiting_words (s : State) (l : Link) (x : Option Transfer) : (s.setWaiting l x).store.words = s.store.words :=
  rfl

@[simp] theorem State.setWaiting_waiting (s : State) (l k : Link) (x : Option Transfer) :
    (s.setWaiting l x).waiting k = if k = l then x else s.waiting k := by simp [State.setWaiting, State.waiting]

@[simp] theorem State.setWaiting_channel (s : State) (l k : Link) (x : Option Transfer) :
    (s.setWaiting l x).channel k = s.channel k := rfl

@[simp] theorem State.setChannel_waiting (s : State) (l k : Link) (c : Option Channel) :
    (s.setChannel l c).waiting k = s.waiting k := rfl

@[simp] theorem State.setWaiting_pointer (s : State) (l : Link) (x : Option Transfer) :
    (s.setWaiting l x).store.pointer = s.store.pointer := rfl

@[simp] theorem State.notice_store (s : State) (l : Link) (c : Nat) : (s.notice l c).store = s.store := by
  cases l <;> rfl

theorem State.deliver_store (s : State) (l : Link) (ws : List Word) : (s.deliver l ws).store = s.store := by
  unfold State.deliver; split <;> rfl

/-! ## Bursts and turns -/

theorem onlyChanges_deliver (s : State) (l : Link) (ws : List Word) : OnlyChanges [.links] s (s.deliver l ws) := by
  unfold State.deliver; split
  · exact onlyChanges_setLink _ _ _
  · exact .refl _ _

/-- What a burst leaves of the store: the words it writes, the pointer behind its link, no stream request standing, and the link's
channel and transfer moved on. -/
theorem State.burst_store (s : State) (l : Link) (c : Channel) (x : Transfer) (n : Nat) (hn : n = min 32 x.left) :
    (s.burst l c x).store =
      { (if c.write then s.store.writeAll c.current (x.words.take n) else s.store) with
        pointer := nextLink l, posted := List.replicate 6 none,
        channels := (if c.write then s.store.writeAll c.current (x.words.take n) else s.store).channels.set l (c.moved n),
        waiting := (if c.write then s.store.writeAll c.current (x.words.take n) else s.store).waiting.set l
          (if x.left - n = 0 then none
           else some (x.moved n (if c.write then [] else s.store.readAll c.current n))) } := by
  subst hn
  unfold State.burst
  simp only [apply_ite State.store, State.notice_store, State.deliver_store, ite_self]
  rfl

theorem Store.writeAll_fields (ws : List Word) (st : Store) (a : Addr) :
    st.writeAll a ws = { st with words := (st.writeAll a ws).words } := by
  induction ws generalizing st a with
  | nil => rfl
  | cons w ws ih => rw [Store.writeAll, ih]; rfl

theorem State.burst_wf (s : State) (l : Link) (c : Channel) (x : Transfer) (h : s.store.wf = true) :
    (s.burst l c x).store.wf = true := by
  rw [State.burst_store s l c x _ rfl]
  show Store.wf (if c.write then _ else _) = true
  split
  · exact Store.writeAll_wf _ _ _ h
  · exact h

theorem State.bulkTurn_wf (s : State) (h : s.store.wf = true) : s.bulkTurn.store.wf = true := by
  unfold State.bulkTurn
  split
  · exact h
  · split
    · exact s.burst_wf _ _ _ h
    · exact h

theorem State.bulkTurns_wf (l : Link) (n : Nat) (s : State) (h : s.store.wf = true) : (State.bulkTurns l n s).store.wf = true := by
  induction n generalizing s with
  | zero => exact h
  | succ n ih =>
    unfold State.bulkTurns
    split
    · exact ih _ (s.bulkTurn_wf h)
    · exact h

/-- The turns that a REPLY_READY waits for keep the form. -/
theorem State.moveAll_wf (s : State) (l : Link) (h : s.store.wf = true) : (s.moveAll l).store.wf = true := s.bulkTurns_wf l _ h

/-! ## Capture -/

@[simp] theorem State.riseAll_store (s : State) (c : Nat) : (s.riseAll c).store = s.store :=
  (happens_riseAll s c).blocks.2 .store (by simp)

theorem State.record_store (s : State) (w : Word) : (s.record w).store = s.store.write (s.shift.write.getD s.store.shiftFirst) w := by
  unfold State.record
  simp only
  split
  · rfl
  · split
    · rfl
    · rw [State.riseAll_store]; rfl

theorem State.record_wf (s : State) (w : Word) (h : s.store.wf = true) : (s.record w).store.wf = true := by
  rw [State.record_store]; exact s.store.write_wf _ _ h

theorem State.recordAll_wf (ws : List Word) (s : State) (h : s.store.wf = true) : (ws.foldl State.record s).store.wf = true := by
  induction ws generalizing s with
  | nil => exact h
  | cons w ws ih => exact ih _ (s.record_wf w h)

/-- A capture keeps the form. -/
theorem State.capture_wf (s : State) (offers : Offers) (h : s.store.wf = true) : (s.capture offers).store.wf = true := by
  unfold State.capture
  split
  · split
    · exact State.recordAll_wf _ _ h
    · exact h
  · exact h

end Sys2Proof.Machine
end

