-- ==== Sys2Proof/Tests/Slice0.lean ====
section
/-! SUPPORT. Our own tests: what each check of well-formedness refuses, small examples worked from the manual, and for every statement
with hypotheses a state and operands that meet them. -/

namespace Sys2Proof.Machine.Test

/-! ## Helpers -/

/-- A request that declares exactly the bytes it carries. -/
def fr (bs : List Byte) : Frame := ⟨BitVec.ofNat 8 bs.length, bs⟩

theorem fr_carries (bs : List Byte) (h : bs.length < 256 := by decide) : (fr bs).carries bs := by
  refine ⟨?_, by simp [fr]⟩
  simp [fr]; omega

/-- The hub in RUN, just entered, with nothing set. -/
def running : State :=
  ((State.reset.withStore { Store.fresh with initialising := false }).withPower
    { Power.fresh .low with state := .run }).withTunB { TunerB.fresh with state := .scan }

/-- The hub in SLEEP, its store filled. -/
def asleep : State := State.reset.withStore { Store.fresh with initialising := false }

theorem running_holds (l : Link) : running.holds l .empty := by cases l <;> rfl
theorem asleep_holds (l : Link) : asleep.holds l .empty := by cases l <;> rfl

/-- The state after a command. -/
def after (i : Instr) (s : State) : State :=
  match exec i s with
  | .next t => t
  | .fault _ | .refused _ => s

/-- What waits in a link's slot. -/
def answered (l : Link) (s : State) : Option (Status × List Byte) :=
  match (s.link l).slot with
  | .pending r => some (r.status, r.results)
  | .held _ => none

/-! ## Well-formedness refuses -/

theorem test_wf_refuses_named_code : (Instr.unknownOrder .body 16 (fr [])).wf = false := by decide
theorem test_wf_refuses_short_frame_input : (Instr.frameEvent ⟨[], [], [], []⟩).wf = false := by decide
theorem test_wf_refuses_short_microphone :
    (Instr.frameEvent ⟨List.replicate 48 (0, 0), List.replicate 48 (0, 0), List.replicate 4 [], List.replicate 2 []⟩).wf
      = false := by decide
theorem test_wf_refuses_full_null_frame : (Instr.nullFrame ⟨.rear, 2⟩).wf = false := by decide
theorem test_wf_refuses_no_gap : (Instr.frameSync 0 (.telephony 0)).wf = false := by decide
theorem test_wf_refuses_level : (Instr.tunerMeasurement .a ⟨121, 0, 0⟩).wf = false := by decide
theorem test_wf_refuses_multipath : (Instr.settleEnd .b ⟨0, 101, 0⟩).wf = false := by decide
theorem test_wf_refuses_adjacent : (Instr.afCheckMeasurement ⟨0, 0, 101⟩).wf = false := by decide
theorem test_wf_refuses_seek_measurement : (Instr.seekChannelEnd (some ⟨121, 0, 0⟩)).wf = false := by decide
theorem test_wf_refuses_sweep_measurement : (Instr.sweepChannelEnd (some ⟨0, 0, 101⟩)).wf = false := by decide
theorem test_wf_refuses_count : (Instr.dataGroup .a ⟨0, true, true, .alternates 9 0 87500 87600⟩).wf = false := by decide

/-! ## Requests spelled by their bytes (sections 12.1 and 12.2) -/

theorem test_request_claim : requestOf .body [0x10, 9, 1, 2, 3] = .claim .body ⟨9, [1, 2, 3]⟩ := by decide
theorem test_request_tune : requestOf .cockpit [0x30, 5, 0, 0, 1, 0x56, 0x04] = .tuneA .cockpit ⟨5, [0, 0, 1, 0x56, 0x04]⟩ := by
  decide
theorem test_request_store_data : requestOf .rear [0x81, 0x82] = .storeData .rear ⟨0x82, []⟩ := by decide
theorem test_request_hub_reset : requestOf .cockpit [0xB1, 0] = .hubReset .cockpit ⟨0, []⟩ := by decide
theorem test_request_unknown : requestOf .telephony [0x7F, 0] = .unknownOrder .telephony 0x7F ⟨0, []⟩ := by decide

/-! ## Examples worked in the manual -/

/-- R56's own values. -/
theorem test_gain_ends : gain (-24) = 65536 ∧ gain (-1) = 33728 ∧ gain 0 = 32768 ∧ gain 359 = 1 ∧ gain 360 = 0 := by decide

/-- R57: the rounding of a negative product, and the widest one. -/
theorem test_product_rounds : product (-16384) 1 = 0 ∧ product (-16385) 1 = -1 ∧ product (-8388608) 65536 = -16777216 := by decide

/-- Section 3.8: both contributions come to 74,341. -/
theorem test_gain_example : product 2000000 (gain 114) = 74341 ∧ product 1000000 (gain 90) = 74341 := by decide

/-- Section 3.8 and R60: the boost at 100 km/h, and on a falling segment. -/
theorem test_boost_example :
    boostAt 100 [(20, 0), (50, 4), (80, 8), (110, 12), (140, 16), (200, 24)] = 10
      ∧ boostAt 160 [(0, 0), (50, 0), (100, 10), (150, 20), (200, 10), (250, 0)] = 18
      ∧ boostAt 175 [(0, 0), (50, 0), (100, 10), (150, 20), (200, 10), (250, 0)] = 15 := by decide

/-- R16: the SUM sample of section 1.7. -/
theorem test_sum_side : Side.sum.pick (1000001, -2000000) = -500000 := by decide

/-- R68: a quality below 100, and one clamped there. -/
theorem test_quality : quality .fm ⟨30, 10, 20⟩ = 20 ∧ quality .fm ⟨70, 0, 0⟩ = 100 ∧ quality .mw ⟨30, 10, 20⟩ = 30 := by decide

/-- Section 4.2: the second row of the fading station. -/
theorem test_fading_station : smooth 60 20 = 50 ∧ separation 50 = 10 ∧ blend 10 1000000 200000 = (850000, 350000) := by decide

/-- R8: the conversion steps of P1 at 44.1 kHz and P2 at 16 kHz. -/
theorem test_steps : Rate.inputStep ⟨44100, 1⟩ = 60211 ∧ Rate.inputStep ⟨16000, 1⟩ = 21845 := by decide

/-- R102: rounding to 16 bits, and its saturation. -/
theorem test_round16 : round16 1000000 = 3906 ∧ round16 8388607 = 32767 ∧ widen 3906 = 999936 := by decide

/-- Section 6.5: the end of a window, with a ratio of 80. -/
theorem test_erle_example : erleOf 40000000000 500000000 = 19 := by decide

/-- R6: a microphone's extreme samples. -/
theorem test_mic_extremes : micSample 0 = -32768 ∧ micSample 192 = 32767 := by decide

/-- R198: power-on reads SLEEP while the store fills, and POWER is refused NOT_READY. -/
theorem test_power_while_filling : answered .cockpit (after (.power .cockpit (fr [0])) State.reset) = some (.notReady, []) := by
  decide

/-- R29: the first claim takes handle 0 and sequence number 1; its placed zones are what it is the base of. -/
theorem test_first_claim :
    answered .cockpit (after (.claim .cockpit (fr [1, 0, 0x0C, 2, 0, 0, 0, 0, 1])) running)
      = some (.done, [0, 0, 0, 0, 1, 0x0C]) := by decide

/-- R28: REAR may not claim a speaker zone. -/
theorem test_rear_claims_speakers :
    answered .rear (after (.claim .rear (fr [1, 0, 0x01, 2, 0, 0, 0, 0, 1])) running) = some (.notPermitted, []) := by decide

/-- R184: a frame with fewer bytes than it declares is a BAD_OPERAND before the link is looked at. -/
theorem test_short_frame : answered .body (after (.setVolume .body ⟨3, [1]⟩) running) = some (.badOperand, []) := by decide

/-- R184: an order that the link may not issue. -/
theorem test_not_permitted : answered .body (after (.setVolume .body (fr [1, 0, 96])) running) = some (.notPermitted, []) := by
  decide

/-- R182, R183: a request before the reply is ready is answered WAIT, whose code is 2, and discarded. -/
theorem test_wait :
    ((after (.setVolume .cockpit (fr [1, 0, 96])) (after (.setVolume .cockpit (fr [1, 0, 95])) running)).mix.volumes.getD 0 0,
      ((after (.setVolume .cockpit (fr [1, 0, 96])) (after (.setVolume .cockpit (fr [1, 0, 95])) running)).link
        .cockpit).shifted.bind fun x => x.head?) = (95, some 2) := by decide

/-- R75: a frequency off the raster. -/
theorem test_off_raster : answered .cockpit (after (.tuneA .cockpit (fr [0, 0, 1, 0x56, 0x05])) running) = some (.badOperand, []) := by
  decide

/-- R104: PAUSE while the cabin program is not TUNER_A. -/
theorem test_pause_without_tuner : answered .cockpit (after (.pause .cockpit (fr [])) running) = some (.noSuch, []) := by decide

/-- R188, R190: a watched rise is latched and read. -/
theorem test_ringing_latched :
    ((after (.callState .telephony (fr [1])) (after (.watchSet .cockpit (fr [0, 2, 0, 0])) running)).link .cockpit).riseLatch
      = 2 := by decide

/-- R175, R178: a bulk transfer has taken the words to the store once the reply is ready. -/
theorem test_store_write :
    readWord (after (.replyReady .cockpit) (after (.storeData .cockpit ⟨1, [0x12, 0x34, 0x56, 0x78]⟩)
      (running.setChannel .cockpit (some (openChannel true 2097152 8))))).store.words 2097152 = 0x12345678 := by decide

/-- R182: a select period of 3 bytes shifts out status, result length and the first result, and one of 5 a pending flag with a zero
behind it. -/
theorem test_shift_out :
    (((running.setSlot .rear (.held (.answer [7, 8]))).shiftOut .rear 3 (.answer [7, 8])).link .rear).shifted = some [0, 2, 7]
      ∧ (running.shiftOut .rear 5 (.plain .badOperand)).links.rear.shifted = some [5, 0, 0, 0, 0] := by decide

/-- R178: four links with words waiting take turns of 32 from the pointer on. -/
theorem test_round_robin :
    let s := Link.every.foldl (fun s l => (s.setChannel l (some (openChannel false 0 64))).setWaiting l (some ⟨[], 33, []⟩)) running
    ((s.moveAll .telephony).store.pointer, ((s.moveAll .telephony).waiting .cockpit), (s.moveAll .telephony).waiting .telephony,
      ((s.moveAll .telephony).waiting .body).map fun x => x.left) = (.rear, none, none, some 1) := by decide

/-- The hub filling its store, with an ignition that is high until a moment. -/
def filling (falls : Option Time) : State := State.reset.withPower (Power.fresh (.high falls))

/-- R198: an ignition that has fallen during the fill does not wake the hub, and one that has not does. -/
theorem test_ignition_fell :
    (after .storeReady (filling (some (milliseconds 40)))).power.state = .sleep
      ∧ (after .storeReady (filling (some (milliseconds 40 + 1)))).power.state = .run := by decide

/-! ## The hypotheses of the statements are met

Each theorem is named for its statement and clause, and gives a state and operands that meet that clause's hypotheses together. Where a
clause asks nothing of the state but a held reply and a frame, `running_holds` and `fr_carries` meet it. -/

theorem witness_RequestRoundTrip :
    (Instr.unknownOrder .rear 0x7F (fr [1])).wf = true
      ∧ (Instr.unknownOrder .rear 0x7F (fr [1])).request = some (0x7F, .rear, fr [1])
      ∧ (Instr.hubReset .cockpit (fr [])).wf = true
      ∧ (Instr.hubReset .cockpit (fr [])).request = some (0xB1, .cockpit, fr []) := ⟨rfl, rfl, rfl, rfl⟩

theorem witness_RefusedOrdersHaveNoEffect :
    (Instr.setVolume .body ⟨3, [1]⟩).request = some (0x21, .body, ⟨3, [1]⟩) ∧ running.holds .body .empty
      ∧ running.power.state = .run ∧ asleep.holds .body .empty ∧ (asleep.voice (0 : Fin 4).val).state = .idle
      ∧ (Instr.hubReset .cockpit (fr [])).request = some (177, .cockpit, fr []) ∧ running.waiting .rear = none :=
  ⟨rfl, rfl, rfl, rfl, rfl, rfl, rfl⟩

theorem witness_RefusedOrdersHaveNoEffect_authority :
    (Instr.setVolume .body ⟨3, [1]⟩).wf = true ∧ (Instr.setVolume .body ⟨3, [1]⟩).request = some (0x21, .body, ⟨3, [1]⟩)
      ∧ (0x21 : Byte).toNat ∈ orderCodes ∧ mayIssue (0x21 : Byte).toNat .body = false ∧ running.holds .body .empty
      ∧ ¬(⟨3, [1]⟩ : Frame).len.toNat ≤ (⟨3, [1]⟩ : Frame).bytes.length
      ∧ orderLength (0x21 : Byte).toNat = some (fr [1, 0, 96]).len.toNat :=
  ⟨rfl, rfl, by decide, by decide, rfl, by decide, by decide⟩

theorem step_idle (s : State) (h : s.pending = []) : step s = .next s.tick := by simp [step, h]

theorem running_store_wf : running.store.wf = true := rfl

theorem witness_StepKeepsStoreForm : running.store.wf = true ∧ step running = .next running.tick := ⟨rfl, rfl⟩

theorem fresh_sink {x : Sink} (h : x ∈ running.mix.sinks) : x = .fresh := List.eq_of_mem_replicate (n := 20) h

theorem witness_StepKeepsContributions : running.mix.bounded ∧ step running = .next running.tick := by
  refine ⟨fun x h => ?_, rfl⟩
  rw [fresh_sink h]
  exact ⟨by decide, fun c hc => by cases hc⟩

theorem witness_StepKeepsSampleRange : running.mix.inRange ∧ step running = .next running.tick := by
  refine ⟨fun x h => ?_, rfl⟩
  rw [fresh_sink h]
  refine ⟨fun y hy => ?_, fun y hy => ?_, fun y hy => ?_, by decide⟩
  · rw [List.eq_of_mem_replicate (n := 960) hy]; simp [inSample]
  · rw [List.eq_of_mem_replicate (n := 48) hy]; simp [inSample]
  · rw [List.eq_of_mem_replicate (n := 48) hy]; simp [inSample]

theorem no_claim {h : Nat} {c : Claim} : ¬running.table.entries[h]? = some (some c) := by
  intro k
  have := List.mem_of_getElem? k
  exact absurd (List.eq_of_mem_replicate (n := 16) this) (by simp)

theorem running_table_wf : running.table.wf :=
  ⟨rfl, by decide, fun _ _ k => absurd k no_claim, fun _ _ _ _ k => absurd k no_claim⟩

theorem witness_StepKeepsClaimTable : running.table.wf ∧ step running = .next running.tick := ⟨running_table_wf, rfl⟩

theorem witness_StepKeepsInternalClaims : running.table.wf ∧ running.claimsFollow ∧ step running = .next running.tick := by
  refine ⟨running_table_wf, ⟨rfl, by decide, ?_⟩, rfl⟩
  intro n
  match n with
  | 0 => decide
  | 1 => decide
  | 2 => decide
  | 3 => decide

/-- An entry of the Station List. -/
def entry (khz qs : Nat) (preset : Option Nat) : Entry :=
  { freq := ⟨.fm, khz⟩, qs := qs, identity := none, name := none, tp := none, alternates := [], missed := 0, preset := preset,
    rejected := none, seen := false }

/-- The hub in RUN with two stations in its list. -/
def listed : State := running.withRadio { Radio.fresh with stations := [entry 94300 60 (some 1), entry 101800 40 (some 12)] }

theorem witness_StepKeepsLists :
    stationsWf listed.radio.stations ∧ listed.advisoriesWf ∧ step listed = .next listed.tick := by
  refine ⟨⟨by decide, by simp [listed, entry, Freq.before, Radio.fresh], ?_, by simp [listed, entry, Radio.fresh]⟩,
    fun k => by cases k <;> decide, rfl⟩
  simp [listed, entry, Radio.fresh]

/-- The hub in RUN, capturing the cabin program from Tuner A. -/
def capturing : State := running.startCapture .capture .pause (some .order) .a

theorem witness_StepKeepsShiftBuffer : capturing.shiftWf ∧ step capturing = .next capturing.tick := by
  refine ⟨⟨by decide, by decide, fun h => absurd h (by decide), fun _ => ⟨by decide, by decide, ?_, ?_⟩⟩, rfl⟩
  · exact ⟨_, rfl, by decide⟩
  · exact ⟨_, rfl, by decide⟩

theorem reset_parked : State.reset.parkedWf := by
  refine ⟨fun _ => rfl, fun _ => ⟨fun x h => ?_, fun p => by cases p <;> rfl, rfl, rfl, rfl, rfl, Or.inl rfl, by decide, rfl, rfl⟩⟩
  rw [List.eq_of_mem_replicate (n := 20) h]; exact ⟨rfl, rfl⟩

theorem witness_StepKeepsParkedBlocks :
    State.reset.memoWf ∧ State.reset.parkedWf ∧ step State.reset = .next State.reset.tick
      ∧ ((running.startCapture .memoCapture .memo none .a).withTraffic
          { Traffic.fresh with announcing := true, outcome := some .captured }).memoWf :=
  ⟨⟨by decide, by decide, by decide⟩, reset_parked, rfl, by decide, by decide, by decide⟩

theorem witness_StepKeepsAssignment : running.parkedWf ∧ running.assigned ∧ step running = .next running.tick :=
  ⟨⟨fun h => absurd h (by decide), fun h => absurd rfl h⟩, fun _ => rfl, rfl⟩

/-- A claim of a link's on FRONT. -/
def frontClaim (kind : Kind) (tier : Tier) : Claim :=
  { claimant := .link .cockpit, tier := tier, kind := kind, zones := 1, source := .nav, level := some 0, duck := some 24,
    ramp := .fast, ending := false, seq := 1 }

theorem witness_StoreWordsStand :
    running.pending = [] ∧ step running = .next running.tick
      ∧ exec (.replyReady .cockpit) running = .next (running.replyReady .cockpit) ∧ ∀ k, running.waiting k = none :=
  ⟨rfl, rfl, rfl, fun k => by cases k <;> rfl⟩

theorem witness_Resolution_base :
    (ClaimTable.base ⟨[some (frontClaim .exclusive .normal)], 1⟩ .front) = some (0, frontClaim .exclusive .normal) := by decide

theorem witness_Resolution_mixed :
    (0, frontClaim .overlay .normal) ∈ ClaimTable.mixed ⟨[some (frontClaim .overlay .normal)], 1⟩ .front := by decide

theorem witness_Resolution_suppressed :
    (1, frontClaim .overlay .normal) ∈
      ClaimTable.suppressed ⟨[some (frontClaim .exclusive .urgent), some (frontClaim .overlay .normal)], 1⟩ .front := by decide

theorem witness_Resolution_program : ClaimTable.base ⟨[none], 0⟩ .front = none := by decide

theorem witness_Resolution_pause :
    capturing.shift.purpose = some .pause ∧ capturing.shift.state = .capture
      ∧ (capturing.withShift { capturing.shift with state := .replay }).shift.purpose = some .pause
      ∧ running.shift.purpose ≠ some .pause := by decide

theorem witness_GainLaw : (-24 : Int) ≤ -24 ∧ (-24 : Int) < 360 ∧ mantissas[23]? = some 16864 := by decide

/-! ### Mix Engine and Claim Table -/

theorem witness_MixSettings_program :
    running.holds .cockpit .empty ∧ (fr [2]).carries [2] ∧ sourceOf (2 : Byte).toNat = some .mediaFront
      ∧ Source.mediaFront ≠ running.mix.selected ∧ running.shift.purpose ≠ some .pause
      ∧ capturing.holds .cockpit .empty ∧ Source.mediaFront ≠ capturing.mix.selected
      ∧ capturing.shift.purpose = some .pause ∧ capturing.shift.state ≠ .off :=
  ⟨rfl, fr_carries _, rfl, by decide, by decide, rfl, by decide, rfl, by decide⟩

theorem witness_MixSettings_volumes :
    running.holds .cockpit .empty ∧ (fr (0x1F :: half 360)).carries (0x1F :: half 360)
      ∧ zoneSetOf (0x1F : Byte).toNat = some 0x1F ∧ (0x1F : ZoneSet) ≠ 0 ∧ within 0x1F speakerZones = true
      ∧ running.mix.volumes.length = 5
      ∧ (fr (19 :: half 48)).carries (19 :: half 48) ∧ (19 : Byte).toNat < 20
      ∧ (fr (34 :: half 48)).carries (34 :: half 48) ∧ 32 ≤ (34 : Byte).toNat ∧ (34 : Byte).toNat ≤ 34 :=
  ⟨rfl, fr_carries _, rfl, by decide, by decide, rfl, fr_carries _, by decide, fr_carries _, by decide, by decide⟩

/-- A sink in a delay state. -/
def delaying (d : DelayState) (fade : Nat) : State :=
  running.setSink 19 { Sink.fresh with delayState := d, fade := fade, faded := decide (fade = 360), pendingDelay := some 960 }

theorem witness_DelayAndGuard_order :
    asleep.holds .cockpit .empty ∧ (fr (19 :: half 960)).carries (19 :: half 960) ∧ (19 : Byte).toNat < 20
      ∧ asleep.power.state ≠ .run ∧ running.power.state = .run ∧ (running.sink 19).delayState = .steady
      ∧ min 960 (960 : Half).toNat ≠ (running.sink 19).delay ∧ min 960 (0 : Half).toNat = (running.sink 19).delay
      ∧ ((delaying .fadeOut 0).sink 19).delayState = .fadeOut ∧ ((delaying .fadeIn 0).sink 19).delayState = .fadeIn :=
  ⟨rfl, fr_carries _, by decide, by decide, rfl, by decide, by decide, by decide, by decide, by decide⟩

theorem witness_SpeedAndCurve :
    running.holds .body .empty ∧ (fr (half 250)).carries (half 250)
      ∧ (running.withMix { Mix.fresh with stale := false }).mix.stale = false
      ∧ (fr ([((0 : Half), (0 : Half)), (1, 48), (2, 0), (3, 0), (4, 0), (250, 48)].flatMap
          (fun p => half p.1 ++ half p.2) ++ [0x1F])).carries
          ([((0 : Half), (0 : Half)), (1, 48), (2, 0), (3, 0), (4, 0), (250, 48)].flatMap
          (fun p => half p.1 ++ half p.2) ++ [0x1F])
      ∧ within 0x1F speakerZones = true
      ∧ ([((0 : Half), (0 : Half)), (1, 48), (2, 0), (3, 0), (4, 0), (250, 48)].map
          fun p => min 250 p.1.toNat).Pairwise (· < ·) :=
  ⟨rfl, fr_carries _, rfl, fr_carries _, by decide, by decide⟩

/-- R60's example: 160 and 175 km/h on a falling segment, and both ends. -/
def falling : List (Nat × Int) := [(0, 0), (150, 20), (200, 10)]

theorem witness_SpeedAndCurve_boost :
    (falling.map Prod.fst).Pairwise (· < ·) ∧ falling = [(0, 0)] ++ (150, 20) :: (200, 10) :: [] ∧ 150 ≤ 160 ∧ 160 < 200
      ∧ falling = [(0, 0), (150, 20)] ++ [(200, 10)] ∧ (falling.drop 1 = (150, 20) :: [(200, 10)]) ∧ 149 < 150 := by decide

theorem test_boost :
    boostAt 160 falling = 18 ∧ boostAt 175 falling = 15 ∧ boostAt 250 falling = 10 ∧ boostAt 149 (falling.drop 1) = 20 := by decide

theorem witness_MixSettings_mutes :
    running.holds .rear .empty ∧ (fr [0x60]).carries [0x60] ∧ zoneSetOf (0x60 : Byte).toNat = some 0x60 ∧ (0x60 : ZoneSet) ≠ 0
      ∧ running.mix.mutes.length = 7 ∧ within 0x60 stationZones = true ∧ running.stations.lock = false
      ∧ within 0x1F speakerZones = true :=
  ⟨rfl, fr_carries _, rfl, by decide, rfl, by decide, rfl, by decide⟩

theorem witness_DelayAndGuard_events :
    16 ≤ ((running.setSink 19 { Sink.fresh with clean := 16 }).sink 19).clean
      ∧ ((delaying .fadeOut 360).sink 19).delayState = .fadeOut ∧ ((delaying .fadeOut 360).sink 19).faded = true
      ∧ ((delaying .fadeOut 360).sink 19).pendingDelay.getD 0 ≠ ((delaying .fadeOut 360).sink 19).delay
      ∧ ((delaying .fadeIn 0).sink 19).delayState = .fadeIn ∧ ((delaying .fadeIn 0).sink 19).fade = 0 := by decide

theorem witness_ClaimPosts :
    running.holds .body .empty
      ∧ (fr ([3, 1, 0x1F, 4] ++ half 0 ++ half 24 ++ [2])).carries ([3, 1, 0x1F, 4] ++ half 0 ++ half 24 ++ [2])
      ∧ tierOf (3 : Byte).toNat = some .urgent ∧ kindOf (1 : Byte).toNat = some .overlay
      ∧ zoneSetOf (0x1F : Byte).toNat = some 0x1F ∧ sourceOf (4 : Byte).toNat = some .nav ∧ rampOf (2 : Byte).toNat = some .fast
      ∧ within 0x1F speakerZones = true ∧ running.table.entries.length = 16
      ∧ (running.post 0 (frontClaim .overlay .urgent)).table.counter < seqMax
      ∧ running.claim 0 = none ∧ ∀ k, k < 0 → (running.claim k).isSome :=
  ⟨rfl, fr_carries _, rfl, rfl, rfl, rfl, rfl, by decide, rfl, by decide, rfl, fun _ h => absurd h (by omega)⟩

/-- Two claims and a retained number, with the counter at its largest. -/
def exhausted : State :=
  (((running.setClaim 2 (some { frontClaim .overlay .normal with seq := 9 })).setClaim 5
    (some { frontClaim .overlay .normal with seq := 5 })).withTraffic { Traffic.fresh with retained := some 7 }).withTable
    { (((running.setClaim 2 (some { frontClaim .overlay .normal with seq := 9 })).setClaim 5
      (some { frontClaim .overlay .normal with seq := 5 })).table) with counter := seqMax }

theorem witness_ClaimPosts_renumbering : seqMax ≤ exhausted.table.counter ∧ 0 < exhausted.table.entries.length := by decide

/-- R21: 5, 7 and 9 become 1, 2 and 3, and the claim posted takes 4. -/
theorem test_renumbering :
    let t := exhausted.post 0 (frontClaim .overlay .normal)
    (t.claim 5).map (·.seq) = some 1 ∧ t.traffic.retained = some 2 ∧ (t.claim 2).map (·.seq) = some 3
      ∧ (t.claim 0).map (·.seq) = some 4 ∧ t.table.counter = 4 := by decide

/-- The hub in RUN with a claim of COCKPIT's in handle 9. -/
def claimed : State := running.setClaim 9 (some (frontClaim .overlay .normal))

theorem witness_ReleaseAndAmend :
    claimed.holds .cockpit .empty ∧ claimed.table.counter < seqMax ∧ (9 : Byte).toNat < 10
      ∧ claimed.claim (9 : Byte).toNat = some (frontClaim .overlay .normal) ∧ (fr [9]).carries [9]
      ∧ (fr ([9] ++ half 359 ++ half 120 ++ [0])).carries ([9] ++ half 359 ++ half 120 ++ [0])
      ∧ rampOf (0 : Byte).toNat = some .slow :=
  ⟨rfl, by decide, by decide, rfl, fr_carries _, fr_carries _, rfl⟩

/-! ### Tuners -/

theorem witness_TunesAndPresets_tunes :
    listed.holds .cockpit .empty ∧ (fr (0 :: quad 108000)).carries (0 :: quad 108000) ∧ bandOf (0 : Byte).toNat = some .fm
      ∧ Freq.onRaster ⟨.fm, (108000 : Word).toNat⟩ = true ∧ listed.power.state = .run ∧ (fr [12]).carries [12]
      ∧ listed.radio.stations.find? (fun e => e.preset = some (clampNat 1 12 (12 : Byte).toNat))
          = some (entry 101800 40 (some 12)) :=
  ⟨rfl, fr_carries _, rfl, by decide, rfl, fr_carries _, by decide⟩

/-- Tuner A in a state on FM 87.5 MHz. -/
def tunerA (st : AState) : State := listed.withTunA { TunerA.fresh with state := st }

/-- Tuner A walking up from its start frequency. -/
def walking (start : Nat) : State :=
  listed.withTunA { TunerA.fresh with state := .seeking, seekDir := some .up, seekStart := some ⟨.fm, start⟩ }

theorem witness_Seeking :
    listed.holds .cockpit .empty ∧ (fr [1]).carries [1] ∧ directionOf (1 : Byte).toNat = some .down ∧ listed.power.state = .run
      ∧ (walking 87600).tunA.state = .seeking ∧ (walking 87600).tunA.seekDir = some .up
      ∧ nextChannel .up (walking 87600).tunA.rx.freq = ⟨.fm, 87600⟩
      ∧ nextChannel .up (walking 87500).tunA.rx.freq ≠ ⟨.fm, 87500⟩
      ∧ 30 ≤ quality .fm ⟨25, 0, 0⟩ ∧ quality .fm ⟨24, 0, 0⟩ < 30 :=
  ⟨rfl, fr_carries _, rfl, rfl, rfl, rfl, by decide, by decide, by decide, by decide⟩

theorem witness_Seeking_list :
    stationsWf listed.radio.stations ∧ receivable listed.radio.stations ⟨.fm, 87500⟩ ⟨.fm, 101800⟩
      ∧ (∀ y, receivable listed.radio.stations ⟨.fm, 87500⟩ y → notAfter .down 87500 101800 y.khz)
      ∧ ∀ x, ¬receivable running.radio.stations ⟨.fm, 87500⟩ x := by
  refine ⟨witness_StepKeepsLists.1, ⟨rfl, by decide, entry 101800 40 (some 12), by decide, rfl, by decide⟩, ?_, ?_⟩
  · rintro y ⟨_, _, e, he, rfl, _⟩
    simp [listed, Radio.fresh] at he
    rcases he with rfl | rfl <;> simp [notAfter, entry]
  · rintro x ⟨_, _, e, he, _⟩
    exact absurd (show e ∈ ([] : List Entry) from he) (by simp)

theorem witness_TunesAndPresets_stores :
    (tunerA .tuned).holds .cockpit .empty ∧ (fr [1]).carries [1] ∧ (tunerA .tuned).power.state = .run
      ∧ (tunerA .tuned).tunA.state ≠ .seeking ∧ (tunerA .tuned).tunA.state ≠ .afVerify
      ∧ (tunerA .tuned).radio.stations.length < 48 :=
  ⟨rfl, fr_carries _, rfl, by decide, by decide, by decide⟩

theorem witness_RadioPolicies :
    running.holds .cockpit .empty ∧ (fr [0, 1]).carries [0, 1] ∧ onOff (0 : Byte).toNat = some false
      ∧ onOff (1 : Byte).toNat = some true
      ∧ (((running.startCapture .memoCapture .memo none .a).withTraffic { Traffic.fresh with on := true }).traffic.on = true
        ∧ (running.startCapture .memoCapture .memo none .a).shift.purpose = some .memo
        ∧ (running.startCapture .memoCapture .memo none .a).shift.state ≠ .off) :=
  ⟨rfl, fr_carries _, rfl, rfl, rfl, rfl, by decide⟩

/-- Tuner B in a state, held by station 1 if that state is HELD. -/
def tunerB (st : BState) (settling : Bool) : State :=
  running.withTunB { TunerB.fresh with state := st, settling := settling, holder := if st = .held then some .one else none }

theorem witness_MeasurementSmooths :
    (tunerA .tuned).tunA.state = .tuned ∧ (tunerB .held false).tunB.state = .held
      ∧ (tunerB .held false).tunB.holder.isSome = true ∧ (tunerB .held false).tunB.settling = false
      ∧ (asleep.withTunB { TunerB.fresh with state := .refresh }).tunB.state = .refresh ∧ asleep.power.state ≠ .run := by
  decide

/-- Tuner B settling in WATCH on a station with TP, for a traffic request that stands. -/
def watching : State :=
  ((running.withTunB { TunerB.fresh with state := .watch, settling := true, rx := { Receiver.fresh with freq := ⟨.fm, 94300⟩ } }).withTraffic
    { Traffic.fresh with on := true, watch := some ⟨.fm, 94300⟩ }).withRadio
    { Radio.fresh with stations := [{ entry 94300 60 none with tp := some true }] }

theorem witness_SettleEnds :
    (tunerA .settling).tunA.state = .settling ∧ (tunerA .settling).tunA.rx.aside = true
      ∧ (tunerA .settling).tunA.report = none ∧ (tunerA .afVerify).tunA.state = .afVerify
      ∧ (tunerA .afVerify).tunA.released = false ∧ (tunerA .afVerify).tunA.rx.aside = true
      ∧ (tunerB .held true).tunB.state = .held
      ∧ (tunerB .held true).tunB.holder.isSome = true ∧ (tunerB .held true).tunB.settling = true
      ∧ (tunerB .held true).tunB.rx.aside = true ∧ watching.tunB.settling = true ∧ watching.tunB.rx.aside = true
      ∧ watching.tunB.state = .watch ∧ watching.tunB.holder = none ∧ watching.traffic.on = true
      ∧ watching.traffic.eligible = false ∧ watching.tunA.serving = false
      ∧ watching.traffic.watch = some watching.tunB.rx.freq
      ∧ watching.radio.stations.find? (fun e => e.freq = watching.tunB.rx.freq)
          = some { entry 94300 60 none with tp := some true } := by decide

/-- Tuner A checking, or verifying, 96.1 MHz. -/
def checking (st : AState) (p : CheckPhase) : State :=
  listed.withTunA
    { TunerA.fresh with state := st, phase := p, candidate := some 96100, home := some ⟨.fm, 87500⟩, saved := some .empty,
                        rx := { Receiver.fresh with freq := ⟨.fm, 101800⟩ } }

theorem witness_AlternateIsChecked :
    (checking .afCheck .prefadeCheck).tunA.state = .afCheck ∧ (checking .afCheck .prefadeCheck).tunA.candidate = some 96100
      ∧ (checking .afCheck .prefadeCheck).tunA.phase = .prefadeCheck
      ∧ (checking .afCheck .prefadeVerify).tunA.phase = .prefadeVerify ∧ (checking .afCheck .gap).tunA.phase = .gap
      ∧ (checking .afCheck .gap).tunA.rx.decoder.data.identity = none
      ∧ (checking .afCheck .gap).tunA.rx.qs + 10 ≤ quality .fm ⟨15, 0, 0⟩
      ∧ quality .fm ⟨14, 0, 0⟩ < (checking .afCheck .gap).tunA.rx.qs + 10 := by decide

/-- Tuner A verifying, or at the check measurement, with identity `i` once received by the candidate's decoder or present in it, and
identity 7 in the saved data. -/
def verifying (st : AState) (once present : Option Nat) : State :=
  (checking st .gap).withTunA
    { (checking st .gap).tunA with
      released := true
      saved := some { Decoder.empty with data := { Decoded.empty with identity := some 7 } }
      rx := { Receiver.fresh with
        decoder := { Decoder.empty with lastIdentity := once, data := { Decoded.empty with identity := present } } } }

theorem witness_VerificationEnds_gap :
    (checking .afCheck .failed).tunA.state = .afCheck ∧ (checking .afCheck .failed).tunA.phase = .failed
      ∧ (checking .afCheck .failed).tunA.saved = some .empty := ⟨rfl, rfl, rfl⟩

theorem witness_VerificationEnds_group :
    (verifying .afVerify (some 7) none).tunA.state = .afVerify ∧ (verifying .afVerify (some 7) none).tunA.released = true
      ∧ (verifying .afVerify (some 7) none).tunA.rx.freq.band = .fm
      ∧ (verifying .afVerify (some 7) none).tunA.home = some ⟨.fm, 87500⟩
      ∧ (verifying .afVerify (some 7) none).tunA.saved.map (fun d => d.data.identity) = some (some 7)
      ∧ (verifying .afVerify (some 7) none).tunA.rx.decoder.data.identity = none
      ∧ (verifying .afVerify (some 7) none).tunA.rx.decoder.lastIdentity = some (7 : Half).toNat
      ∧ (verifying .afVerify (some 8) none).tunA.rx.decoder.lastIdentity = some (8 : Half).toNat
      ∧ some 7 ≠ some (8 : Half).toNat := by decide

theorem witness_VerificationEnds_measured :
    (verifying .afCheck none (some 7)).tunA.state = .afCheck ∧ (verifying .afCheck none (some 7)).tunA.phase = .gap
      ∧ (verifying .afCheck none (some 7)).tunA.candidate = some 96100
      ∧ (verifying .afCheck none (some 7)).tunA.home = some (verifying .afCheck none (some 7)).tunA.rx.freq
      ∧ (verifying .afCheck none (some 7)).tunA.rx.decoder.data.identity = some 7
      ∧ (verifying .afCheck none (some 7)).tunA.rx.qs + 10 ≤ quality .fm ⟨15, 0, 0⟩ := by decide

/-- A rejection of a candidate with an entry, of one without, with room in the list. -/
theorem witness_VerificationEnds_rejected :
    (checking .afVerify .gap).tunA.state = .afVerify ∧ (checking .afVerify .gap).tunA.home = some ⟨.fm, 87500⟩
      ∧ (checking .afVerify .gap).tunA.saved = some .empty
      ∧ (∃ e ∈ (checking .afVerify .gap).radio.stations, e.freq = (checking .afVerify .gap).tunA.rx.freq)
      ∧ (∀ e ∈ (verifying .afVerify (some 8) none).radio.stations, e.freq ≠ (verifying .afVerify (some 8) none).tunA.rx.freq)
      ∧ (verifying .afVerify (some 8) none).radio.stations.length < 48 :=
  ⟨rfl, rfl, rfl, ⟨entry 101800 40 (some 12), by decide, rfl⟩, by decide, by decide⟩

theorem witness_StationDataDecodes :
    (tunerA .tuned).tunA.state = .tuned ∧ ((tunerA .tuned).receiver .a).freq.band = .fm
      ∧ ((tunerA .tuned).receiver .a).decoder.segments.length = 4 ∧ (tunerB .held false).tunB.state = .held
      ∧ (tunerB .held false).tunB.holder.isSome = true ∧ (tunerB .held false).tunB.settling = false
      ∧ ((tunerB .held false).receiver .b).freq.band = .fm
      ∧ ((listed.withTunA { TunerA.fresh with
          rx := { Receiver.fresh with decoder := { Decoder.empty with data := { Decoded.empty with tp := some false } } }
        }).receiver .a).decoder.data.tp.isSome = true := by decide

/-- The fourth segment of a name, the last position of an alternate list, and a change of identity. -/
theorem witness_StationDataDecodes_payloads :
    ([some (65, 66), some (67, 68), some (69, 70), none] : List (Option (Byte × Byte))).set 3 (some (71, 72))
        = [some (65, 66), some (67, 68), some (69, 70), some (71, 72)]
      ∧ none ∈ ([none, none, none, none] : List (Option (Byte × Byte))).set 3 (some (71, 72))
      ∧ ([some 87500, none] : List (Option Nat)).set 1 (some 108000) = [87500, 108000].map some
      ∧ Freq.onRaster ⟨.fm, 108000⟩ = true ∧ Freq.onRaster ⟨.fm, 108001⟩ = false
      ∧ ¬(some 7 ≠ some (7 : Half).toNat ∨ some 6 = none ∨ some 6 = some (7 : Half).toNat) := by decide

/-- An urgent claim of BODY's on every speaker zone, which leaves the RADIO claim the base of no sink. -/
def alarm : Claim := { frontClaim .exclusive .urgent with claimant := .link .body, zones := 0x1F }

/-- The hub in RUN with traffic on, tuner `u` the traffic source on FM, its TA flag as given, and the Shift Buffer in a state. -/
def served (u : TunerId) (ta : Option Bool) (st : ShiftState) : State :=
  let rx := { Receiver.fresh with
    freq := ⟨.fm, 94300⟩, decoder := { Decoder.empty with data := { Decoded.empty with tp := some true, ta := ta } } }
  let s := listed.withShift { ShiftBuffer.off with state := st, captured := some u }
  match u with
  | .a => (s.withTunA { TunerA.fresh with state := .tuned, rx := rx }).withTraffic
      { Traffic.fresh with on := true, eligible := true, source := .tuner .a }
  | .b => ((s.withTunB { TunerB.fresh with state := .watch, rx := rx }).withTraffic
      { Traffic.fresh with on := true, watch := some ⟨.fm, 94300⟩, source := .tuner .b }).withRadio
      { Radio.fresh with stations := [{ entry 94300 60 none with tp := some true }] }

theorem served_serves (u : TunerId) (ta : Option Bool) (st : ShiftState) : (served u ta st).servesTraffic u := by
  cases u
  · exact ⟨rfl, rfl, fun _ => rfl, rfl, fun _ => ⟨rfl, rfl, rfl⟩, fun h => absurd h (by decide)⟩
  · exact ⟨rfl, rfl, fun _ => ⟨rfl, rfl⟩, rfl, fun h => absurd h (by decide),
      fun _ => ⟨rfl, rfl, rfl, rfl, _, _, rfl, rfl, rfl⟩⟩

/-- An announcement from tuner `u` is in progress, with the RADIO claim on a source, of number 1, and an urgent claim over it or not. -/
def announced (u : TunerId) (st : ShiftState) (src : Source) (outcome : MemoOutcome) (top : Option Claim) : State :=
  let s := served u (some true) st
  ((s.setClaim 0 top).setClaim radioHandle (some { radioClaim src with seq := 1 })).withTraffic
    { s.traffic with announcing := true, outcome := some outcome }

/-- An announcement starts in each state of the Shift Buffer, heard or not. -/
theorem witness_StationDataDecodes_announcement (u : TunerId) (st : ShiftState) (top : Option Claim) :
    ((served u none st).setClaim 0 top).servesTraffic u ∧ ((served u none st).setClaim 0 top).table.entries.length = 16
      ∧ ((served u none st).setClaim 0 top).table.counter < seqMax
      ∧ ((served u none st).setClaim 0 top).traffic.announcing = false
      ∧ ((served u none st).setClaim 0 top).shift.state = st := by
  refine ⟨served_serves u none st, ?_⟩
  cases u <;> exact ⟨by simp [served, listed, running, State.setClaim]; rfl, (by decide : 0 < seqMax), rfl, rfl⟩

/-- An announcement that is being captured unheard ends. -/
theorem witness_StationDataDecodes_ends :
    (announced .b .memoCapture .tunerB .captured (some alarm)).servesTraffic .b
      ∧ (announced .b .memoCapture .tunerB .captured (some alarm)).claim radioHandle = some { radioClaim .tunerB with seq := 1 }
      ∧ (announced .b .memoCapture .tunerB .captured (some alarm)).traffic.source = .tuner .b
      ∧ ¬(announced .b .memoCapture .tunerB .captured (some alarm)).wouldSound 1 (· = radioHandle) := by
  refine ⟨served_serves .b (some true) .memoCapture, rfl, rfl, ?_⟩
  rintro ⟨z, hz, h⟩
  exact absurd (h 0 alarm (by decide) rfl rfl ((by decide : ∀ z ∈ memoZones, hasZone alarm.zones z = true) z hz)).1 (by decide)

/-- A held memo is added to, by an announcement that a claim of higher tier leaves unheard. -/
theorem test_announcement_joins_held_memo :
    let s := (served .a none .memoHeld).setClaim 0 (some alarm)
    let t := after (.dataGroup .a ⟨7, true, true, .name 0 65 66⟩) s
    s.table.basedZones radioHandle = 0 ∧ t.shift.state = .memoCapture
      ∧ t.claim radioHandle = some { radioClaim .tunerA with seq := 1 } := by decide

theorem witness_ClaimPosts_memo :
    (announced .a .off .tunerA .none none).traffic.announcing = true
      ∧ (announced .a .off .tunerA .none none).traffic.source = .tuner .a
      ∧ (announced .a .off .tunerA .none none).traffic.outcome = some .none
      ∧ (announced .a .off .tunerA .none none).claim radioHandle = some { radioClaim .tunerA with seq := 1 }
      ∧ (announced .a .off .tunerA .none (some alarm)).table.basedZones radioHandle = 0
      ∧ (announced .a .off .tunerA .none none).table.basedZones radioHandle ≠ 0 := by decide

/-- A release of handle 0 frees the zones of a memo that is captured, or held with number 1. -/
theorem witness_ReleaseAndAmend_memo :
    (announced .a .memoCapture .tunerA .captured (some alarm)).claim 0 = some alarm
      ∧ (announced .a .memoCapture .tunerA .captured (some alarm)).traffic.announcing = true
      ∧ (announced .a .memoCapture .tunerA .captured none).table.basedZones radioHandle ≠ 0
      ∧ ((served .a none .memoHeld).setClaim 0 (some alarm)).wouldSound 1 (· = 0) := by
  refine ⟨by decide, by decide, by decide, .front, by decide, fun k d hk hd _ _ => ?_⟩
  have h : ((served .a none .memoHeld).setClaim 0 (some alarm)).table.entries = some alarm :: List.replicate 15 none := by decide
  obtain _ | k := k
  · exact absurd rfl hk
  · rw [State.claim, h, List.getD_cons_succ, List.getD_eq_getElem?_getD, List.getElem?_replicate] at hd
    split at hd <;> cases hd

theorem witness_TunesAndPresets_retunes :
    (served .a none .capture).traffic.eligible = true ∧ (served .a none .capture).shift.captured = some .a
      ∧ (served .a none .capture).shift.state ≠ .off ∧ (served .a none .capture).memoWf
      ∧ (announced .a .off .tunerA .none none).traffic.announcing = true ∧ (announced .a .off .tunerA .none none).memoWf
      ∧ (announced .a .off .tunerA .none none).traffic.source = .tuner .a
      ∧ (announced .a .off .tunerA .none none).claim radioHandle = some { radioClaim .tunerA with seq := 1 } :=
  ⟨rfl, rfl, by decide, ⟨by decide, by decide, by decide⟩, rfl, ⟨by decide, by decide, by decide⟩, rfl, rfl⟩

theorem witness_RadioPolicies_watch :
    listed.traffic.watch = none ∧ listed.traffic.eligible = false ∧ listed.tunA.serving = false ∧ listed.tunB.holder = none
      ∧ (∀ e ∈ listed.radio.stations, e.freq.band = .fm → e.tp ≠ some true)
      ∧ watchedEntry [entry 94300 60 none, { entry 95000 50 none with tp := some true }, { entry 96000 50 none with tp := some true }]
          { entry 95000 50 none with tp := some true } := by
  refine ⟨rfl, rfl, by decide, rfl, by decide, [entry 94300 60 none], [{ entry 96000 50 none with tp := some true }], rfl, rfl,
    rfl, ?_, ?_⟩
  · intro x hx; simp at hx; subst hx; decide
  · intro x hx; simp at hx; subst hx; decide

/-- The watch goes to the entry of highest Qs with TP set, the first of equals (R98), and Tuner B follows (R85). -/
theorem test_watch_choice :
    let s := listed.withRadio { Radio.fresh with
      stations := [entry 94300 60 none, { entry 95000 50 none with tp := some true }, { entry 96000 50 none with tp := some true }] }
    let t := after (.trafficMode .cockpit (fr [1, 0])) s
    t.traffic.watch = some ⟨.fm, 95000⟩ ∧ t.tunB.state = .watch ∧ t.tunB.rx.freq = ⟨.fm, 95000⟩ := by decide

theorem witness_RadioPolicies_memo :
    (announced .a .off .tunerA .none (some alarm)).servesTraffic .a
      ∧ (announced .a .off .tunerA .none (some alarm)).tunA.rx.decoder.data.ta = some true
      ∧ (announced .a .off .tunerA .none (some alarm)).traffic.memo = false
      ∧ (announced .a .off .tunerA .none (some alarm)).table.basedZones radioHandle = 0 :=
  ⟨served_serves .a (some true) .off, rfl, rfl, by decide⟩

/-- Tuner A with identity 7 at a low count, its programme on two further frequencies of the list and on an alternate. -/
def fading (low : Nat) (cursor : Option Nat) (b : BState) : State :=
  let d := { Decoded.empty with identity := some 7, alternates := some [88000] }
  ((listed.withTunA { TunerA.fresh with
      state := .tuned, low := low, cursor := cursor,
      rx := { Receiver.fresh with
        freq := ⟨.fm, 94300⟩, aside := false, qs := 20, decoder := { Decoder.empty with data := d } } }).withRadio
    { Radio.fresh with stations := [{ entry 95000 60 none with identity := some 7 }, { entry 96000 70 none with identity := some 7 },
                                    { entry 97000 80 none with identity := some 8 }] }).withTunB { TunerB.fresh with state := b }

theorem witness_MeasurementSmooths_switch :
    (fading 7 none .scan).tunA.state = .tuned ∧ (fading 7 none .scan).tunA.rx.freq.band = .fm ∧ (fading 7 none .scan).radio.afOn = true
      ∧ 7 ≤ (fading 7 none .scan).tunA.low ∧ (fading 7 none .scan).tunA.rx.decoder.data.identity.isSome = true
      ∧ stationsWf (fading 7 none .scan).radio.stations ∧ (fading 7 none .scan).switchable 96000
      ∧ (fading 7 none .scan).switchable 88000 ∧ ¬(fading 7 none .scan).switchable 97000
      ∧ (fading 7 none .scan).shift.running = false := by
  refine ⟨rfl, rfl, rfl, by decide, rfl, ?_, ?_, ?_, ?_, rfl⟩ <;>
    simp [fading, stationsWf, State.switchable, entry, Freq.before, Decoded.empty, Radio.fresh]

/-- R90: the best entry while Tuner B scans; otherwise the candidate after the cursor, or the lowest. -/
theorem test_candidate_choice :
    (after (.tunerMeasurement .a ⟨0, 0, 0⟩) (fading 7 none .scan)).tunA.candidate = some 96000
      ∧ (after (.tunerMeasurement .a ⟨0, 0, 0⟩) (fading 7 none .held)).tunA.candidate = some 88000
      ∧ (after (.tunerMeasurement .a ⟨0, 0, 0⟩) (fading 7 (some 88000) .held)).tunA.candidate = some 95000
      ∧ (after (.tunerMeasurement .a ⟨0, 0, 0⟩) (fading 7 (some 96000) .held)).tunA.candidate = some 88000 := by decide

/-- Tuner B in a sweep of RUN at a channel. -/
def sweeping (b : Band) (khz qs : Nat) (dwell : Bool) : State :=
  listed.withTunB { TunerB.fresh with state := .scan, dwell := dwell,
                                      rx := { Receiver.fresh with freq := ⟨b, khz⟩, qs := qs, aside := false } }

theorem witness_SweepAndRejections :
    (sweeping .fm 108000 25 false).tunB.state = .scan ∧ (sweeping .fm 108000 25 false).power.state = .run
      ∧ (sweeping .fm 108000 25 false).tunB.holder = none ∧ (sweeping .fm 108000 25 false).radio.scan = true
      ∧ (sweeping .fm 108000 25 false).traffic.on = false ∧ (sweeping .fm 108000 25 false).tunB.dwell = false
      ∧ (sweeping .fm 108000 25 false).tunB.rx.freq.band = .fm ∧ 25 ≤ (sweeping .fm 108000 25 false).tunB.rx.qs
      ∧ (sweeping .fm 108000 25 true).tunB.dwell = true ∧ sweepNext (sweeping .fm 108000 25 true).tunB.rx.freq = some ⟨.mw, 531⟩
      ∧ (sweeping .mw 1602 24 false).tunB.rx.freq.band = .mw ∧ sweepNext (sweeping .mw 1602 24 false).tunB.rx.freq = none
      ∧ (asleep.withTunB { TunerB.fresh with state := .refresh }).tunB.state = .refresh ∧ asleep.power.state ≠ .run := by
  decide

/-- The last channel of a sweep with an entry that has missed two sweeps, and channels with and without an entry. -/
theorem witness_SweepAndRejections_update :
    ((sweeping .fm 94300 25 true).radio.stations.find? fun e => e.freq = (sweeping .fm 94300 25 true).tunB.rx.freq)
        = some (entry 94300 60 (some 1))
      ∧ (∀ e ∈ (sweeping .mw 1602 25 false).radio.stations, e.freq ≠ (sweeping .mw 1602 25 false).tunB.rx.freq)
      ∧ (sweeping .mw 1602 25 false).radio.stations.length < 48
      ∧ agedList (fun e => e.preset.isSome)
          [{ entry 94300 60 none with missed := 2 }, { entry 96100 30 (some 1) with missed := 3 }, entry 98000 9 none]
        = [{ entry 96100 30 (some 1) with missed := 3 }, { entry 98000 9 none with missed := 1 }] := by decide

/-! ### Traffic and the Shift Buffer -/

/-- The hub in RUN with TUNER_A selected. -/
def radioOn : State := running.withMix { Mix.fresh with selected := .tunerA }

/-- The hub in RUN with the Shift Buffer in a replay that has run dry. -/
def dry (st : ShiftState) : State := capturing.withShift { capturing.shift with state := st, running := false, drained := true }

theorem witness_PauseAndTraffic_orders :
    radioOn.holds .cockpit .empty ∧ (fr []).carries [] ∧ radioOn.power.state = .run ∧ radioOn.shift.state = .off
      ∧ radioOn.mix.selected = .tunerA ∧ radioOn.store.shiftSize ≠ 0 ∧ (dry .replay).holds .cockpit .empty
      ∧ (dry .replay).power.state = .run ∧ (dry .replay).shift.state = .replay ∧ capturing.holds .cockpit .empty
      ∧ capturing.shift.state = .capture :=
  ⟨rfl, fr_carries _, rfl, rfl, rfl, by decide, rfl, rfl, rfl, rfl, rfl⟩

theorem witness_PauseAndTraffic_events :
    (running.withTraffic { Traffic.fresh with holdAt := some 5 }).traffic.holdAt = some 5
      ∧ (running.withTraffic { Traffic.fresh with holdAt := some 5 }).tunA.serving = false
      ∧ (dry .replay).shift.state = .replay ∧ (dry .replay).shift.drained = true ∧ (dry .replay).shift.fill = 0
      ∧ (dry .memoReplay).shift.state = .memoReplay ∧ (dry .memoReplay).shift.running = false
      ∧ (dry .memoReplay).shift.drained = true ∧ (dry .memoReplay).shift.fill = 0 := by decide

/-! ### The call -/

theorem witness_CallStateEnters :
    running.holds .telephony .empty ∧ (fr [2]).carries [2] ∧ callOf (2 : Byte).toNat = some .active
      ∧ CallPhase.active ≠ running.call.state ∧ running.table.entries.length = 16 ∧ ¬running.call.state ≠ .idle
      ∧ asleep.holds .telephony .empty ∧ (fr [1]).carries [1] ∧ callOf (1 : Byte).toNat = some .ringing
      ∧ asleep.power.state ≠ .run ∧ asleep.power.wakeCall = true ∧ asleep.store.initialising = false :=
  ⟨rfl, fr_carries _, rfl, by decide, rfl, by decide, rfl, fr_carries _, rfl, by decide, rfl, rfl⟩

/-- TUNER_A plays, pause-on-call is on and no announcement is in progress; and a pause that a call began, ending with the call. -/
theorem witness_CallStateEnters_pause :
    let s := radioOn.withTraffic { Traffic.fresh with pauseOnCall := true }
    let u := (radioOn.startCapture .capture .pause (some .call) .a).withCall { Call.fresh with state := .active }
    (s.traffic.pauseOnCall = true ∧ s.power.state = .run ∧ s.shift.state = .off ∧ s.mix.selected = .tunerA ∧ s.store.shiftSize ≠ 0)
      ∧ s.traffic.announcing = false ∧ s.table.counter + 8 < seqMax ∧ u.shift.state = .capture ∧ u.shift.cause = some .call
      ∧ u.traffic.autoResume = true ∧ callOf (0 : Byte).toNat = some .idle ∧ CallPhase.idle ≠ u.call.state := by decide

/-- R108: the call's pause, and its end. -/
theorem test_pause_on_call :
    let s := radioOn.withTraffic { Traffic.fresh with pauseOnCall := true }
    let t := after (.callState .telephony (fr [2])) s
    let u := after (.replyReady .telephony) t
    t.shift.state = .capture ∧ t.shift.cause = some .call
      ∧ (after (.callState .telephony (fr [0])) u).shift.state = .replay := by decide

/-- An announcement on a call's zones that memo is on for. -/
theorem witness_CallStateEnters_memo :
    let s := announced .a .off .tunerA .none (some alarm)
    let t := s.withTraffic { s.traffic with memo := true }
    t.traffic.announcing = true ∧ t.traffic.memo = true ∧ t.traffic.outcome = some .none ∧ t.traffic.source = .tuner .a
      ∧ t.claim radioHandle = some { radioClaim .tunerA with seq := 1 }
      ∧ (after (.callState .telephony (fr [2])) t).table.basedZones radioHandle = 0 := by decide

theorem witness_CallPlacedAndMicSelected :
    running.holds .telephony .empty ∧ (fr [1]).carries [1] ∧ placementOf (1 : Byte).toNat = some .driver
      ∧ Placement.driver ≠ running.call.placement
      ∧ ((running.setStation .two { Station.fresh true with jack := .headset }).station .two).jack ≠ .vacant
      ∧ ((running.setStation .two { Station.fresh true with jack := .headset }).station .two).jack ≠ .short
      ∧ running.table.counter < seqMax ∧ (fr [4]).carries [4] ∧ micModeOf (4 : Byte).toNat = some .conference
      ∧ MicMode.conference ≠ running.call.mode :=
  ⟨rfl, fr_carries _, rfl, by decide, by decide, by decide, by decide, fr_carries _, rfl, by decide⟩

theorem witness_CallPlacedAndMicSelected_line1 :
    ((running.setStation .two { Station.fresh true with jack := .headset }).withCall
        { Call.fresh with placement := .station .two, mic := .jack .two }).micFollows
      ∧ running.micFollows := by
  refine ⟨⟨fun st h _ => ?_, fun h => absurd (h .two rfl) (by decide)⟩, ⟨fun st h => (by cases h), fun _ => ?_⟩⟩
  · cases h; rfl
  · exact ⟨fun _ => rfl, fun h => (by cases h), fun h => (by cases h), fun h => (by cases h), fun h => (by cases h)⟩

theorem witness_CallAndStationSettings_plain :
    running.holds .telephony .empty ∧ (fr []).carries [] ∧ (fr (half 360)).carries (half 360) ∧ running.holds .cockpit .empty
      ∧ (fr (half 120)).carries (half 120) ∧ (fr [1]).carries [1] ∧ onOff (1 : Byte).toNat = some true :=
  ⟨rfl, fr_carries _, fr_carries _, rfl, fr_carries _, fr_carries _, rfl⟩

/-- A call whose canceller has a full window. -/
def windowed (st : EchoState) (active : Nat) (mic err : Int) : State :=
  running.withEcho { Canceller.off with state := st, count := 8000, active := active, sumMic := mic, sumErr := err }

theorem witness_WindowJudgement :
    8000 ≤ (windowed .diverged 0 0 0).call.echo.count ∧ (windowed .diverged 0 0 0).call.echo.state = .diverged
      ∧ (windowed .converging 3999 0 0).call.echo.active < 4000
      ∧ 4000 ≤ (windowed .converging 4000 1 3).call.echo.active
      ∧ 2 * (windowed .converging 4000 1 3).call.echo.sumMic < (windowed .converging 4000 1 3).call.echo.sumErr
      ∧ (windowed .converged 4000 1 2).call.echo.sumErr ≤ 2 * (windowed .converged 4000 1 2).call.echo.sumMic
      ∧ (windowed .converged 4000 1 2).call.echo.state = .converged := by decide

theorem witness_WindowJudgement_edges :
    (windowed .converging 4000 1 0).call.echo.state ≠ .converged
      ∧ (windowed .converging 4000 1 0).call.echo.judge.state = .converged
      ∧ (windowed .converged 4000 1 3).call.echo.state = .converged
      ∧ (windowed .converged 4000 1 3).call.echo.judge.state ≠ .converged := by decide

theorem witness_WindowJudgement_erle :
    Erle (windowed .converging 4000 1000000 1).call.echo.sumMic (windowed .converging 4000 1000000 1).call.echo.sumErr 60
      ∧ Erle (windowed .converged 4000 1 0).call.echo.sumMic (windowed .converged 4000 1 0).call.echo.sumErr 60 :=
  ⟨.inr ⟨by decide, by decide, by decide, by decide, fun j h k => by omega⟩, .inl ⟨rfl, rfl⟩⟩

/-- R131: 10·log10 of 63 is 17.99, of 64 it is 18.06, and of a half -3.01. -/
theorem test_erle : erleOf 63 1 = 17 ∧ erleOf 64 1 = 18 ∧ erleOf 1 2 = -4 := by decide

/-! ### Rear stations -/

theorem witness_CallAndStationSettings_source :
    running.holds .rear .empty ∧ running.stations.lock = false ∧ stationOf (2 : Byte).toNat = some .two
      ∧ (fr [2, 11]).carries [2, 11] ∧ sourceOf (11 : Byte).toNat = some .silence
      ∧ Source.silence ≠ (running.station .two).source ∧ running.tunB.holder ≠ some .two
      ∧ (tunerB .held false).tunB.holder = some .one ∧ ((tunerB .held false).station .two).source ≠ .tunerB
      ∧ (((tunerB .held false).setStation .two { Station.fresh false with source := .tunerB }).station .two).source = .tunerB
      ∧ (fr (2 :: half 360)).carries (2 :: half 360) ∧ (fr [2, 1]).carries [2, 1] ∧ onOff (1 : Byte).toNat = some true :=
  ⟨rfl, rfl, rfl, fr_carries _, rfl, by decide, by decide, rfl, by decide, rfl, fr_carries _, fr_carries _, rfl⟩

/-- Station 1 on TUNER_B, its grace timer running. -/
def listening (st : BState) : State :=
  (tunerB st false).setStation .one { Station.fresh false with source := .tunerB, graceAt := some 7 }

theorem witness_TunerBHolding :
    (listening .scan).holds .rear .empty ∧ (fr ([1, 1] ++ quad 1602)).carries ([1, 1] ++ quad 1602)
      ∧ stationOf (1 : Byte).toNat = some .one ∧ bandOf (1 : Byte).toNat = some .mw
      ∧ Freq.onRaster ⟨.mw, (1602 : Word).toNat⟩ = true ∧ ((listening .scan).station .one).source = .tunerB
      ∧ (listening .scan).tunB.state = .scan ∧ (listening .idle).tunB.state = .idle ∧ (listening .watch).tunB.state = .watch
      ∧ (listening .held).tunB.state = .held ∧ (listening .held).tunB.holder = some .one
      ∧ ((listening .held).station .one).graceAt = some 7 ∧ ((listening .held).station .two).source ≠ .tunerB :=
  ⟨rfl, fr_carries _, rfl, rfl, by decide, rfl, rfl, rfl, rfl, rfl, rfl, rfl, by decide⟩

/-- R148: the new holder's grace timer starts, its plug being out, and the former holder's stops. -/
theorem test_handover_grace :
    let s := (listening .held).setStation .two { Station.fresh false with source := .tunerB }
    let t := after (.stationSource .rear (fr [1, 11])) s
    (t.station .one).graceAt = none ∧ (t.station .two).graceAt = some s.clock.now := by decide

/-- Station 2 with its plug in, measuring or not. -/
def plugged (measuring : Bool) : State :=
  running.setStation .two { Station.fresh true with measuring := measuring, jack := .headset }

theorem witness_JackMonitor :
    (plugged false).holds .rear .empty ∧ (fr [2]).carries [2] ∧ stationOf (2 : Byte).toNat = some .two
      ∧ ((plugged false).station .two).inserted = true ∧ ((plugged false).station .two).measuring = false
      ∧ (running.station .two).inserted = false ∧ (asleep.station .two).inserted = false ∧ asleep.power.wakeJack = true
      ∧ asleep.power.state ≠ .run ∧ asleep.store.initialising = false
      ∧ ((plugged false).withCall { Call.fresh with placement := .station .two }).call.placement = .station .two
      ∧ ((plugged false).station .two).jack ≠ .vacant ∧ (plugged false).call.placement ≠ .station .two
      ∧ ((plugged true).station .two).measuring = true :=
  ⟨rfl, fr_carries _, rfl, rfl, rfl, rfl, rfl, rfl, by decide, rfl, rfl, by decide, by decide, rfl⟩

/-- A call in progress placed at station 2, whose measurement completes as SHORT, or as LINE. -/
theorem witness_JackMonitor_fallback :
    ((plugged true).withCall { Call.fresh with state := .ringing, placement := .station .two }).call.state ≠ .idle
      ∧ ((plugged true).station .two).jack ≠ .short ∧ min 65535 (min 3 65536) ≤ 3 ∧ 4 ≤ min 65535 (min 65536 1000) := by decide

/-! ### Chimes -/

/-- A sound of 480,000 samples at the start of CHIME. -/
def sound (mode : RepeatMode) (priority : Nat) : Descriptor :=
  { valid := true, start := 0, length := 480000, mode := mode, gap := 5000, priority := priority, zones := 1, level := 0,
    duck := 48, definer := .body }

theorem witness_ChimeTable :
    running.holds .body .empty
      ∧ (fr ([31] ++ quad 0 ++ quad 480000 ++ [3] ++ half 255 ++ half 5000 ++ [7, 0x1F] ++ half 0 ++ half 120)).carries
          ([31] ++ quad 0 ++ quad 480000 ++ [3] ++ half 255 ++ half 5000 ++ [7, 0x1F] ++ half 0 ++ half 120)
      ∧ repeatOf (3 : Byte).toNat (255 : Half).toNat = some (.chain none) ∧ zoneSetOf (0x1F : Byte).toNat = some 0x1F
      ∧ within 0x1F speakerZones = true ∧ (480000 : Word).toNat ≤ 480000 ∧ running.store.initialising = false
      ∧ running.mayPlay .body .chime (0 : Word).toNat (480000 : Word).toNat ∧ running.chime.inUse 31 = false
      ∧ (fr [0, 31]).carries [0, 31] ∧ (fr [1, 3]).carries [1, 3] :=
  ⟨rfl, fr_carries _, rfl, rfl, by decide, by decide, rfl, ⟨by decide, by decide, by decide, rfl, by decide⟩, by decide,
    fr_carries _, fr_carries _⟩

/-- The hub in RUN, or asleep, with descriptor 31 on a sound, the four voices in one state with another descriptor, and a queue. -/
def chiming (base : State) (mode : RepeatMode) (priority : Nat) (st : VoiceState) (d number : Nat) (queue : List Request) : State :=
  base.withChime { Chime.fresh with
    descs := (List.replicate 32 none).set 31 (some (sound mode priority)) |>.set 30 (some (sound .once 3)),
    voices := (List.replicate 4 { Voice.fresh with state := st, desc := if st = .idle then none else some d,
                                                   starter := if st = .idle then none else some .body }).set 2
                { Voice.fresh with state := st, desc := if st = .idle then none else some d,
                                   starter := if st = .idle then none else some .cockpit, number := number },
    queue := queue }

theorem chiming_mayPlay (base : State) (m : RepeatMode) (p : Nat) (st : VoiceState) (d k : Nat) (q : List Request)
    (h : base.store = running.store) : (chiming base m p st d k q).mayPlay .body .chime 0 480000 := by
  have e : (chiming base m p st d k q).store = running.store := h
  unfold State.mayPlay
  rw [e]
  exact ⟨by decide, by decide, by decide, rfl, by decide⟩

theorem witness_ChimeStarts_checks :
    (chiming running .once 0 .idle 0 0 []).holds .body .empty ∧ (fr [31]).carries [31] ∧ (31 : Byte).toNat ≤ 31
      ∧ (chiming running .once 0 .idle 0 0 []).desc 31 = some (sound .once 0) ∧ (sound .once 0).valid = true
      ∧ 1 ≤ (sound .once 0).length
      ∧ (chiming running .once 0 .idle 0 0 []).mayPlay .body .chime (sound .once 0).start.toNat (sound .once 0).length
      ∧ (chiming running .once 0 .idle 0 0 []).store.initialising = false
      ∧ (chiming running .once 0 .idle 0 0 []).chime.voices.length = 4
      ∧ (chiming running .once 0 .idle 0 0 []).table.entries.length = 16
      ∧ (chiming running .once 0 .idle 0 0 []).chime.counter < seqMax
      ∧ (chiming running .once 0 .idle 0 0 []).table.counter + 1 < seqMax :=
  ⟨rfl, fr_carries _, by decide, rfl, rfl, by decide, chiming_mayPlay _ _ _ _ _ _ _ rfl, rfl, rfl, rfl, by decide, by decide⟩

theorem witness_ChimeStarts_running : ((chiming running .once 0 .playing 31 0 []).voice 2).plays 31 = true := by decide

theorem witness_ChimeStarts_requested :
    (∀ n : Fin 4, ((chiming running .once 0 .playing 30 0 [⟨31, .body⟩]).voice n.val).plays 31 = false)
      ∧ ∃ q ∈ (chiming running .once 0 .playing 30 0 [⟨31, .body⟩]).chime.queue, q.desc = 31 :=
  ⟨by decide, ⟨31, .body⟩, by decide, rfl⟩

theorem witness_ChimeStarts_idle :
    ((chiming running .once 0 .idle 0 0 []).voice (0 : Fin 4).val).state = .idle
      ∧ ∀ m : Fin 4, m < 0 → ((chiming running .once 0 .idle 0 0 []).voice m.val).state ≠ .idle := by decide

theorem witness_ChimeStarts_preempts :
    (∀ n : Fin 4, ((chiming running .once 4 .playing 30 0 []).voice n.val).state ≠ .idle)
      ∧ ((chiming running .once 4 .playing 30 0 []).voice 2).state = .playing
      ∧ (chiming running .once 4 .playing 30 0 []).voicePriority ((chiming running .once 4 .playing 30 0 []).voice 2) < 4 := by
  decide

theorem witness_ChimeStarts_queued :
    (∀ n : Fin 4, 3 ≤ (chiming running .once 3 .playing 30 0 []).voicePriority
        ((chiming running .once 3 .playing 30 0 []).voice n.val))
      ∧ (chiming running .once 3 .playing 30 0 [⟨30, .body⟩, ⟨30, .body⟩, ⟨30, .body⟩]).chime.queue.length < 4
      ∧ 4 ≤ (chiming running .once 3 .playing 30 0
          [⟨30, .body⟩, ⟨30, .body⟩, ⟨30, .body⟩, ⟨30, .body⟩]).chime.queue.length := by decide

theorem witness_ChimeStarts_wakes :
    (chiming asleep .once 0 .idle 0 0 []).power.state ≠ .run ∧ (chiming asleep .once 0 .idle 0 0 []).power.wakeChime = true
      ∧ (chiming asleep .once 0 .idle 0 0 []).chime.queue = []
      ∧ ∀ n : Fin 4, ((chiming asleep .once 0 .idle 0 0 []).voice n.val).state = .idle
          ∧ ((chiming asleep .once 0 .idle 0 0 []).voice n.val).successor = none := by decide

theorem witness_ChimesStopAndRenew :
    (chiming running (.untilStop 5000) 3 .gap 31 0 []).holds .body .empty ∧ (fr [31]).carries [31] ∧ (fr []).carries []
      ∧ (chiming running (.untilStop 5000) 3 .gap 31 0 []).chime.voices.length = 4
      ∧ (chiming running (.untilStop 5000) 3 .gap 31 0 []).chime.inUse 31 = true
      ∧ (chiming running (.untilStop 5000) 3 .gap 31 0 []).desc 31 = some (sound (.untilStop 5000) 3)
      ∧ ((chiming running (.untilStop 5000) 3 .gap 31 0 []).voice 2).plays 31 = true :=
  ⟨rfl, fr_carries _, fr_carries _, rfl, by decide, rfl, by decide⟩

/-- Two voices of descriptor 31 about to be taken over, one queue entry, all of them BODY's, which watches CHIME_ENDED. -/
def awaited : State :=
  let s := chiming running .once 3 .stopping 31 0 [⟨30, .body⟩]
  ((s.setVoice 1 { s.voice 1 with successor := some ⟨29, .body⟩ }).setVoice 2 { s.voice 2 with successor := some ⟨30, .body⟩ }).setLink
    .body { s.link .body with riseEnable := 0x4000 }

theorem witness_ChimesStopAndRenew_told :
    awaited.holds .body .empty ∧ awaited.chime.voices.length = 4 ∧ awaited.chime.inUse 30 = true
      ∧ (awaited.voice 2).successor = some ⟨30, .body⟩ ∧ (⟨30, .body⟩ : Request) ∈ awaited.chime.queue
      ∧ (awaited.voice 3).successor = none ∧ (awaited.link .body).riseEnable.getLsbD 14 = true
      ∧ (chiming running .once 3 .stopping 31 0 [⟨30, .body⟩]).chime.queue = [] ++ ⟨30, .body⟩ :: [] :=
  ⟨rfl, rfl, by decide, rfl, by decide, rfl, by decide, rfl⟩

/-- R165: the reservation of the higher voice is BODY's last ended, and CHIME_ENDED is latched. -/
theorem test_stop_all_told :
    (after (.chimeStopAll .cockpit (fr [])) awaited).chime.ended.get .body = some ⟨30, none, .stopped⟩
      ∧ ((after (.chimeStopAll .cockpit (fr [])) awaited).link .body).riseLatch = 0x4000 := by decide

/-- Voice 2 with descriptor 31 at a boundary. -/
def atEnd (mode : RepeatMode) (v : Voice) : State :=
  (chiming running mode 3 .idle 0 0 []).setVoice 2 { v with desc := some 31, starter := some .body }

theorem witness_VoiceEvents_ends :
    ((atEnd .once { Voice.fresh with state := .playing, repeats := some 0 }).voice 2).remaining = 0
      ∧ ((atEnd .once { Voice.fresh with state := .playing, repeats := some 0 }).voice 2).restart = false
      ∧ (atEnd .once { Voice.fresh with state := .playing, repeats := some 0 }).desc 31 = some (sound .once 3)
      ∧ (atEnd .once Voice.fresh).chime.voices.length = 4 ∧ (atEnd .once Voice.fresh).table.entries.length = 16
      ∧ (atEnd .once Voice.fresh).table.counter < seqMax ∧ (atEnd .once Voice.fresh).chime.counter < seqMax := by decide

theorem witness_VoiceEvents_again :
    ((atEnd (.count 255) { Voice.fresh with state := .playing, repeats := some 254 }).voice 2).repeats = some (253 + 1)
      ∧ ((atEnd (.count 255) { Voice.fresh with state := .playing, restart := true }).voice 2).restart = true := by decide

theorem witness_VoiceEvents_chain :
    ((atEnd (.chain (some 31)) { Voice.fresh with state := .playing, repeats := some 0 }).voice 2).starter = some .body
      ∧ (atEnd (.chain (some 29)) { Voice.fresh with state := .playing, repeats := some 0 }).playable 29 .body = none
      ∧ (atEnd (.chain (some 31)) { Voice.fresh with state := .playing, repeats := some 0 }).playable 31 .body
          = some (sound (.chain (some 31)) 3) := by decide

theorem witness_VoiceEvents_gap :
    ((atEnd .once { Voice.fresh with state := .gap, gapLeft := 0 }).voice 2).state = .gap
      ∧ ((atEnd .once { Voice.fresh with state := .gap, gapLeft := 0 }).voice 2).gapLeft = 0
      ∧ ((atEnd (.untilStop 100) { Voice.fresh with state := .gap, deadline := some 3 }).voice 2).deadline = some 3
      ∧ ((atEnd (.untilStop 100) { Voice.fresh with state := .gap, deadline := some 3 }).voice 2).state = .gap := by decide

theorem witness_VoiceEvents_idle :
    ((atEnd .once { Voice.fresh with state := .stopping, faded := true, cause := some .stopped }).voice 2).faded = true
      ∧ ((atEnd .once { Voice.fresh with state := .stopping, faded := true, cause := some .stopped }).voice 2).successor = none
      ∧ (atEnd .once { Voice.fresh with state := .stopping, faded := true, cause := some .stopped }).chime.queue = []
      ∧ ((atEnd .once { Voice.fresh with state := .stopping, faded := true, successor := some ⟨31, .body⟩ }).voice 2).successor
          = some ⟨31, .body⟩
      ∧ (atEnd .once { Voice.fresh with state := .stopping, faded := true, successor := some ⟨31, .body⟩ }).playable 31 .body
          = some (sound .once 3) := by decide

theorem witness_VoiceEvents_dropped :
    ((atEnd .once { Voice.fresh with state := .stopping, faded := true, successor := some ⟨29, .cockpit⟩ }).voice 2).successor
        = some ⟨29, .cockpit⟩
      ∧ (atEnd .once { Voice.fresh with state := .stopping, faded := true, successor := some ⟨29, .cockpit⟩ }).playable 29 .cockpit
          = none
      ∧ ((atEnd .once { Voice.fresh with state := .stopping, faded := true, cause := some .reset }).voice 2).cause = some .reset
      ∧ ((atEnd (.chain none) { Voice.fresh with state := .playing, repeats := some 0 }).voice 2).repeats = some 0 := by decide

/-! ### The Sample Store -/

theorem witness_StoreChannels :
    running.holds .cockpit .empty ∧ running.store.initialising = false
      ∧ (fr ([0] ++ quad 2097152 ++ quad 262144)).carries ([0] ++ quad 2097152 ++ quad 262144)
      ∧ writesOf (0 : Byte).toNat = some true ∧ (262144 : Word).toNat ≤ 262144 ∧ running.channel .cockpit = none
      ∧ running.store.regionOf (2097152 : Word).toNat ((2097152 : Word).toNat + (262144 : Word).toNat) = some .clip
      ∧ ((running.store.rights .clip).get .cockpit).write = true ∧ running.voiceRanges = [] ∧ (fr []).carries []
      ∧ (running.setChannel .cockpit (some (openChannel true 0 1))).channel .cockpit = some (openChannel true 0 1) :=
  ⟨rfl, rfl, fr_carries _, rfl, by decide, rfl, by decide, rfl, by decide, fr_carries _, rfl⟩

/-- COCKPIT's channel open on the last two words of the store. -/
def transferring (write : Bool) : State := running.setChannel .cockpit (some (openChannel write 16777214 2))

theorem witness_StoreDataMoves_taken :
    (transferring true).holds .cockpit .empty ∧ (transferring true).store.initialising = false
      ∧ (transferring true).channel .cockpit = some (openChannel true 16777214 2) ∧ 1 ≤ (openChannel true 16777214 2).remaining
      ∧ (openChannel true 16777214 2).write = true
      ∧ (⟨2, [0x1A2B3C4D, 0].flatMap quad⟩ : Frame).bytes.take (4 * 2) = [0x1A2B3C4D, 0].flatMap quad
      ∧ min 2 (openChannel true 16777214 2).remaining = 2
      ∧ (openChannel false 16777214 2).write = false ∧ 129 ≤ (⟨0xFF, []⟩ : Frame).len.toNat
      ∧ min (min 64 ((⟨0xFF, []⟩ : Frame).len.toNat - 128)) (openChannel false 16777214 2).remaining = 2 :=
  ⟨rfl, rfl, rfl, by decide, rfl, rfl, by decide, rfl, by decide, by decide⟩

/-- COCKPIT's two words waiting for the store. -/
def waitingWords (write : Bool) : State :=
  ((transferring write).setSlot .cockpit (.pending ⟨.done, 2, []⟩)).setWaiting .cockpit
    (some ⟨if write then [0x1A2B3C4D, 0] else [], 2, []⟩)

theorem witness_StoreDataMoves_moved :
    ((waitingWords true).link .cockpit).slot = .pending ⟨.done, 2, []⟩
      ∧ (waitingWords true).channel .cockpit = some (openChannel true 16777214 2)
      ∧ (waitingWords true).waiting .cockpit = some ⟨[0x1A2B3C4D, 0], 2, []⟩
      ∧ (waitingWords true).waiting .telephony = none ∧ (waitingWords true).waiting .rear = none
      ∧ (waitingWords true).waiting .body = none ∧ 2 ≤ (openChannel true 16777214 2).remaining
      ∧ (waitingWords true).store.wf = true ∧ ([0x1A2B3C4D, 0] : List Word).length = 2
      ∧ (waitingWords false).waiting .cockpit = some ⟨[], 2, []⟩ := by decide

theorem witness_BulkTurns :
    (waitingWords true).channel .cockpit = some (openChannel true 16777214 2)
      ∧ (waitingWords true).waiting .cockpit = some ⟨[0x1A2B3C4D, 0], 2, []⟩ ∧ (waitingWords true).store.wf = true
      ∧ (∀ k, ¬(Link.code k + 4 - Link.code (waitingWords true).store.pointer) % 4 < (Link.code .cockpit + 4
          - Link.code (waitingWords true).store.pointer) % 4)
      ∧ ((running.setPosted 0 true).withClock ⟨0, 0, 0⟩).store.posted[0]? = some (some 0) :=
  ⟨by decide, by decide, by decide, by intro k; cases k <;> decide, rfl⟩

/-- Two requests posted: where the first stands, so does the second. -/
theorem witness_BulkTurns_class :
    (running.withStore { running.store with posted := [some 5, none, some 7] }).store.posted[2]? = some (some 7)
      ∧ (0 < Config.streamDelay 0 0 →
          (running.withStore { running.store with posted := [some 0, none, some 0] }).standing[0]? = some (some 0)) := by
  refine ⟨rfl, fun h => ?_⟩
  simp [State.standing, standing, State.withStore, show running.clock.now = 0 from rfl, h]

theorem witness_BoundsAndRights :
    running.holds .cockpit .empty ∧ (fr (half 0 ++ half 256)).carries (half 0 ++ half 256)
      ∧ (0 : Half).toNat ≤ (256 : Half).toNat ∧ (256 : Half).toNat ≤ 256 ∧ running.voiceRanges = []
      ∧ running.store.channelRanges = [] ∧ (256 : Half).toNat ≠ running.store.u1 ∧ capturing.shift.state ≠ .off
      ∧ capturing.shift.purpose ≠ some .memo ∧ (64 : Half).toNat = running.store.u1
      ∧ (fr [2, 3, 1, 0]).carries [2, 3, 1, 0] ∧ regionOf (2 : Byte).toNat = some .shift ∧ linkOf (3 : Byte).toNat = some .body
      ∧ onOff (1 : Byte).toNat = some true ∧ onOff (0 : Byte).toNat = some false :=
  ⟨rfl, fr_carries _, by decide, by decide, by decide, by decide, by decide, by decide, by decide, by decide, fr_carries _, rfl,
    rfl, rfl, rfl⟩

/-- A memo in replay behind an announcement that goes on. -/
def replayingMemo : State :=
  let s := announced .a .memoReplay .shift .captured none
  s.withShift { s.shift with purpose := some .memo, running := true }

theorem witness_BoundsAndRights_memo :
    replayingMemo.memoWf ∧ replayingMemo.shift.purpose = some .memo ∧ replayingMemo.shift.state ≠ .off
      ∧ replayingMemo.claim radioHandle = some { radioClaim .shift with seq := 1 } ∧ replayingMemo.traffic.announcing = true
      ∧ replayingMemo.traffic.source = .tuner .a ∧ replayingMemo.chime.descs.length = 32 :=
  ⟨⟨by decide, by decide, by decide⟩, rfl, by decide, rfl, rfl, rfl, rfl⟩

/-- R172: the descriptors that COCKPIT defined are told of first, then the discard. -/
theorem test_region_set_advisories :
    let d := { sound .once 1 with start := 100, definer := .cockpit }
    let s := capturing.withChime { Chime.fresh with descs := (List.replicate 32 none).set 3 (some d) }
    ((after (.regionSet .cockpit (fr (half 0 ++ half 0))) s).link .cockpit).advisories
      = [.descriptorInvalidated 8, .shiftDiscarded .region .capture 0] := by decide

/-! ### Links, power and resets -/

/-- R33, R186: a claim of COCKPIT's that an urgent one displaces; its watch of condition 10 latches the rise. -/
theorem test_displaced_is_latched :
    let s := running.setClaim 9 (some (frontClaim .exclusive .normal))
    let s := s.setLink .cockpit { s.link .cockpit with riseEnable := 0x400 }
    let t := after (.claim .body (fr ([3, 0, 1, 4] ++ half 0 ++ half 0 ++ [2]))) s
    (t.levels .cockpit).getLsbD 10 = true ∧ (t.link .cockpit).riseLatch = 0x400 ∧ (t.levels .body).getLsbD 10 = false := by decide

theorem witness_WatchesAndReports :
    running.holds .telephony .empty ∧ (fr (half 0xFFFF ++ half 0xFFFF)).carries (half 0xFFFF ++ half 0xFFFF)
      ∧ (fr []).carries [] ∧ (fr [9, 0, 0]).carries [9, 0, 0]
      ∧ (∃ bs, running.statusGroup (9 : Byte).toNat (0 : Byte).toNat = some bs ∧ (0 : Byte).toNat < partCount bs.length)
      ∧ running.holds .rear .empty ∧ (fr [47]).carries [47] ∧ (47 : Byte).toNat ≤ 47 :=
  ⟨rfl, fr_carries _, fr_carries _, fr_carries _, ⟨_, rfl, by decide⟩, rfl, fr_carries _, by decide⟩

theorem witness_FrameExchange :
    running.holds .rear .empty ∧ ((running.setSlot .rear (.pending .empty)).link .rear).slot = .pending .empty
      ∧ (running.setSlot .rear (.pending .empty)).waiting .rear = none
      ∧ (Instr.claim .rear (fr [])).request = some (0x10, .rear, fr []) := ⟨rfl, rfl, rfl, rfl⟩

theorem witness_PowerMoves :
    running.holds .body .empty ∧ (fr [2]).carries [2] ∧ powerOf (2 : Byte).toNat = some .sleep
      ∧ running.store.initialising = false ∧ running.call.state = .idle ∧ running.power.state = .run
      ∧ running.memoWf ∧ asleep.holds .body .empty ∧ asleep.power.state ≠ .run
      ∧ PowerState.sleep = asleep.power.state ∧ PowerState.quiet ≠ asleep.power.state
      ∧ (fr ([1, 0, 1, 0] ++ half 240)).carries ([1, 0, 1, 0] ++ half 240) ∧ onOff (1 : Byte).toNat = some true
      ∧ onOff (0 : Byte).toNat = some false :=
  ⟨rfl, fr_carries _, rfl, rfl, rfl, rfl, ⟨by decide, by decide, by decide⟩, rfl, by decide, rfl, by decide, fr_carries _, rfl, rfl⟩

/-- The hub parked in QUIET with its refresh timer running. -/
def parked : State := asleep.withPower { Power.fresh (.high none) with state := .quiet, timer := some (0, 15) }

theorem witness_PowerEvents :
    State.reset.store.initialising = true ∧ State.reset.power.ignition = .low
      ∧ (filling none).store.initialising = true ∧ (filling none).power.ignition = .high none
      ∧ (filling none).power.wakeIgnition = true ∧ asleep.power.state ≠ .run
      ∧ asleep.power.wakeIgnition = true ∧ asleep.store.initialising = false ∧ parked.power.timer = some (0, 15)
      ∧ parked.power.state = .quiet ∧ parked.tunB.state ≠ .refresh := by decide

/-- An ignition that falls just when the fill ends, and one that falls a moment later. -/
theorem witness_PowerEvents_falling :
    (filling (some (milliseconds 40))).power.ignition = .high (some (milliseconds 40))
      ∧ ¬max State.reset.clock.now (State.reset.store.initAt + milliseconds 40) < milliseconds 40
      ∧ max State.reset.clock.now (State.reset.store.initAt + milliseconds 40) < milliseconds 40 + 1 := by decide

theorem witness_Resets :
    (listening .held).holds .rear .empty ∧ (fr []).carries [] ∧ (listening .held).table.counter + 8 < seqMax
      ∧ (listening .held).tunB.holder = some .one
      ∧ ((chiming running .once 3 .gap 31 0 []).voice 2).state = .gap
      ∧ ((chiming running .once 3 .gap 31 0 []).voice 2).starter = some .cockpit ∧ running.holds .cockpit .empty
      ∧ running.power.state = .run ∧ asleep.power.state ≠ .run ∧ ∀ k, running.waiting k = none :=
  ⟨rfl, fr_carries _, by decide, rfl, rfl, rfl, rfl, rfl, by decide, fun k => by cases k <;> rfl⟩

theorem running_sink (k : Nat) : running.sink k = .fresh := by
  show (List.replicate 20 Sink.fresh).getD k .fresh = .fresh
  rw [List.getD_eq_getElem?_getD, List.getElem?_replicate]
  split <;> rfl

theorem running_nothingDue : running.nothingDue := by
  refine ⟨fun k => ?_, rfl, by decide, by decide⟩
  rw [running_sink]; exact ⟨by decide, by decide⟩

/-- Nothing is due in a state that differs from `running` in blocks that make nothing due. -/
theorem nothingDue_of {s : State} (hm : s.mix = running.mix) (hd : s.shift.drained = false) (he : s.call.echo.count = 0)
    (hv : s.chime = running.chime) : s.nothingDue := by
  refine ⟨fun k => ?_, hd, by rw [he]; decide, fun n => ?_⟩
  · have : s.sink k = running.sink k := by simp [State.sink, hm]
    rw [this]; exact running_nothingDue.1 k
  · have : s.voice n.val = running.voice n.val := by simp [State.voice, hv]
    rw [this]; exact running_nothingDue.2.2.2 n

theorem witness_FrameAdvances :
    asleep.power.state ≠ .run ∧ running.power.state = .run ∧ running.nothingDue ∧ running.chime.voices.length = 4 :=
  ⟨by decide, rfl, running_nothingDue, rfl⟩

theorem running_sizes : running.sizesWf := by
  refine ⟨List.length_replicate, rfl, List.length_replicate, fun y h => ?_, by decide, by decide, List.length_replicate,
    List.length_replicate, List.length_replicate⟩
  rw [fresh_sink h]; exact ⟨List.length_replicate, by decide, fun d h => by cases h⟩

/-- A tail of the program's, and an overlay. -/
def contribution (r : Role) : Contribution :=
  { origin := .program, source := .tunerA, kind := none, role := r, target := 360, applied := 100, ramp := .medium, fast := false }

theorem witness_ContributionList :
    Role.base ≠ Role.tail ∧ [contribution .overlay, contribution .tail] = [contribution .overlay] ++ contribution .tail :: []
      ∧ (contribution .tail).isOf ⟨.program, .tunerA, none, .medium⟩ = true
      ∧ (contribution .tail).isOf ⟨.program, .tunerB, none, .medium⟩ = false
      ∧ 6 ≤ (List.replicate 6 (contribution .overlay)).length
      ∧ arrive .overlay ⟨.program, .tunerB, none, .medium⟩ (List.replicate 6 (contribution .overlay)) = none := by decide

/-- A claim of COCKPIT's on FRONT, an ending one on REAR, and the CALL claim. -/
def targeted : State :=
  ((running.setClaim 0 (some (frontClaim .overlay .normal))).setClaim 1
    (some { frontClaim .exclusive .normal with zones := 2, ending := true })).setClaim callHandle (some (callClaim .active .cabin))

theorem witness_ContributionList_targets :
    targeted.claim 0 = some (frontClaim .overlay .normal) ∧ targeted.claim 1 = some { frontClaim .exclusive .normal with zones := 2, ending := true }
      ∧ targeted.claim callHandle = some (callClaim .active .cabin) ∧ (callClaim .active .cabin).level = none
      ∧ targeted.mix.mutes.getD Zone.front.code 0 = 0 ∧ Zone.front.station = none ∧ Zone.station2.station = some .two
      ∧ ((targeted.setStation .two { Station.fresh true with jack := .line }).station .two).jack = .line
      ∧ (targeted.withCall { Call.fresh with volume := 360 }).call.volume = 360 := by decide

/-- R53, R54, R55, R125: the sum, its clamp at both ends, a LINE station, and a call volume of 360 with a negative sink trim. -/
theorem test_targets :
    let c : Contribution := { contribution .base with source := .mediaFront }
    let call : Contribution := { contribution .base with origin := .handle callHandle, source := .callDown }
    let line := targeted.setStation .two { Station.fresh true with jack := .line }
    targeted.target .cargo 48 0 0 c = 168 ∧ targeted.target .cargo 360 0 0 c = 360
      ∧ targeted.target .front 0 0 (-24) { c with origin := .handle 0, role := .overlay } = 96
      ∧ line.target .station2 48 24 48 c = 24 ∧ targeted.target .front 0 0 (-24) call = 24
      ∧ (targeted.withCall { Call.fresh with volume := 360 }).target .front 0 0 (-24) call = 360 := by decide

theorem witness_ContributionList_frame :
    running.power.state = .run ∧ running.nothingDue ∧ running.mix.sinks.length = 20 := ⟨rfl, running_nothingDue, rfl⟩

/-- The hub in RUN at the end of a frame's sample periods. -/
def ripe (s : State) : State := s.withClock { s.clock with periods := 48 }

theorem witness_SamplesAndOutputs :
    (ripe running).power.state = .run ∧ (ripe running).nothingDue ∧ (ripe running).sizesWf ∧ (ripe running).clock.periods = 48
      ∧ (running.q0 47)[15]? = some 0 ∧ (running.q1 47)[19 - 16]? = some 0 ∧ inSample ((running.sink 19).sending.getD 47 0) := by
  refine ⟨rfl, nothingDue_of rfl rfl rfl rfl, running_sizes, rfl, by decide, by decide, ?_⟩
  rw [running_sink]; exact ⟨by decide, by decide⟩

/-- A capture of Tuner A with three words to go to the end of the store and a full ring. -/
def recording (running : Bool) (st : ShiftState) (fill : Nat) : State :=
  ripe (capturing.withShift
    { capturing.shift with state := st, running := running, write := some 16777213, replay := some 16777213, fill := fill })

theorem recording_shiftWf (r : Bool) (fill : Nat) (h : fill ≤ capturing.store.shiftSize) :
    (recording r .capture fill).shiftWf :=
  ⟨witness_StepKeepsShiftBuffer.1.1, witness_StepKeepsShiftBuffer.1.2.1, fun k => absurd (show ShiftState.capture = .off from k) (by decide),
    fun _ => ⟨h, show capturing.store.shiftSize ≠ 0 by decide, ⟨16777213, rfl, show capturing.store.u1 * 65536 ≤ 16777213 by decide⟩,
      16777213, rfl, show capturing.store.u1 * 65536 ≤ 16777213 by decide⟩⟩

theorem witness_ShiftBufferFrames :
    (recording true .capture 12582912).nothingDue ∧ (recording true .capture 12582912).power.state = .run
      ∧ (recording true .capture 12582912).store.wf = true ∧ (recording true .capture 12582912).shiftWf
      ∧ (recording true .capture 12582912).clock.periods = 48 ∧ (recording true .capture 12582912).shift.captured = some .a
      ∧ (recording false .replay 48).nothingDue ∧ (recording false .replay 48).shift.running = false :=
  ⟨nothingDue_of rfl rfl rfl rfl, rfl, rfl, recording_shiftWf _ _ (by decide), rfl, rfl, nothingDue_of rfl rfl rfl rfl, rfl⟩

/-- A call in CONFERENCE with its hold about to run out. -/
def conferring : State :=
  running.withCall { Call.fresh with state := .active, mode := .conference, hold := 3184, echo := { Canceller.off with state := .converging } }

theorem witness_CallFrames :
    conferring.power.state = .run ∧ conferring.nothingDue ∧ conferring.sizesWf ∧ conferring.call.state = .active
      ∧ conferring.call.echo.state ≠ .off ∧ conferring.call.mode = .conference ∧ 3200 ≤ conferring.call.hold + 16
      ∧ conferring.ports.uplink.buffer.length ≤ 32 :=
  ⟨rfl, nothingDue_of rfl rfl rfl rfl, ⟨running_sizes.1, running_sizes.2.1, running_sizes.2.2.1, running_sizes.2.2.2.1,
    by decide, by decide, List.length_replicate, List.length_replicate, List.length_replicate⟩, rfl, by simp [conferring], rfl,
    by simp [conferring], by decide⟩

theorem witness_CancellerSample :
    conferring.call.echo.state ≠ .off ∧ conferring.call.echo.coeffs.length = 2048 ∧ conferring.call.echo.history.length = 2048 :=
  ⟨by simp [conferring], List.length_replicate, List.length_replicate⟩

/-- The hub in RUN just before a sample period, P1's converter started on two sets. -/
def converting : State :=
  (running.setTracker .p1 { Tracker.fresh with state := .locked, conv := ⟨[[1, 2], [3, 4]], true, 65535, 60211⟩ }).withClock ⟨0, 1000000, 47⟩

theorem witness_Converters :
    converting.pending = [] ∧ converting.power.state = .run ∧ converting.clock.periods < 48
      ∧ converting.clock.frameDue = converting.clock.now + (48 - converting.clock.periods) * 1000000
      ∧ converting.ports.p1.conv.buffer = [1, 2] :: [3, 4] :: [] ∧ asleep.power.state ≠ .run := by decide

/-- The hub in RUN with P0's tracker in a state, at 48 kHz: a period of one sample period is 1,000,000 units. -/
def tracking (st : TrackerState) (slips : Nat) : State :=
  running.setTracker .p0 { Tracker.fresh with state := st, slips := slips, estimate := ⟨48000, 1⟩, measuring := true,
                                              nominal := some 48000, good := 64 }

theorem witness_TrackerPeriods :
    running.power.state = .run ∧ (running.tracker .p0).state = .absent ∧ (tracking .locked 2).power.state = .run
      ∧ ((tracking .locked 2).tracker .p0).measuring = true ∧ ((tracking .locked 2).tracker .p0).state = .locked
      ∧ PortFrame.port (.cockpit 0 0 0 0) = .p0
      ∧ (98 * 48000 * 1000000 ≤ 4800000000000 * 1 ∧ 4800000000000 * 1 ≤ 102 * 48000 * 1000000)
      ∧ 4800000000000 * 1 < 98 * 48000 * 1020409
      ∧ ((tracking .acquire 0).tracker .p0).state = .acquire ∧ ((tracking .acquire 0).tracker .p0).nominal = some 48000
      ∧ ((tracking .holdover 3).tracker .p0).state = .holdover ∧ 48000 ∈ nominals .p0
      ∧ (44100 ∈ nominals .p1 ∧ 98 * 44100 * 1088435 ≤ 4800000000000 ∧ 4800000000000 ≤ 102 * 44100 * 1088435)
      ∧ ¬4800000000000 ≤ 102 * 44100 * 1000000 := by decide

theorem witness_TrackerTimers :
    (tracking .locked 2).power.state = .run ∧ ((tracking .locked 2).tracker .p0).state = .locked
      ∧ ((tracking .acquire 0).tracker .p0).state = .acquire ∧ ((tracking .acquire 0).tracker .p0).nominal = some 48000
      ∧ ((tracking .holdover 3).tracker .p0).state = .holdover := ⟨rfl, rfl, rfl, rfl, rfl⟩

/-- P2 locked, its output converter started on two samples: the slot goes out between them. -/
theorem witness_TrackerTimers_uplink :
    ({ Ports.fresh with p2 := { Tracker.fresh with state := .locked, estimate := ⟨16000, 1⟩ },
                        uplink := ⟨[[10], [20]], true, 32768, 0⟩ } : Ports).sendUplink.uplinkSlot = some 15 := by decide

/-- R5: P2 once lost sends no slot. -/
theorem test_lost_port_sends_no_slot :
    (Ports.followP2 .holdover { Ports.fresh with uplinkSlot := some 7 }).uplinkSlot = none := by decide

end Sys2Proof.Machine.Test
end

section
namespace Sys2Proof.Machine

/-! ### What the invariants read -/

/-- What of the state a memo, the power state and the store's fill are told by. -/
structure CalmView where
  shift : ShiftState
  purpose : Option Purpose
  announcing : Bool
  outcome : Option MemoOutcome
  power : PowerState
  filling : Bool

def State.calmView (s : State) : CalmView :=
  { shift := s.shift.state, purpose := s.shift.purpose, announcing := s.traffic.announcing, outcome := s.traffic.outcome,
    power := s.power.state, filling := s.store.initialising }

/-- The states of the three trackers. -/
def Ports.states (x : Ports) : List TrackerState := [x.p0.state, x.p1.state, x.p2.state]

/-- What of the other blocks stands still outside RUN. -/
structure RestView where
  sinks : List (List Contribution × List Nat)
  trackers : List TrackerState
  tunA : AState
  data : Decoder
  saved : Option Decoder
  holder : Option StationId
  tunB : BState
  voices : List VoiceState

def State.restView (s : State) : RestView :=
  { sinks := s.mix.sinks.map fun x => (x.list, x.waiting), trackers := s.ports.states,
    tunA := s.tunA.state, data := s.tunA.rx.decoder, saved := s.tunA.saved, holder := s.tunB.holder, tunB := s.tunB.state,
    voices := s.chime.voices.map Voice.state }

/-- Those blocks stand still in power state `p`. -/
structure RestView.Still (v : RestView) (p : PowerState) : Prop where
  sinks : ∀ x ∈ v.sinks, x = ([], [])
  trackers : ∀ x ∈ v.trackers, x = .absent
  tunA : v.tunA = .off
  data : v.data = .empty
  saved : v.saved = none
  holder : v.holder = none
  tunB : v.tunB = .off ∨ (v.tunB = .refresh ∧ p = .quiet)
  voices : ∀ n : Fin 4, v.voices.getD n.val .idle = .idle

/-- What `State.parkedWf` asks of a state outside RUN. -/
structure State.AtRest (s : State) : Prop where
  still : s.restView.Still s.power.state
  off : s.shift.state = .off
  quiet : s.traffic.announcing = false

theorem State.voice_state (s : State) (n : Nat) : (s.voice n).state = s.restView.voices.getD n .idle := by
  simp only [State.voice, State.restView, List.getD_eq_getElem?_getD, List.getElem?_map]
  cases s.chime.voices[n]? <;> rfl

theorem State.restView_trackers (s : State) : (∀ x ∈ s.restView.trackers, x = .absent) ↔ ∀ p, (s.tracker p).state = .absent := by
  constructor
  · intro h p; cases p <;> exact h _ (by simp [State.restView, Ports.states, State.tracker])
  · intro h x hx
    simp only [State.restView, Ports.states, List.mem_cons, List.not_mem_nil, or_false] at hx
    obtain rfl | rfl | rfl := hx
    · exact h .p0
    · exact h .p1
    · exact h .p2

theorem State.restView_sinks (s : State) :
    (∀ x ∈ s.restView.sinks, x = ([], [])) ↔ ∀ x ∈ s.mix.sinks, x.list = [] ∧ x.waiting = [] := by
  simp [State.restView]

theorem State.parkedWf_iff (s : State) :
    s.parkedWf ↔ (s.store.initialising = true → s.power.state = .sleep) ∧ (s.power.state ≠ .run → s.AtRest) := by
  refine and_congr_right fun _ => imp_congr_right fun _ => ⟨?_, ?_⟩
  · rintro ⟨hx, hp, ha, hd, hs, hh, hb, hv, ho, hq⟩
    exact ⟨⟨s.restView_sinks.2 hx, s.restView_trackers.2 hp, ha, hd, hs, hh, hb, fun n => s.voice_state n ▸ hv n⟩, ho, hq⟩
  · rintro ⟨⟨hx, hp, ha, hd, hs, hh, hb, hv⟩, ho, hq⟩
    exact ⟨s.restView_sinks.1 hx, s.restView_trackers.1 hp, ha, hd, hs, hh, hb, fun n => (s.voice_state n).trans (hv n), ho, hq⟩

/-! ### Steps that keep both invariants -/

/-- `t` keeps the form of the memo, the power state and the state of the fill. -/
structure Calm (s t : State) : Prop where
  memo : s.memoWf → t.memoWf
  power : t.power.state = s.power.state
  filling : t.store.initialising = s.store.initialising

/-- `t` keeps those, and what stood still outside RUN stands still. -/
structure Steady (s t : State) : Prop extends Calm s t where
  rest : s.memoWf → s.power.state ≠ .run → s.AtRest → t.AtRest

/-- `t` keeps both invariants, the power state apart. -/
def KeepsParked (s t : State) : Prop := s.memoWf → t.memoWf ∧ (s.parkedWf → t.parkedWf)

/-- The hub is in RUN, or the state is none that the invariant allows outside it. -/
def State.Awake (s : State) : Prop := s.power.state ≠ .run → ¬s.AtRest

theorem Calm.refl (s : State) : Calm s s := ⟨id, rfl, rfl⟩

theorem Calm.trans {s t u : State} (h : Calm s t) (k : Calm t u) : Calm s u :=
  ⟨k.memo ∘ h.memo, k.power.trans h.power, k.filling.trans h.filling⟩

theorem Steady.refl (s : State) : Steady s s := ⟨.refl s, fun _ _ h => h⟩

theorem Steady.trans {s t u : State} (h : Steady s t) (k : Steady t u) : Steady s u :=
  ⟨h.toCalm.trans k.toCalm, fun hm hp hr => k.rest (h.memo hm) (h.power ▸ hp) (h.rest hm hp hr)⟩

theorem KeepsParked.trans {s t u : State} (h : KeepsParked s t) (k : KeepsParked t u) : KeepsParked s u :=
  fun hm => ⟨(k (h hm).1).1, (k (h hm).1).2 ∘ (h hm).2⟩

theorem memoWf_of_view {s t : State} (hc : t.calmView = s.calmView) (h : s.memoWf) : t.memoWf := by
  simp only [State.calmView, CalmView.mk.injEq] at hc
  obtain ⟨h1, h2, h3, h4, -, -⟩ := hc
  unfold State.memoWf at h ⊢
  rwa [h1, h2, h3, h4]

theorem Calm.of_view {s t : State} (hc : t.calmView = s.calmView) : Calm s t :=
  ⟨memoWf_of_view hc, congrArg CalmView.power hc, congrArg CalmView.filling hc⟩

theorem Steady.of_view {s t : State} (hc : t.calmView = s.calmView) (hr : t.restView = s.restView) : Steady s t :=
  have hp : t.power.state = s.power.state := congrArg CalmView.power hc
  ⟨.of_view hc, fun _ _ h =>
    ⟨hr ▸ hp ▸ h.still, (congrArg CalmView.shift hc).trans h.off, (congrArg CalmView.announcing hc).trans h.quiet⟩⟩

theorem Steady.of_awake {s t : State} (h : Calm s t) (ha : s.Awake) : Steady s t := ⟨h, fun _ hp hr => absurd hr (ha hp)⟩

theorem Calm.of_run {s t : State} (h : Calm s t) (hr : s.power.state = .run) : Steady s t := .of_awake h fun k => absurd hr k

theorem KeepsParked.of_steady {s t : State} (h : Steady s t) : KeepsParked s t := fun hm =>
  ⟨h.memo hm, by
    rw [State.parkedWf_iff, State.parkedWf_iff, h.filling, h.power]
    exact fun k => ⟨k.1, fun hp => h.rest hm hp (k.2 hp)⟩⟩

/-- A step that ends in RUN with the store filled keeps what is asked outside RUN. -/
theorem KeepsParked.of_run {s t : State} (hm : s.memoWf → t.memoWf) (hr : t.power.state = .run)
    (hf : t.store.initialising = false) : KeepsParked s t := fun h =>
  ⟨hm h, fun _ => ⟨fun k => by simp [hf] at k, fun k => absurd hr k⟩⟩

theorem Steady.ite {s t u : State} {c : Prop} [Decidable c] (h : c → Steady s t) (k : ¬c → Steady s u) :
    Steady s (if c then t else u) := by
  split
  · exact h ‹_›
  · exact k ‹_›

theorem Calm.ite {s t u : State} {c : Prop} [Decidable c] (h : c → Calm s t) (k : ¬c → Calm s u) :
    Calm s (if c then t else u) := by
  split
  · exact h ‹_›
  · exact k ‹_›

theorem Steady.foldl {α : Type} (f : State → α → State) (hf : ∀ s a, Steady s (f s a)) (xs : List α) (s : State) :
    Steady s (xs.foldl f s) := by
  induction xs generalizing s with
  | nil => exact .refl s
  | cons a xs ih => exact (hf s a).trans (ih _)

theorem Calm.foldl {α : Type} (f : State → α → State) (hf : ∀ s a, Calm s (f s a)) (xs : List α) (s : State) :
    Calm s (xs.foldl f s) := by
  induction xs generalizing s with
  | nil => exact .refl s
  | cons a xs ih => exact (hf s a).trans (ih _)

/-- Blocks of which neither invariant reads anything. -/
def unread : List Block := [.clock, .table, .radio, .call, .stations]

theorem views_of_happens {bs : List Block} {s t : State} (h : Happens bs s t) (hs : bs ⊆ unread) :
    t.calmView = s.calmView ∧ t.restView = s.restView := by
  have same : ∀ b, b ∉ Block.links :: unread → s.sameBlock t b := fun b hb =>
    h.blocks.2 b fun k => hb (List.cons_subset_cons _ hs k)
  have hports : t.ports = s.ports := same .ports (by decide)
  have hmix : t.mix = s.mix := same .mix (by decide)
  have hA : t.tunA = s.tunA := same .tunA (by decide)
  have hB : t.tunB = s.tunB := same .tunB (by decide)
  have htr : t.traffic = s.traffic := same .traffic (by decide)
  have hsh : t.shift = s.shift := same .shift (by decide)
  have hch : t.chime = s.chime := same .chime (by decide)
  have hst : t.store = s.store := same .store (by decide)
  have hpw : t.power = s.power := same .power (by decide)
  simp [State.calmView, State.restView, *]

theorem Steady.of_happens {bs : List Block} {s t : State} (h : Happens bs s t) (hs : bs ⊆ unread) : Steady s t :=
  .of_view (views_of_happens h hs).1 (views_of_happens h hs).2

@[simp] theorem State.riseAll_calmView (s : State) (c : Nat) : (s.riseAll c).calmView = s.calmView :=
  (views_of_happens (happens_riseAll s c) (by simp)).1
@[simp] theorem State.fallAll_calmView (s : State) (c : Nat) : (s.fallAll c).calmView = s.calmView :=
  (views_of_happens (happens_fallAll s c) (by simp)).1
@[simp] theorem State.fallAll_restView (s : State) (c : Nat) : (s.fallAll c).restView = s.restView :=
  (views_of_happens (happens_fallAll s c) (by simp)).2

/-! ### One update -/

theorem steady_setLink (s : State) (l : Link) (x : LinkState) : Steady s (s.setLink l x) := .of_view rfl rfl
theorem steady_setSlot (s : State) (l : Link) (x : Slot) : Steady s (s.setSlot l x) := .of_view rfl rfl
theorem steady_shiftOut (s : State) (l : Link) (n : Nat) (r : Reply) : Steady s (s.shiftOut l n r) := .of_view rfl rfl
theorem steady_offerEdges (b s : State) : Steady s (State.offerEdges b s) := .of_happens (happens_offerEdges b s) (by simp)
theorem steady_riseAll (s : State) (c : Nat) : Steady s (s.riseAll c) := .of_happens (happens_riseAll s c) (by simp)
theorem steady_notice (s : State) (l : Link) (c : Nat) : Steady s (s.notice l c) := .of_view rfl rfl
theorem steady_advise (s : State) (l : Link) (a : Advisory) : Steady s (s.advise l a) := .of_view rfl rfl
theorem steady_setPosted (s : State) (r : Nat) (x : Bool) : Steady s (s.setPosted r x) := .of_view rfl rfl
theorem steady_setClaim (s : State) (h : Nat) (c : Option Claim) : Steady s (s.setClaim h c) := .of_view rfl rfl
theorem steady_withTable (s : State) (x : ClaimTable) : Steady s (s.withTable x) := .of_view rfl rfl
theorem steady_withCall (s : State) (x : Call) : Steady s (s.withCall x) := .of_view rfl rfl
theorem steady_withRadio (s : State) (x : Radio) : Steady s (s.withRadio x) := .of_view rfl rfl
theorem steady_withStations (s : State) (x : Stations) : Steady s (s.withStations x) := .of_view rfl rfl
theorem steady_setStation (s : State) (st : StationId) (x : Station) : Steady s (s.setStation st x) := by
  cases st <;> exact .of_view rfl rfl

theorem steady_post (s : State) (h : Nat) (c : Claim) : Steady s (s.post h c) := by
  unfold State.post State.readyToPost
  split <;> exact .of_view rfl rfl

theorem steady_withClock (s : State) (x : Clock) : Steady s (s.withClock x) := .of_view rfl rfl

theorem steady_withPorts (s : State) (x : Ports) (h : x.states = s.ports.states) : Steady s (s.withPorts x) :=
  .of_view rfl (by simp [State.restView, h])

theorem steady_withMix (s : State) (x : Mix) (h : x.sinks = s.mix.sinks) : Steady s (s.withMix x) :=
  .of_view rfl (by simp [State.restView, h])

theorem steady_withTraffic (s : State) (x : Traffic) (ha : x.announcing = s.traffic.announcing)
    (ho : x.outcome = s.traffic.outcome) : Steady s (s.withTraffic x) := .of_view (by simp [State.calmView, ha, ho]) rfl

theorem steady_withStore (s : State) (x : Store) (h : x.initialising = s.store.initialising) : Steady s (s.withStore x) :=
  .of_view (by simp [State.calmView, h]) rfl

theorem steady_withPower (s : State) (x : Power) (h : x.state = s.power.state) : Steady s (s.withPower x) :=
  .of_view (by simp [State.calmView, h]) rfl

theorem steady_withChime (s : State) (x : Chime) (h : x.voices.map Voice.state = s.chime.voices.map Voice.state) :
    Steady s (s.withChime x) := .of_view rfl (by simp [State.restView, h])

theorem calm_withPorts (s : State) (x : Ports) : Calm s (s.withPorts x) := .of_view rfl
theorem calm_withMix (s : State) (x : Mix) : Calm s (s.withMix x) := .of_view rfl
theorem calm_withTunA (s : State) (x : TunerA) : Calm s (s.withTunA x) := .of_view rfl
theorem calm_withTunB (s : State) (x : TunerB) : Calm s (s.withTunB x) := .of_view rfl
theorem calm_withChime (s : State) (x : Chime) : Calm s (s.withChime x) := .of_view rfl

end Sys2Proof.Machine
end

section
namespace Sys2Proof.Machine

/-! ### The Claim Table's followers and the Shift Buffer -/

/-- A Shift Buffer that is not OFF, or an announcement in progress, is not what stands still outside RUN. -/
theorem State.awake_of_shift {s : State} (h : s.shift.state ≠ .off) : s.Awake := fun _ k => h k.off

theorem State.awake_of_announcing {s : State} (h : s.traffic.announcing = true) : s.Awake := fun _ k => by
  simp [k.quiet] at h

/-- What is asked of a Shift Buffer alone: the memo states are those of purpose MEMO. -/
def ShiftBuffer.Formed (b : ShiftBuffer) : Prop :=
  b.purpose = some .memo ↔ b.state = .memoCapture ∨ b.state = .memoHeld ∨ b.state = .memoReplay

theorem State.memoWf.purpose_of_state {s : State} (h : s.memoWf)
    (hs : s.shift.state = .memoCapture ∨ s.shift.state = .memoHeld ∨ s.shift.state = .memoReplay) :
    s.shift.purpose = some .memo := h.1.2 hs

/-- An announcement that is unheard is in progress, and its outcome is NONE. -/
theorem State.unheard_some {s : State} {t : TunerId} (h : s.unheard = some t) :
    s.traffic.announcing = true ∧ s.traffic.outcome = some .none := by
  unfold State.unheard at h
  split at h
  · split at h
    · simp_all
    · cases h
  · cases h

theorem State.unheard_eq_none {s : State} (h : s.traffic.announcing = true → s.traffic.outcome ≠ some .none) :
    s.unheard = none :=
  Option.eq_none_iff_forall_ne_some.2 fun _ ht =>
    absurd (State.unheard_some ht).2 (h (State.unheard_some ht).1)

theorem State.unheard_eq_none_of_claim {s : State} (h : s.claim radioHandle = none) : s.unheard = none := by
  unfold State.unheard
  split
  · rename_i hc; rw [h] at hc; cases hc
  · rfl

theorem State.claim_setClaim_none (s : State) (h : Nat) : (s.setClaim h none).claim h = none := by
  simp [State.claim, State.setClaim, List.getD_eq_getElem?_getD, List.getElem?_set]
  split <;> rfl

/-- While the buffer is OFF only an unheard announcement lets a change of the Claim Table do something. -/
theorem State.tableChanged_of_off {s : State} (ho : s.shift.state = .off) (hn : s.unheard = none) : s.tableChanged = s := by
  simp only [State.tableChanged, ho, hn]

theorem calm_startCapture (s : State) (st : ShiftState) (p : Purpose) (c : Option PauseCause) (t : TunerId)
    (h : s.memoWf → (s.startCapture st p c t).memoWf) : Calm s (s.startCapture st p c t) := ⟨h, rfl, rfl⟩

theorem calm_considerMemo {s : State} (t : TunerId) (ha : s.traffic.announcing = true) : Calm s (s.considerMemo t) := by
  unfold State.considerMemo
  refine .ite (fun _ => .refl s) fun _ => ?_
  have missed : ∀ r, s.shift.state = .off ∨ s.shift.state = .capture ∨ s.shift.state = .replay →
      Calm s ((s.withTraffic { s.traffic with outcome := some .missed }).advise .cockpit (.taMissed r (.tuner t))) := by
    refine fun r hs => ⟨fun h => ?_, rfl, rfl⟩
    refine ⟨h.1, h.2.1, fun hp => ?_⟩
    have := h.1.1 hp
    rcases hs with hs | hs | hs <;> simp [hs] at this
  split
  · refine .ite (fun _ => missed _ (.inl ‹_›)) fun _ => ⟨fun _ => ?_, rfl, rfl⟩
    exact ⟨⟨fun _ => .inl rfl, fun _ => rfl⟩, fun _ => ha, fun _ _ => rfl⟩
  · exact missed _ (.inr (.inl ‹_›))
  · exact missed _ (.inr (.inr ‹_›))
  all_goals exact .refl s

theorem calm_considerUnheard (s : State) : Calm s (match s.unheard with | some t => s.considerMemo t | none => s) := by
  split
  · exact calm_considerMemo _ (State.unheard_some ‹_›).1
  · exact .refl s

theorem calm_postReplay (s : State) : Calm s s.postReplay := (steady_setPosted _ _ _).toCalm

/-- A memo captured or held that comes to be replayed. -/
theorem calm_toMemoReplay {s : State} (r : Bool) (hs : s.shift.state = .memoCapture ∨ s.shift.state = .memoHeld) :
    Calm s (s.withShift { s.shift with state := .memoReplay, running := r }) := by
  refine ⟨fun h => ?_, rfl, rfl⟩
  have hm := h.purpose_of_state (hs.imp_right .inl)
  exact ⟨⟨fun _ => .inr (.inr rfl), fun _ => hm⟩, fun k => (nomatch k), fun _ => h.2.2 hm⟩

theorem calm_changeClaim (s : State) (h : Nat) (f : Claim → Claim) : Calm s (s.changeClaim h f) :=
  (steady_setClaim _ _ _).toCalm

theorem calm_replayMemo {s : State} (hs : s.shift.state = .memoCapture) : Calm s s.replayMemo :=
    .trans (calm_toMemoReplay s.shift.running (.inl hs)) (.trans (t := State.changeClaim _ _ _) (calm_changeClaim _ _ _)
    (calm_postReplay _))

theorem calm_tableChanged (s : State) : Calm s s.tableChanged := by
  unfold State.tableChanged
  split
  · exact .ite (fun _ => calm_replayMemo ‹_›) fun _ => .refl s
  · split
    · refine .ite (fun _ => ?_) fun _ => .refl s
      refine .trans (calm_toMemoReplay false (.inr ‹_›)) (.trans (steady_post _ radioHandle (radioClaim .shift)).toCalm ?_)
      exact .of_view rfl
    · exact .refl s
  · exact .refl s
  all_goals exact calm_considerUnheard s

/-- Outside RUN a change of the Claim Table brings nothing about. -/
theorem State.AtRest.tableChanged {s : State} (h : s.AtRest) : s.tableChanged = s :=
  State.tableChanged_of_off h.off (State.unheard_eq_none fun k => by simp [h.quiet] at k)

theorem steady_tableChanged (s : State) : Steady s s.tableChanged :=
  ⟨calm_tableChanged s, fun _ _ h => h.tableChanged.symm ▸ h⟩

theorem steady_dropClaim (s : State) (h : Nat) : Steady s (s.setClaim h none).tableChanged :=
  (steady_setClaim _ _ _).trans (steady_tableChanged _)

theorem State.dropRadio_of_off {s : State} (ho : s.shift.state = .off) :
    (s.setClaim radioHandle none).tableChanged = s.setClaim radioHandle none :=
  State.tableChanged_of_off ho (State.unheard_eq_none_of_claim (s.claim_setClaim_none _))

/-! ### Announcements -/

@[simp] theorem State.post_calmView (s : State) (h : Nat) (c : Claim) : (s.post h c).calmView = s.calmView := by
  unfold State.post State.readyToPost
  split <;> rfl

/-- A state whose memo is being captured or replayed for an announcement in progress, its outcome CAPTURED. -/
theorem memoWf_of_captured {t : State} (hp : t.shift.purpose = some .memo) (hs : t.shift.state = .memoCapture ∨ t.shift.state = .memoReplay)
    (ha : t.traffic.announcing = true) (ho : t.traffic.outcome = some .captured) : t.memoWf :=
  ⟨⟨fun _ => hs.imp_right .inr, fun _ => hp⟩, fun _ => ha, fun _ _ => ho⟩

theorem calm_startAnnouncement {s : State} (t : TunerId) (ha : s.traffic.announcing = false) :
    Calm s (s.startAnnouncement t) := by
  unfold State.startAnnouncement
  generalize hu : (s.withTraffic { s.traffic with announcing := true, outcome := some .none }).riseAll 2 = u
  have huv : u.calmView = { s.calmView with announcing := true, outcome := some .none } := by
    rw [← hu, State.riseAll_calmView]; rfl
  have hshift : u.shift.state = s.shift.state := congrArg CalmView.shift huv
  have hpurpose : u.shift.purpose = s.shift.purpose := congrArg CalmView.purpose huv
  have hannounce : u.traffic.announcing = true := congrArg CalmView.announcing huv
  have hpower : u.power.state = s.power.state := congrArg CalmView.power huv
  have hfill : u.store.initialising = s.store.initialising := congrArg CalmView.filling huv
  have plain : ¬(s.shift.state = .memoCapture ∨ s.shift.state = .memoHeld ∨ s.shift.state = .memoReplay) →
      Calm s ((u.post radioHandle (radioClaim (sourceOfTuner t))).tableChanged) := fun hn =>
    .trans (t := u)
      ⟨fun h => ⟨by rw [hshift, hpurpose]; exact h.1, fun k => absurd (.inl (hshift ▸ k)) hn,
        fun k => absurd (h.1.1 (hpurpose ▸ k)) hn⟩, hpower, hfill⟩
      ((steady_post _ _ _).toCalm.trans (calm_tableChanged _))
  dsimp only
  split <;> rename_i hs <;> rw [hshift] at hs
  · exact plain (by simp [hs])
  · exact plain (by simp [hs])
  · exact plain (by simp [hs])
  · generalize hv : u.post radioHandle (radioClaim (sourceOfTuner t)) = v
    have hvu : v.calmView = u.calmView := hv ▸ State.post_calmView _ _ _
    have hvp : v.shift.purpose = u.shift.purpose := congrArg CalmView.purpose hvu
    have hva : v.traffic.announcing = u.traffic.announcing := congrArg CalmView.announcing hvu
    have hvw : v.power.state = u.power.state := congrArg CalmView.power hvu
    have hvf : v.store.initialising = u.store.initialising := congrArg CalmView.filling hvu
    have joined : Calm s
        ((v.withTraffic { v.traffic with retained := none, outcome := some .captured }).withShift
          { v.shift with state := .memoCapture, captured := some t, running := true }) :=
      ⟨fun h => memoWf_of_captured ((hvp.trans hpurpose).trans (h.purpose_of_state (.inr (.inl hs)))) (.inl rfl)
        (hva.trans hannounce) rfl, hvw.trans hpower, hvf.trans hfill⟩
    exact .ite (fun _ => joined.trans (calm_replayMemo rfl)) fun _ => joined
  · exact ⟨fun h => memoWf_of_captured (hpurpose.trans (h.purpose_of_state (.inr (.inr hs)))) (.inr (hshift.trans hs)) hannounce
      rfl, hpower, hfill⟩
  · exact ⟨fun h => absurd (h.2.1 hs) (by simp [ha]), hpower, hfill⟩

/-- Where a RADIO claim on a tuner source is removed at an announcement's end. -/
theorem calm_endClaim (s : State) : Calm s
    (match s.claim radioHandle with
      | some c => if c.source = .shift then s else (s.setClaim radioHandle none).tableChanged
      | none => s) := by
  split
  · exact .ite (fun _ => .refl s) fun _ => (steady_dropClaim _ _).toCalm
  · exact .refl s

theorem calm_endAnnouncement (s : State) : Calm s s.endAnnouncement := by
  unfold State.endAnnouncement
  generalize hu : (s.withTraffic { s.traffic with announcing := false, outcome := none }).fallAll 2 = u
  have huv : u.calmView = { s.calmView with announcing := false, outcome := none } := by
    rw [← hu, State.fallAll_calmView]; rfl
  have hshift : u.shift.state = s.shift.state := congrArg CalmView.shift huv
  have hpurpose : u.shift.purpose = s.shift.purpose := congrArg CalmView.purpose huv
  have hannounce : u.traffic.announcing = false := congrArg CalmView.announcing huv
  have hpower : u.power.state = s.power.state := congrArg CalmView.power huv
  have hfill : u.store.initialising = s.store.initialising := congrArg CalmView.filling huv
  have held : Calm s
      (match u.shift.state with
        | .memoCapture =>
          (u.withTraffic { u.traffic with retained := (u.claim radioHandle).map fun c => c.seq }).withShift
            { u.shift with state := .memoHeld, running := false }
        | .memoReplay => u.withShift { u.shift with running := false }
        | .off | .capture | .replay | .memoHeld => u) := by
    have quiet : ∀ v : State, v.shift.purpose = u.shift.purpose → v.traffic.announcing = u.traffic.announcing →
        v.power.state = u.power.state → v.store.initialising = u.store.initialising → v.shift.state ≠ .memoCapture →
        (s.memoWf → v.shift.Formed) → Calm s v := fun v hp ha hw hf hc hb =>
      ⟨fun h => ⟨hb h, fun k => absurd k hc, fun _ k => by simp [ha, hannounce] at k⟩, hw.trans hpower, hf.trans hfill⟩
    have formed : s.memoWf → u.shift.Formed := fun h => by
      unfold ShiftBuffer.Formed; rw [hshift, hpurpose]; exact h.1
    split <;> rename_i hs
    · refine quiet _ rfl rfl rfl rfl (by simp) fun h => ⟨fun _ => .inr (.inl rfl), fun _ => (formed h).2 (.inl hs)⟩
    · exact quiet _ rfl rfl rfl rfl (by simp [hs]) formed
    all_goals exact quiet _ rfl rfl rfl rfl (by simp [hs]) formed
  exact held.trans (calm_endClaim _)

/-- With the buffer OFF the end of an announcement does no more than take the RADIO claim away. -/
theorem State.endAnnouncement_of_off {s : State} (ho : s.shift.state = .off) :
    s.endAnnouncement.calmView = { s.calmView with announcing := false, outcome := none }
      ∧ s.endAnnouncement.restView = s.restView := by
  unfold State.endAnnouncement
  generalize hu : (s.withTraffic { s.traffic with announcing := false, outcome := none }).fallAll 2 = u
  have huv : u.calmView = { s.calmView with announcing := false, outcome := none } := by
    rw [← hu, State.fallAll_calmView]; rfl
  have hur : u.restView = s.restView := by rw [← hu, State.fallAll_restView]; rfl
  have hoff : u.shift.state = .off := (congrArg CalmView.shift huv).trans ho
  simp only [hoff, State.dropRadio_of_off hoff]
  split
  · split
    · exact ⟨huv, hur⟩
    · exact ⟨huv, hur⟩
  · exact ⟨huv, hur⟩

/-! ### Discards -/

@[simp] theorem State.shiftOff_calmView (s : State) : s.shiftOff.calmView = { s.calmView with shift := .off, purpose := none } := by
  unfold State.shiftOff
  split <;> split <;> simp only [State.fallAll_calmView] <;> rfl

@[simp] theorem State.shiftOff_restView (s : State) : s.shiftOff.restView = s.restView := by
  unfold State.shiftOff
  split <;> split <;> simp only [State.fallAll_restView] <;> rfl

theorem calm_shiftOff (s : State) : Calm s s.shiftOff := by
  have hv := s.shiftOff_calmView
  have hs : s.shiftOff.shift.state = .off := congrArg CalmView.shift hv
  have hp : s.shiftOff.shift.purpose = none := congrArg CalmView.purpose hv
  exact ⟨fun _ => ⟨by simp [hs, hp], by simp [hs], by simp [hp]⟩, congrArg CalmView.power hv, congrArg CalmView.filling hv⟩

/-- The Shift Buffer comes to be OFF and stays so. -/
theorem steady_shiftOff (s : State) : Steady s s.shiftOff :=
  ⟨calm_shiftOff s, fun _ _ h =>
    ⟨by rw [s.shiftOff_restView, (calm_shiftOff s).power]; exact h.still, congrArg CalmView.shift s.shiftOff_calmView,
      (congrArg CalmView.announcing s.shiftOff_calmView).trans h.quiet⟩⟩

theorem calm_dropMemoClaim (s : State) : Calm s s.dropMemoClaim := by
  unfold State.dropMemoClaim
  refine .trans (t := s.withTraffic { s.traffic with retained := none }) (.of_view rfl) ?_
  dsimp only
  split
  · refine .ite (fun _ => ?_) fun _ => .refl _
    split
    · exact (calm_changeClaim _ _ _).trans (calm_tableChanged _)
    · exact (steady_dropClaim _ _).toCalm
  · exact .refl _

/-- A memo's claim is dropped with the buffer OFF and no announcement that is unheard: no capture begins. -/
theorem State.dropMemoClaim_views {s : State} (ho : s.shift.state = .off)
    (hn : s.traffic.announcing = true → s.traffic.outcome ≠ some .none) :
    s.dropMemoClaim.calmView = s.calmView ∧ s.dropMemoClaim.restView = s.restView := by
  unfold State.dropMemoClaim
  dsimp only
  split
  · split
    · split
      · rw [State.tableChanged_of_off (by exact ho) (State.unheard_eq_none (by exact hn))]
        exact ⟨rfl, rfl⟩
      · rw [State.dropRadio_of_off (by exact ho)]
        exact ⟨rfl, rfl⟩
    · exact ⟨rfl, rfl⟩
  · exact ⟨rfl, rfl⟩

theorem calm_discard (s : State) (c : DiscardCause) : Calm s (s.discard c) := by
  unfold State.discard
  refine .ite (fun _ => .refl s) fun _ => ?_
  have off : Calm s (if c = .hubReset then s.shiftOff
      else s.shiftOff.advise .cockpit (.shiftDiscarded c s.shift.state s.shift.fill)) :=
    .ite (fun _ => calm_shiftOff s) fun _ => (calm_shiftOff s).trans (steady_advise _ _ _).toCalm
  exact .ite (fun _ => off.trans (calm_dropMemoClaim _)) fun _ => off

/-- A discard leaves the buffer OFF and the blocks outside the Traffic and Shift Unit as they were. -/
theorem State.discard_views {s : State} (h : s.memoWf) (c : DiscardCause) :
    (s.discard c).shift.state = .off ∧ (s.discard c).restView = s.restView := by
  unfold State.discard
  split
  · exact ⟨‹_›, rfl⟩
  · dsimp only
    generalize hu : (if c = .hubReset then s.shiftOff
        else s.shiftOff.advise .cockpit (.shiftDiscarded c s.shift.state s.shift.fill)) = u
    have huv : u.calmView = { s.calmView with shift := .off, purpose := none } ∧ u.restView = s.restView := by
      rw [← s.shiftOff_calmView, ← s.shiftOff_restView, ← hu]
      split <;> exact ⟨rfl, rfl⟩
    have hoff : u.shift.state = .off := congrArg CalmView.shift huv.1
    split
    · have heard : u.traffic.announcing = true → u.traffic.outcome ≠ some .none := fun k => by
        have ha : u.traffic.announcing = s.traffic.announcing := congrArg CalmView.announcing huv.1
        have hm : u.traffic.outcome = s.traffic.outcome := congrArg CalmView.outcome huv.1
        rw [hm, h.2.2 ‹_› (ha ▸ k)]; decide
      obtain ⟨hc, hr⟩ := State.dropMemoClaim_views hoff heard
      exact ⟨(congrArg CalmView.shift hc).trans hoff, hr.trans huv.2⟩
    · exact ⟨hoff, huv.2⟩

theorem State.discard_of_off {s : State} (ho : s.shift.state = .off) (c : DiscardCause) : s.discard c = s := if_pos ho

theorem steady_discard (s : State) (c : DiscardCause) : Steady s (s.discard c) :=
  ⟨calm_discard s c, fun _ _ h => (State.discard_of_off h.off c).symm ▸ h⟩

theorem steady_retuned (s : State) (t : TunerId) : Steady s (s.retuned t) := .ite (fun _ => steady_discard s _) fun _ => .refl s

/-! ### Tuner B and what follows a change of the tuners -/

/-- Outside RUN Tuner B may be OFF, or sweep in QUIET. -/
def State.mayStand (s : State) (st : BState) : Prop := st = .off ∨ (st = .refresh ∧ s.power.state = .quiet)

theorem State.AtRest.withTunB {s : State} (h : s.AtRest) (x : TunerB) (hx : x.holder = none) (hst : s.mayStand x.state) :
    (s.withTunB x).AtRest :=
  ⟨{ h.still with holder := hx, tunB := hst }, h.off, h.quiet⟩

theorem calm_enterB (s : State) (st : BState) (f : Option Freq) : Calm s (s.enterB st f) :=
  (calm_withTunB s _).trans (steady_retuned _ _).toCalm

theorem steady_enterB (s : State) (st : BState) (f : Option Freq) (h : s.power.state = .run ∨ s.mayStand st) :
    Steady s (s.enterB st f) :=
  .trans ⟨calm_withTunB s _, fun _ hp hr => hr.withTunB _ (by exact hr.still.holder) (h.resolve_left hp)⟩ (steady_retuned _ _)

theorem calm_startSweep (s : State) (st : BState) : Calm s (s.startSweep st) :=
  (steady_withRadio _ _).toCalm.trans (calm_enterB _ _ _)

theorem calm_assignB (s : State) : Calm s s.assignB := by
  unfold State.assignB
  refine .ite (fun _ => .refl s) fun _ => ?_
  split
  · exact .ite (fun _ => .refl s) fun _ => calm_enterB _ _ _
  · exact .ite (fun _ => .refl s) fun _ => calm_enterB _ _ _
  · exact .ite (fun _ => .ite (fun _ => .refl s) fun _ => calm_startSweep _ _)
      fun _ => .ite (fun _ => .refl s) fun _ => calm_enterB _ _ _

/-- Outside RUN Tuner B has no assignment (R85). -/
theorem State.assignB_of_parked {s : State} (h : s.power.state ≠ .run) : s.assignB = s := if_pos h

theorem steady_assignB (s : State) : Steady s s.assignB :=
  ⟨calm_assignB s, fun _ hp h => (State.assignB_of_parked hp).symm ▸ h⟩

theorem State.followEligible_views (s : State) :
    s.followEligible.calmView = s.calmView ∧ s.followEligible.restView = s.restView := by
  unfold State.followEligible
  split
  · exact ⟨rfl, rfl⟩
  · split <;> exact ⟨rfl, rfl⟩

/-- Where the tuners stand still no traffic source offers a TA flag. -/
theorem State.taOf_of_still {s : State} {p : PowerState} (h : s.restView.Still p) (src : TrafficSource) : s.taOf src = false := by
  have hd : s.tunA.rx.decoder = .empty := h.data
  have hs : s.tunA.saved = none := h.saved
  have hb : s.tunB.state ≠ .watch := fun k => by
    have := h.tunB
    simp [State.restView, k] at this
  match src with
  | .none => rfl
  | .tuner .a => simp [State.taOf, TunerA.offered, hd, hs, Decoder.empty, Decoded.empty]
  | .tuner .b => simp [State.taOf, hb]

theorem calm_followAnnouncement (s : State) (src : TrafficSource) : Calm s
    (match src with
      | .tuner t => if !s.traffic.announcing && s.taOf src then s.startAnnouncement t else s
      | .none => s) := by
  split
  · refine .ite (fun h => calm_startAnnouncement _ ?_) fun _ => .refl s
    simp only [Bool.and_eq_true, Bool.not_eq_true'] at h
    exact h.1
  · exact .refl s

theorem calm_followSource (s : State) : Calm s s.followSource := by
  unfold State.followSource
  dsimp only
  have ended : Calm s
      (if s.traffic.announcing && !(s.sourceNow = s.traffic.source && s.taOf s.sourceNow) then s.endAnnouncement else s) :=
    .ite (fun _ => calm_endAnnouncement s) fun _ => .refl s
  refine ended.trans ?_
  generalize (if s.traffic.announcing && !(s.sourceNow = s.traffic.source && s.taOf s.sourceNow) then s.endAnnouncement
    else s) = u
  exact .trans (t := u.withTraffic { u.traffic with source := s.sourceNow }) (.of_view rfl) (calm_followAnnouncement _ _)

/-- Where the tuners stand still and the buffer is OFF an announcement ends and none starts (R99). -/
theorem State.followSource_atRest {s : State} (h : s.restView.Still s.power.state) (ho : s.shift.state = .off) :
    s.followSource.AtRest := by
  unfold State.followSource
  dsimp only
  generalize hu : (if s.traffic.announcing && !(s.sourceNow = s.traffic.source && s.taOf s.sourceNow) then s.endAnnouncement
      else s) = u
  have rest : u.AtRest := by
    rw [State.taOf_of_still h] at hu
    subst hu
    cases ha : s.traffic.announcing with
    | false => exact ⟨h, ho, ha⟩
    | true =>
      obtain ⟨hc, hr⟩ := State.endAnnouncement_of_off ho
      have hp : s.endAnnouncement.power.state = s.power.state := congrArg CalmView.power hc
      simp only [Bool.and_false, Bool.not_false, Bool.and_true, if_true]
      exact ⟨hr.symm ▸ hp.symm ▸ h, (congrArg CalmView.shift hc).trans ho, congrArg CalmView.announcing hc⟩
  have kept : (u.withTraffic { u.traffic with source := s.sourceNow }).AtRest := ⟨rest.still, rest.off, rest.quiet⟩
  split
  · rw [State.taOf_of_still kept.still, Bool.and_false]
    exact kept
  · exact kept

theorem steady_followSource (s : State) : Steady s s.followSource :=
  ⟨calm_followSource s, fun _ _ h => State.followSource_atRest h.still h.off⟩

theorem steady_reassess (s : State) : Steady s s.reassess :=
  .trans (t := s.followEligible) (.of_view s.followEligible_views.1 s.followEligible_views.2)
    (.trans (t := s.followEligible.followWatch) (.of_view rfl rfl) (.trans (steady_assignB _) (steady_followSource _)))

theorem calm_retuneA (s : State) (f : Freq) (r : TuneCause × TuneResult) : Calm s (s.retuneA f r) :=
  (calm_withTunA s _).trans ((steady_retuned _ _).toCalm.trans (steady_reassess _).toCalm)

end Sys2Proof.Machine
end

section
namespace Sys2Proof.Machine

/-! ### The clock, the ports and the mix -/

theorem Tracker.period_state (p : Port) (t : Tracker) : (t.period p).state = t.state := by
  unfold Tracker.period; split <;> rfl

theorem Ports.periods_states (a b : Option Heard) (n : Nat) (x : Ports) : (Ports.periods a b n x).states = x.states := by
  induction n generalizing x with
  | zero => rfl
  | succ n ih =>
    have one : (x.period a b).states = x.states := by simp only [Ports.states, Ports.period, Tracker.period_state]
    exact (ih _).trans one

theorem steady_reach (s : State) (t : Time) : Steady s (s.reach t) := by
  unfold State.reach
  exact .ite (fun _ => (steady_withPorts s _ (Ports.periods_states _ _ _ _)).trans (steady_withClock _ _))
    fun _ => steady_withClock _ _

theorem map_set_eq {α β : Type} (f : α → β) (xs : List α) (k : Nat) (x d : α) (h : f x = f (xs.getD k d)) :
    (xs.set k x).map f = xs.map f := by
  apply List.ext_getElem? fun i => ?_
  simp only [List.getElem?_map, List.getElem?_set]
  split
  · subst i
    by_cases hk : k < xs.length <;> simp_all
  · rfl

/-- A sink changed in other fields than its list and its waiting list. -/
theorem steady_setSink (s : State) (k : Nat) (x : Sink) (hl : x.list = (s.sink k).list) (hw : x.waiting = (s.sink k).waiting) :
    Steady s (s.setSink k x) := by
  have h : (s.mix.sinks.set k x).map (fun y => (y.list, y.waiting)) = s.mix.sinks.map fun y => (y.list, y.waiting) :=
    map_set_eq _ _ _ _ Sink.fresh (Prod.ext hl hw)
  exact .of_view rfl (by simp [State.setSink, State.restView, h])

/-- A voice changed in other fields than its state. -/
theorem steady_setVoice (s : State) (n : Nat) (v : Voice) (h : v.state = (s.voice n).state) : Steady s (s.setVoice n v) :=
  steady_withChime _ _ (map_set_eq _ _ _ _ Voice.fresh h)

theorem steady_resetEcho (s : State) : Steady s s.resetEcho := steady_withCall _ _

theorem steady_fadeOutEnd (s : State) (k : Nat) : Steady s (s.fadeOutEnd k) := by
  unfold State.fadeOutEnd
  refine .ite (fun _ => ?_) fun _ => .refl s
  have moved : Steady s (s.setSink k
      { s.sink k with delay := (s.sink k).pendingDelay.getD (s.sink k).delay, pendingDelay := none, delayState := .fadeIn,
                      faded := false }) := steady_setSink _ _ _ rfl rfl
  exact .ite (fun _ => moved.trans (steady_resetEcho _)) fun _ => moved

theorem steady_fadeInEnd (s : State) (k : Nat) : Steady s (s.fadeInEnd k) :=
  .ite (fun _ => steady_setSink _ _ _ rfl rfl) fun _ => .refl s

theorem steady_releaseGuard (s : State) (k : Nat) : Steady s (s.releaseGuard k) :=
  .ite (fun _ => steady_setSink _ _ _ rfl rfl) fun _ => .refl s

theorem steady_speedGrowsStale (s : State) : Steady s s.speedGrowsStale :=
  .ite (fun _ => .refl s) fun _ => (steady_reach _ _).trans (steady_withMix _ _ rfl)

/-! ### The trackers -/

/-- Outside RUN every tracker is ABSENT. -/
theorem State.awake_of_tracker {s : State} (p : Port) (h : (s.tracker p).state ≠ .absent) : s.Awake := fun _ k =>
  h (s.restView_trackers.1 k.still.trackers p)

theorem calm_withTracker (s : State) (p : Port) (t : Tracker) : Calm s (s.withTracker p t) := by
  cases p
  · exact calm_withPorts _ _
  · exact calm_withPorts _ _
  · exact (calm_withPorts _ _).trans (calm_withPorts _ _)

theorem calm_takeSync (s : State) (gap : Time) (set : PortFrame) : Calm s (s.takeSync gap set) := by
  unfold State.takeSync
  have sent : ∀ u : State, Calm u (match PortFrame.port set with | .p2 => u.withPorts u.ports.sendUplink | .p0 | .p1 => u) := by
    intro u
    split
    · exact calm_withPorts _ _
    all_goals exact .refl u
  exact .ite (fun _ => .refl s) fun _ => (steady_reach s _).toCalm.trans ((calm_withTracker _ _ _).trans (sent _))

theorem steady_takeSync (s : State) (gap : Time) (set : PortFrame) : Steady s (s.takeSync gap set) := by
  by_cases hr : s.power.state = .run
  · exact (calm_takeSync s gap set).of_run hr
  · rw [State.takeSync, if_pos hr]
    exact .refl s

theorem calm_takeOverdue (s : State) (p : Port) : Calm s (s.takeOverdue p) := by
  unfold State.takeOverdue
  refine .ite (fun _ => .refl s) fun _ => ?_
  split
  · exact .refl s
  · exact .ite (fun _ => .refl s) fun _ => (steady_reach s _).toCalm.trans (calm_withTracker _ _ _)
  all_goals exact (steady_reach s _).toCalm.trans (calm_withTracker _ _ _)

theorem steady_takeOverdue (s : State) (p : Port) : Steady s (s.takeOverdue p) := by
  by_cases hr : s.power.state = .run
  · exact (calm_takeOverdue s p).of_run hr
  · rw [State.takeOverdue, if_pos hr]
    exact .refl s

theorem steady_takeGiveUp (s : State) (p : Port) : Steady s (s.takeGiveUp p) := by
  unfold State.takeGiveUp
  refine .ite (fun h => ?_) fun _ => .refl s
  exact .of_awake ((steady_reach s _).toCalm.trans (calm_withTracker _ _ _)) (s.awake_of_tracker p (by simp [h]))

theorem steady_takeHoldoverTimeout (s : State) (p : Port) : Steady s (s.takeHoldoverTimeout p) := by
  unfold State.takeHoldoverTimeout
  refine .ite (fun h => ?_) fun _ => .refl s
  exact .of_awake ((steady_reach s _).toCalm.trans ((calm_withTracker _ _ _).trans
    (Calm.foldl _ (fun s l => (steady_advise s l _).toCalm) _ _))) (s.awake_of_tracker p (by simp [h]))

/-! ### The tuners' events -/

theorem State.awake_of_tunA {s : State} (h : s.tunA.state ≠ .off) : s.Awake := fun _ k => h k.still.tunA

theorem State.awake_of_tunB {s : State} (h : s.tunB.state ≠ .off) (k : s.tunB.state ≠ .refresh) : s.Awake := fun _ r =>
  r.still.tunB.elim h fun x => k x.1

/-- Tuner B changed in other fields than its state and holder. -/
theorem steady_withTunB (s : State) (x : TunerB) (hs : x.state = s.tunB.state) (hh : x.holder = s.tunB.holder) :
    Steady s (s.withTunB x) := .of_view rfl (by simp [State.restView, hs, hh])

theorem calm_startWalk (s : State) (d : Direction) (f : Freq) : Calm s (s.startWalk d f) :=
  (calm_withTunA _ _).trans (steady_retuned _ _).toCalm

theorem calm_seek (s : State) (d : Direction) : Calm s (s.seek d) := by
  unfold State.seek
  dsimp only
  split
  · exact calm_retuneA _ _ _
  · exact (calm_startWalk _ _ _).trans (steady_reassess _).toCalm

theorem calm_walkMeasured (s : State) (m : Meas) : Calm s (s.walkMeasured m) :=
  .trans (calm_withTunA s _) (.ite (fun _ => calm_retuneA _ _ _) fun _ => .refl _)

theorem calm_walkOn (s : State) : Calm s s.walkOn := by
  unfold State.walkOn
  split
  · exact .ite (fun _ => calm_retuneA _ _ _) fun _ => calm_withTunA _ _
  · exact .refl s

theorem steady_seekChannelEnd (s : State) (m : Option Meas) : Steady s (s.seekChannelEnd m) := by
  unfold State.seekChannelEnd
  refine .ite (fun _ => .refl s) fun h => .of_awake (.trans (steady_reach s (s.tunA.rx.since + milliseconds 8)).toCalm ?_)
    (State.awake_of_tunA (by simp_all))
  generalize s.reach (s.tunA.rx.since + milliseconds 8) = u
  have measured : Calm u (match m with | some m => u.walkMeasured m | none => u) := by
    split
    · exact calm_walkMeasured _ _
    · exact .refl u
  exact measured.trans (.ite (fun _ => calm_walkOn _) fun _ => .refl _)

theorem calm_considerSwitch (s : State) : Calm s s.considerSwitch := by
  unfold State.considerSwitch
  refine .ite (fun _ => .refl s) fun _ => .ite (fun _ => ?_) fun _ => ?_
  all_goals split <;> exact calm_withTunA _ _

theorem calm_tunedMeasured (s : State) (m : Meas) : Calm s (s.tunedMeasured m) :=
  .trans (calm_withTunA s _) (.trans (calm_withTunA _ _) (.ite (fun _ => calm_considerSwitch _) fun _ => .refl _))

theorem steady_measuredA (s : State) (m : Meas) : Steady s (s.measuredA m) := by
  have timed : ∀ t u, Calm (s.reach t) u → Calm s u := fun t u => (steady_reach s t).toCalm.trans
  unfold State.measuredA
  split <;> rename_i h
  · exact .of_awake (timed _ _ (calm_tunedMeasured _ _)) (State.awake_of_tunA (by simp [h]))
  · exact .ite (fun _ => .of_awake (timed _ _ (calm_withTunA _ _)) (State.awake_of_tunA (by simp [h]))) fun _ => .refl s
  · exact .ite (fun _ => .of_awake (timed _ _ (calm_withTunA _ _)) (State.awake_of_tunA (by simp [h]))) fun _ => .refl s
  · exact .of_awake (timed _ _ (calm_walkMeasured _ _)) (State.awake_of_tunA (by simp [h]))
  all_goals exact .refl s

theorem steady_measuredB (s : State) (m : Meas) : Steady s (s.measuredB m) := by
  have timed : Steady s ((s.reach s.tunB.rx.due).withTunB
      { (s.reach s.tunB.rx.due).tunB with
        rx := (s.reach s.tunB.rx.due).tunB.rx.measureReleased m (s.reach s.tunB.rx.due).clock.now }) :=
    (steady_reach s _).trans (steady_withTunB _ _ rfl rfl)
  exact .ite (fun _ => timed)
    fun _ => .ite (fun _ => (steady_reach s _).trans (steady_withTunB _ _ rfl rfl)) fun _ => .refl s

theorem calm_tuneDone (s : State) (r : TuneCause × TuneResult) : Calm s (s.tuneDone r) :=
  (calm_withTunA _ _).trans (steady_riseAll _ _).toCalm

theorem steady_settledA (s : State) (m : Meas) : Steady s (s.settledA m) := by
  unfold State.settledA
  split <;> rename_i h
  · refine .of_awake (.trans (steady_reach s (s.tunA.rx.since + milliseconds 12)).toCalm ?_)
      (State.awake_of_tunA (by simp [h]))
    generalize s.reach (s.tunA.rx.since + milliseconds 12) = u
    dsimp only
    split
    · exact (calm_withTunA _ _).trans (calm_tuneDone _ _)
    · exact calm_withTunA _ _
  · exact .ite (fun _ => .refl s)
      fun _ => .of_awake ((steady_reach s _).toCalm.trans (calm_withTunA _ _)) (State.awake_of_tunA (by simp [h]))
  all_goals exact .refl s

theorem steady_settledB (s : State) (m : Meas) : Steady s (s.settledB m) :=
  .ite (fun _ => (steady_reach s _).trans (steady_withTunB _ _ rfl rfl)) fun _ => .refl s

theorem steady_rejectCandidate (s : State) : Steady s s.rejectCandidate := by
  unfold State.rejectCandidate
  refine .ite (fun _ => steady_withRadio _ _) fun _ => ?_
  split
  · exact steady_withRadio _ _
  · exact .refl s

theorem calm_failVerify (s : State) : Calm s s.failVerify :=
  (steady_rejectCandidate s).toCalm.trans (.trans (t := State.tuneA _ _ _) (calm_withTunA _ _) (calm_withTunA _ _))

theorem calm_passVerify (s : State) (d : Decoder) : Calm s (s.passVerify d) := (calm_withTunA s _).trans (calm_tuneDone _ _)

theorem calm_judgeIdentity (s : State) : Calm s s.judgeIdentity := by
  unfold State.judgeIdentity
  split
  · exact .ite (fun _ => calm_passVerify _ _) fun _ => calm_failVerify _
  · exact .refl s

theorem TunerA.prefading_state {t : TunerA} (h : t.prefading = true) : t.state = .afCheck := by
  simp only [TunerA.prefading, Bool.and_eq_true, decide_eq_true_eq] at h
  exact h.1

theorem steady_prefadeEnd (s : State) : Steady s s.prefadeEnd := by
  unfold State.prefadeEnd
  refine .ite (fun _ => .refl s) fun h => .of_awake (.trans (steady_reach s (s.tunA.rx.since + milliseconds 17)).toCalm ?_)
    (State.awake_of_tunA (by simp [TunerA.prefading_state (by simpa using h)]))
  exact .ite (fun _ => calm_withTunA _ _) fun _ => calm_withTunA _ _

theorem steady_checkMeasured (s : State) (m : Meas) : Steady s (s.checkMeasured m) := by
  unfold State.checkMeasured
  refine .ite (fun h => .of_awake (.trans (steady_reach s (s.tunA.rx.since + milliseconds 5)).toCalm ?_)
    (State.awake_of_tunA (by simp [h.1]))) fun _ => .refl s
  exact .ite (fun _ => (calm_withTunA _ _).trans (calm_judgeIdentity _)) fun _ => calm_withTunA _ _

theorem steady_gapEnded (s : State) : Steady s s.gapEnded :=
  .ite (fun h => .of_awake ((steady_reach s _).toCalm.trans (calm_withTunA _ _)) (State.awake_of_tunA (by simp [h.1])))
    fun _ => .refl s

theorem steady_verifyTimedOut (s : State) : Steady s s.verifyTimedOut :=
  .ite (fun h => .of_awake ((steady_reach s _).toCalm.trans (calm_failVerify _)) (State.awake_of_tunA (by simp [h])))
    fun _ => .refl s

theorem TunerA.off_of_not_decodes {t : TunerA} (h : t.decodes = true) : t.state ≠ .off := fun k => by
  simp [TunerA.decodes, k] at h

theorem steady_groupA (s : State) (g : DataGroup) : Steady s (s.groupA g) :=
  .ite (fun h => .of_awake ((calm_withTunA s _).trans (calm_judgeIdentity _))
    (State.awake_of_tunA (TunerA.off_of_not_decodes h))) fun _ => .refl s

theorem steady_groupB (s : State) (g : DataGroup) : Steady s (s.groupB g) :=
  .ite (fun _ => steady_withTunB _ _ rfl rfl) fun _ => .refl s

theorem calm_setReceiver (s : State) (t : TunerId) (r : Receiver) : Calm s (s.setReceiver t r) := by
  cases t
  · exact calm_withTunA _ _
  · exact calm_withTunB _ _

theorem calm_dataLapsed (s : State) (t : TunerId) : Calm s (s.dataLapsed t) :=
  .ite (fun _ => .refl s) fun _ => (steady_reach s _).toCalm.trans (calm_setReceiver _ _ _)

/-- Outside RUN Tuner A has no data to lapse. -/
theorem steady_dataLapsed (s : State) (t : TunerId) : Steady s (s.dataLapsed t) := by
  match t with
  | .a =>
    refine ⟨calm_dataLapsed s .a, fun _ _ h => ?_⟩
    have hd : s.tunA.rx.decoder = .empty := h.still.data
    have : s.dataLapsed .a = s := if_pos (by rw [State.receiver, hd]; rfl)
    exact this.symm ▸ h
  | .b =>
    exact .ite (fun _ => .refl s) fun _ => (steady_reach s _).trans (steady_withTunB _ _ rfl rfl)

theorem steady_changedList (s : State) (xs : List Entry) : Steady s (s.changedList xs) :=
  (steady_withRadio s _).trans (steady_withTunB _ _ rfl rfl)

theorem steady_updateChannel (s : State) : Steady s s.updateChannel := by
  unfold State.updateChannel
  dsimp only
  split
  · exact .ite (fun _ => .ite (fun _ => steady_changedList _ _) fun _ => steady_withRadio _ _) fun _ => steady_withRadio _ _
  · refine .ite (fun _ => ?_) fun _ => .refl s
    split
    · exact steady_changedList _ _
    · exact .refl s

theorem steady_startTimer (s : State) : Steady s s.startTimer := steady_withPower _ _ rfl

theorem steady_stopTimer (s : State) : Steady s s.stopTimer := steady_withPower _ _ rfl

theorem steady_endSweep (s : State) : Steady s s.endSweep := by
  unfold State.endSweep
  dsimp only
  generalize hu : (if (_ || s.tunB.changed) = true then _ else _) = u
  have told : Steady s u := by
    subst hu
    exact .ite (fun _ => (steady_withRadio _ _).trans (steady_riseAll _ _)) fun _ => steady_withRadio _ _
  refine .ite (fun h => .of_awake (told.toCalm.trans (calm_startSweep _ _)) (State.awake_of_tunB (by simp [h]) (by simp [h])))
    fun _ => told.trans (.trans (steady_enterB u .off none (.inr (.inl rfl))) ?_)
  exact .ite (fun _ => steady_withPower _ _ rfl) fun _ => .refl _

theorem steady_sweepOn (s : State) : Steady s s.sweepOn := by
  unfold State.sweepOn
  split
  · exact steady_withTunB _ _ rfl rfl
  · exact steady_endSweep s

theorem steady_sweepChannelEnd (s : State) (m : Option Meas) : Steady s (s.sweepChannelEnd m) := by
  unfold State.sweepChannelEnd
  refine .ite (fun _ => .refl s)
    fun _ => .trans (steady_reach s (s.tunB.rx.since + milliseconds (if s.tunB.dwell then 400 else 8))) ?_
  generalize s.reach (s.tunB.rx.since + milliseconds (if s.tunB.dwell then 400 else 8)) = u
  have measured : Steady u
      (match m with | some m => u.withTunB { u.tunB with rx := u.tunB.rx.measure m u.clock.now } | none => u) := by
    split
    · exact steady_withTunB _ _ rfl rfl
    · exact .refl u
  exact measured.trans
    (.ite (fun _ => steady_withTunB _ _ rfl rfl) fun _ => (steady_updateChannel _).trans (steady_sweepOn _))

theorem steady_countRejections (s : State) : Steady s s.countRejections := (steady_reach s _).trans (steady_withRadio _ _)

end Sys2Proof.Machine
end

section
namespace Sys2Proof.Machine

/-! ### Traffic and Shift Unit: orders and events -/

/-- A Shift Buffer of purpose PAUSE, or of none, in no state of a memo. -/
theorem memoWf_of_pause {t : State} (hp : t.shift.purpose ≠ some .memo)
    (hs : t.shift.state = .off ∨ t.shift.state = .capture ∨ t.shift.state = .replay) : t.memoWf := by
  refine ⟨⟨fun k => absurd k hp, fun k => ?_⟩, fun k => ?_, fun k => absurd k hp⟩
  all_goals rcases hs with hs | hs | hs <;> simp [hs] at k

theorem State.memoWf.not_memo {s : State} (h : s.memoWf) (hs : s.shift.state = .capture ∨ s.shift.state = .replay) :
    s.shift.purpose ≠ some .memo := fun k => by
  have := h.1.1 k
  rcases hs with hs | hs <;> simp [hs] at this

theorem steady_memoTurnedOn (s : State) : Steady s s.memoTurnedOn := by
  unfold State.memoTurnedOn
  split
  · have ha := (State.unheard_some ‹_›).1
    exact .of_awake (calm_considerMemo _ ha) (State.awake_of_announcing ha)
  · exact .refl s

theorem steady_setTraffic (s : State) (on memo : Bool) : Steady s (s.setTraffic on memo) := by
  unfold State.setTraffic
  dsimp only
  have assessed : Steady s (s.withTraffic { s.traffic with on := on, memo := memo }).reassess :=
    (steady_withTraffic s { s.traffic with on := on, memo := memo } rfl rfl).trans (steady_reassess _)
  generalize (s.withTraffic { s.traffic with on := on, memo := memo }).reassess = u at assessed ⊢
  have dropped : Steady s
      (if s.traffic.on && !on && u.shift.purpose = some .memo then u.discard .trafficOff else u) :=
    .ite (fun _ => assessed.trans (steady_discard _ _)) fun _ => assessed
  exact .ite (fun _ => dropped.trans (steady_memoTurnedOn _)) fun _ => dropped

theorem steady_pauseReplay {s : State} (h : s.shift.state = .replay) : Steady s s.pauseReplay := by
  refine .trans (t := s.withShift { s.shift with state := .capture, running := true, cause := some .order, drained := false })
    (.of_awake ⟨fun hm => ?_, rfl, rfl⟩ (State.awake_of_shift (by simp [h]))) (steady_setPosted _ _ _)
  exact memoWf_of_pause (hm.not_memo (.inr h)) (.inr (.inl rfl))

theorem steady_resumeReplay {s : State} (h : s.shift.state = .capture) : Steady s s.resumeReplay := by
  refine .trans (t := s.withShift { s.shift with state := .replay, running := false })
    (.of_awake ⟨fun hm => ?_, rfl, rfl⟩ (State.awake_of_shift (by simp [h]))) (steady_setPosted _ _ _)
  exact memoWf_of_pause (hm.not_memo (.inl h)) (.inr (.inr rfl))

/-- A pause that starts in RUN. -/
theorem steady_startPause {s : State} (h : s.power.state = .run) (c : PauseCause) :
    Steady s (s.startCapture .capture .pause (some c) .a) :=
  (calm_startCapture s _ _ _ _ fun _ => memoWf_of_pause (by simp [State.startCapture, State.riseAll, State.offerAll, State.offer,
    Link.every, State.setLink]) (.inr (.inl rfl))).of_run h

theorem steady_pauseBody (b : List Byte) (s : State) : Steady s (pauseBody b s).2 := by
  unfold pauseBody
  repeat' split
  any_goals exact .refl s
  · exact steady_pauseReplay ‹_›
  · exact steady_startPause (by simp_all) _

theorem steady_resumeBody (b : List Byte) (s : State) : Steady s (resumeBody b s).2 := by
  unfold resumeBody
  split
  · exact steady_resumeReplay ‹_›
  · exact .refl s

theorem steady_goLiveBody (b : List Byte) (s : State) : Steady s (goLiveBody b s).2 := by
  unfold goLiveBody
  split
  · exact steady_shiftOff s
  · exact .refl s

theorem steady_eligibleExpired (s : State) : Steady s s.eligibleExpired := by
  unfold State.eligibleExpired
  split
  · rename_i t _
    refine .trans (steady_reach s (t + seconds 2)) ?_
    generalize s.reach (t + seconds 2) = u
    exact (steady_withTraffic u { u.traffic with eligible := false, holdAt := none } rfl rfl).trans (steady_reassess _)
  · exact .refl s

theorem steady_replayDrained (s : State) : Steady s s.replayDrained :=
  .ite (fun _ => steady_shiftOff s) fun _ => .refl s

theorem steady_memoReplayEnded (s : State) : Steady s s.memoReplayEnded :=
  .ite (fun _ => (steady_shiftOff s).trans (steady_dropClaim _ _)) fun _ => .refl s

/-! ### The call -/

theorem steady_changeClaim (s : State) (h : Nat) (f : Claim → Claim) : Steady s (s.changeClaim h f) := steady_setClaim _ _ _

theorem steady_followCallClaim (s : State) (was is : CallPhase) : Steady s (s.followCallClaim was is) :=
  .ite (fun _ => steady_setClaim _ _ _) fun _ => .ite (fun _ => steady_post _ _ _) fun _ => steady_changeClaim _ _ _

theorem steady_callEnteredActive (s : State) : Steady s s.callEnteredActive := by
  refine .ite (fun h => steady_startPause ?_ _) fun _ => .refl s
  simp only [Bool.and_eq_true, decide_eq_true_eq] at h
  obtain ⟨⟨⟨⟨-, running⟩, -⟩, -⟩, -⟩ := h
  exact running

theorem steady_callEnteredIdle (s : State) : Steady s s.callEnteredIdle := by
  refine .ite (fun h => steady_resumeReplay ?_) fun _ => .refl s
  simp only [Bool.and_eq_true, decide_eq_true_eq] at h
  obtain ⟨⟨captured, -⟩, -⟩ := h
  exact captured

theorem steady_enterCall (s : State) (p : CallPhase) : Steady s (s.enterCall p) := by
  unfold State.enterCall
  dsimp only
  have claimed : Steady s ((s.withCall { s.call with state := p }).followCallClaim s.call.state p).tableChanged :=
    (steady_withCall _ _).trans ((steady_followCallClaim _ _ _).trans (steady_tableChanged _))
  split
  · exact claimed.trans (steady_withCall _ _)
  · exact claimed.trans (.trans (t := State.withEcho _ _) (steady_withCall _ _) (steady_callEnteredActive _))
  · exact claimed.trans (steady_withCall _ _)
  · exact claimed.trans (.trans (t := State.withEcho _ _) (steady_withCall _ _) (steady_callEnteredIdle _))

theorem steady_chooseMic (s : State) : Steady s s.chooseMic :=
  .ite (fun _ => .refl s) fun _ => (steady_withCall s _).trans (steady_resetEcho _)

theorem steady_placeCall (s : State) (p : Placement) : Steady s (s.placeCall p) := by
  unfold State.placeCall
  dsimp only
  have placed : Steady s (s.withCall { s.call with placement := p }) := steady_withCall _ _
  generalize s.withCall { s.call with placement := p } = u at placed ⊢
  have claimed : Steady u (if u.call.state = .idle then u
      else (u.changeClaim callHandle fun c => { c with zones := placementZones p }).tableChanged) :=
    .ite (fun _ => .refl u) fun _ => (steady_changeClaim _ _ _).trans (steady_tableChanged _)
  exact placed.trans (claimed.trans ((steady_chooseMic _).trans (steady_resetEcho _)))

theorem steady_placementFallback (s : State) (st : StationId) : Steady s (s.placementFallback st) :=
  .ite (fun _ => steady_placeCall _ _)
    fun _ => (steady_placeCall _ _).trans ((steady_advise _ _ _).trans (steady_advise _ _ _))

theorem steady_setClass (s : State) (st : StationId) (c : JackClass) : Steady s (s.setClass st c) := by
  unfold State.setClass
  refine .ite (fun _ => .refl s) fun _ => .trans (steady_setStation s st { s.station st with jack := c }) ?_
  exact .ite (fun _ => .refl _) fun _ => .ite (fun _ => steady_placementFallback _ _) fun _ => steady_chooseMic _

/-! ### Entering RUN -/

/-- The hub that enters RUN keeps a memo's form. -/
theorem State.enterRun_facts (s : State) (c : EntryCause) :
    (s.memoWf → (s.enterRun c).memoWf) ∧ (s.enterRun c).power.state = .run
      ∧ (s.enterRun c).store.initialising = s.store.initialising := by
  unfold State.enterRun
  dsimp only
  generalize hu : (s.withPower { s.power with state := .run, entry := some c, timer := none }).withClock _ = u
  have kept : (s.memoWf → u.memoWf) ∧ u.power.state = .run ∧ u.store.initialising = s.store.initialising := by
    subst hu; exact ⟨id, rfl, rfl⟩
  have h := calm_retuneA u u.tunA.rx.freq (.runEntry, .resumed)
  exact ⟨h.memo ∘ kept.1, h.power.trans kept.2.1, h.filling.trans kept.2.2⟩

theorem keeps_enterRun {s : State} (c : EntryCause) (hf : s.store.initialising = false) : KeepsParked s (s.enterRun c) :=
  have ⟨hm, hp, hi⟩ := s.enterRun_facts c
  .of_run hm hp (hi.trans hf)

theorem keeps_wake (s : State) (on : Bool) (c : EntryCause) : KeepsParked s (s.wake on c) := by
  unfold State.wake
  split
  · exact keeps_enterRun c (by simp_all)
  · exact .of_steady (.refl s)

theorem keeps_callStateBody (b : List Byte) (s : State) : KeepsParked s (callStateBody b s).2 := by
  unfold callStateBody
  split
  · exact .of_steady (.refl s)
  · split
    · exact .of_steady (.refl s)
    · rename_i p _ _
      refine (KeepsParked.of_steady (steady_enterCall s p)).trans ?_
      dsimp only [answer]
      split
      · exact keeps_wake _ _ _
      · exact .of_steady (.refl _)

/-! ### The rear stations -/

/-- An order that is refused, or that changes nothing. -/
theorem steady_answer (st : Status) (s : State) : Steady s (answer st s).2 := .refl s

/-- An order that is answered after what it does. -/
theorem Steady.answered {s t : State} (h : Steady s t) (st : Status) : Steady s (answer st t).2 := h

theorem steady_setGrace (s : State) (st : StationId) (g : Option Time) : Steady s (s.setGrace st g) := steady_setStation _ _ _

theorem calm_setHolder (s : State) (h : Option StationId) : Calm s (s.setHolder h) := calm_withTunB _ _

theorem State.awake_of_holder {s : State} {st : StationId} (h : s.tunB.holder = some st) : s.Awake := fun _ k => by
  have : s.tunB.holder = none := k.still.holder
  simp [h] at this

theorem steady_endHolding (s : State) : Steady s s.endHolding := by
  unfold State.endHolding
  split
  · exact .refl s
  · rename_i st h
    refine .of_awake (.trans (steady_setGrace s st none).toCalm ?_) (State.awake_of_holder h)
    exact .ite (fun _ => (calm_setHolder _ _).trans (steady_setGrace _ _ _).toCalm)
      fun _ => (calm_setHolder _ _).trans (steady_reassess _).toCalm

theorem calm_lend (s : State) (st : StationId) (f : Freq) : Calm s (s.lend st f) := by
  unfold State.lend
  have lent : Calm s (if s.tunB.holder = some st then s else (s.setHolder (some st)).setGrace st (s.graceOf st)) :=
    .ite (fun _ => .refl s) fun _ => (calm_setHolder _ _).trans (steady_setGrace _ _ _).toCalm
  exact lent.trans ((calm_enterB _ _ _).trans (steady_reassess _).toCalm)

/-- Tuner B is lent in no state that it has outside RUN. -/
theorem State.awake_of_mayLend {s : State} {st : StationId} (h : s.mayLend st = .done) : s.Awake :=
  State.awake_of_tunB (fun k => by simp [State.mayLend, k] at h) fun k => by simp [State.mayLend, k] at h

theorem steady_setSource (s : State) (st : StationId) (src : Source) : Steady s (s.setSource st src) :=
  .ite (fun _ => (steady_setStation s st { s.station st with source := src }).trans (steady_endHolding _))
    fun _ => steady_setStation _ _ _

theorem steady_stationSourceBody (l : Link) (b : List Byte) (s : State) : Steady s (stationSourceBody l b s).2 := by
  unfold stationSourceBody
  repeat' split
  any_goals with_reducible exact steady_answer _ _
  exact steady_setSource _ _ _

theorem steady_stationTuneBody (l : Link) (b : List Byte) (s : State) : Steady s (stationTuneBody l b s).2 := by
  unfold stationTuneBody
  repeat' split
  any_goals with_reducible exact steady_answer _ _
  exact .of_awake (calm_lend _ _ _) (State.awake_of_mayLend ‹_›)

theorem keeps_inserted (s : State) (st : StationId) : KeepsParked s (s.inserted st) := by
  unfold State.inserted
  split
  · exact .of_steady (.refl s)
  · exact (KeepsParked.of_steady ((steady_setStation _ _ _).trans (steady_setStation _ _ _))).trans (keeps_wake _ _ _)

theorem steady_removed (s : State) (st : StationId) : Steady s (s.removed st) := by
  unfold State.removed
  refine .ite (fun _ => .refl s) fun _ => ?_
  dsimp only
  generalize hu : (s.setStation st { s.station st with inserted := false, measuring := false }).setClass st .vacant = u
  have opened : Steady s u := hu ▸ (steady_setStation _ _ _).trans (steady_setClass _ _ _)
  exact .ite (fun _ => opened.trans (steady_setGrace _ _ _)) fun _ => opened

theorem steady_measured (s : State) (st : StationId) (load1 load2 : Nat) (mic : Bool) :
    Steady s (s.measured st load1 load2 mic) := by
  unfold State.measured
  exact .ite (fun _ => .refl s) fun _ => (steady_reach s _).trans ((steady_setStation _ _ _).trans (steady_setClass _ _ _))

theorem steady_graceExpired (s : State) (st : StationId) : Steady s (s.graceExpired st) := by
  unfold State.graceExpired
  split
  · exact .ite (fun _ => (steady_reach s _).trans (steady_endHolding _)) fun _ => .refl s
  · exact .refl s

/-! ### The other orders of these blocks -/

theorem steady_selectSource (s : State) (src : Source) : Steady s (s.selectSource src) :=
  have selected : Steady s (s.withMix { s.mix with selected := src }) := .of_view rfl rfl
  .ite (fun _ => selected.trans (steady_discard _ _)) fun _ => selected

theorem steady_setProgramBody (b : List Byte) (s : State) : Steady s (setProgramBody b s).2 := by
  unfold setProgramBody
  repeat' split
  any_goals with_reducible exact steady_answer _ _
  exact steady_selectSource _ _

theorem steady_setVolumeBody (b : List Byte) (s : State) : Steady s (setVolumeBody b s).2 := by
  unfold setVolumeBody
  repeat' split
  any_goals with_reducible exact steady_answer _ _
  exact steady_withMix _ _ rfl

theorem steady_setTrimBody (b : List Byte) (s : State) : Steady s (setTrimBody b s).2 := by
  unfold setTrimBody
  dsimp only
  repeat' split
  · exact steady_setSink _ _ _ rfl rfl
  · exact steady_withMix _ _ rfl
  · exact steady_withMix _ _ rfl
  · exact steady_withMix _ _ rfl
  · exact steady_answer _ _

theorem Sink.requestDelay_lists (x : Sink) (d : Nat) :
    (x.requestDelay d).list = x.list ∧ (x.requestDelay d).waiting = x.waiting := by
  unfold Sink.requestDelay
  repeat' split
  all_goals exact ⟨rfl, rfl⟩

theorem steady_setDelayBody (b : List Byte) (s : State) : Steady s (setDelayBody b s).2 := by
  unfold setDelayBody
  dsimp only
  repeat' split
  · exact steady_answer _ _
  · exact steady_setSink _ _ _ (Sink.requestDelay_lists _ _).1 (Sink.requestDelay_lists _ _).2
  · exact steady_setSink _ _ _ rfl rfl

theorem steady_setSpeedCurveBody (b : List Byte) (s : State) : Steady s (setSpeedCurveBody b s).2 := by
  unfold setSpeedCurveBody
  repeat' split
  any_goals with_reducible exact steady_answer _ _
  exact steady_withMix _ _ rfl

theorem steady_speedBody (b : List Byte) (s : State) : Steady s (speedBody b s).2 := steady_withMix _ _ rfl

theorem steady_muteBody (l : Link) (g : LinkSet → LinkSet) (b : List Byte) (s : State) : Steady s (muteBody l g b s).2 := by
  unfold muteBody
  repeat' split
  any_goals with_reducible exact steady_answer _ _
  exact steady_withMix _ _ rfl

theorem steady_tuneABody (b : List Byte) (s : State) : Steady s (tuneABody b s).2 := by
  unfold tuneABody
  repeat' split
  any_goals with_reducible exact steady_answer _ _
  exact (calm_retuneA _ _ _).of_run (not_not.1 ‹_›)

theorem steady_seekABody (b : List Byte) (s : State) : Steady s (seekABody b s).2 := by
  unfold seekABody
  repeat' split
  any_goals with_reducible exact steady_answer _ _
  exact (calm_seek _ _).of_run (not_not.1 ‹_›)

theorem steady_presetStoreBody (b : List Byte) (s : State) : Steady s (presetStoreBody b s).2 := by
  unfold presetStoreBody
  dsimp only
  repeat' split
  any_goals with_reducible exact steady_answer _ _
  all_goals exact (steady_withRadio _ _).trans (steady_reassess _)

theorem steady_presetRecallBody (b : List Byte) (s : State) : Steady s (presetRecallBody b s).2 := by
  unfold presetRecallBody
  dsimp only
  repeat' split
  any_goals with_reducible exact steady_answer _ _
  exact (calm_retuneA _ _ _).of_run (not_not.1 ‹_›)

theorem steady_scanPolicyBody (b : List Byte) (s : State) : Steady s (scanPolicyBody b s).2 := by
  unfold scanPolicyBody
  repeat' split
  any_goals with_reducible exact steady_answer _ _
  exact (steady_withRadio _ _).trans (steady_reassess _)

theorem steady_afPolicyBody (b : List Byte) (s : State) : Steady s (afPolicyBody b s).2 := by
  unfold afPolicyBody
  dsimp only
  repeat' split
  any_goals with_reducible exact steady_answer _ _
  · exact steady_withRadio _ _
  · exact .of_view rfl rfl

theorem steady_listReadBody (b : List Byte) (s : State) : Steady s (listReadBody b s).2 := by
  unfold listReadBody
  dsimp only
  split <;> exact .refl s

theorem steady_trafficModeBody (b : List Byte) (s : State) : Steady s (trafficModeBody b s).2 := by
  unfold trafficModeBody
  repeat' split
  any_goals with_reducible exact steady_answer _ _
  exact steady_setTraffic _ _ _

theorem steady_shiftPolicyBody (b : List Byte) (s : State) : Steady s (shiftPolicyBody b s).2 := by
  unfold shiftPolicyBody
  repeat' split
  any_goals with_reducible exact steady_answer _ _
  exact steady_withTraffic _ _ rfl rfl

theorem steady_callPlaceBody (b : List Byte) (s : State) : Steady s (callPlaceBody b s).2 := by
  unfold callPlaceBody
  repeat' split
  any_goals with_reducible exact steady_answer _ _
  exact steady_placeCall _ _

theorem steady_micSelectBody (b : List Byte) (s : State) : Steady s (micSelectBody b s).2 := by
  unfold micSelectBody
  dsimp only
  repeat' split
  any_goals with_reducible exact steady_answer _ _
  all_goals exact (steady_withCall _ _).trans (steady_chooseMic _)

theorem steady_stationVolumeBody (l : Link) (b : List Byte) (s : State) : Steady s (stationVolumeBody l b s).2 := by
  unfold stationVolumeBody
  repeat' split
  any_goals with_reducible exact steady_answer _ _
  exact steady_setStation _ _ _

theorem steady_stationSwapBody (l : Link) (b : List Byte) (s : State) : Steady s (stationSwapBody l b s).2 := by
  unfold stationSwapBody
  repeat' split
  any_goals with_reducible exact steady_answer _ _
  exact steady_setStation _ _ _

theorem steady_jackMeasureBody (l : Link) (b : List Byte) (s : State) : Steady s (jackMeasureBody l b s).2 := by
  unfold jackMeasureBody
  repeat' split
  any_goals with_reducible exact steady_answer _ _
  exact steady_setStation _ _ _

theorem steady_rearLockBody (b : List Byte) (s : State) : Steady s (rearLockBody b s).2 := by
  unfold rearLockBody
  repeat' split
  any_goals with_reducible exact steady_answer _ _
  exact steady_withStations _ _

theorem steady_windowJudged (s : State) : Steady s s.windowJudged :=
  .ite (fun _ => steady_withCall _ _) fun _ => .refl s

end Sys2Proof.Machine
end

section
namespace Sys2Proof.Machine

/-! ### The voices -/

/-- The blocks from which `State.restView` takes nothing. -/
theorem restView_of_happens {bs : List Block} {s t : State} (h : Happens bs s t)
    (hs : bs ⊆ [.clock, .table, .radio, .traffic, .shift, .call, .stations, .store, .power]) : t.restView = s.restView := by
  have same : ∀ b, b ∉ Block.links :: [.clock, .table, .radio, .traffic, .shift, .call, .stations, .store, .power] →
      s.sameBlock t b := fun b hb => h.blocks.2 b fun k => hb (List.cons_subset_cons _ hs k)
  have hports : t.ports = s.ports := same .ports (by decide)
  have hmix : t.mix = s.mix := same .mix (by decide)
  have hA : t.tunA = s.tunA := same .tunA (by decide)
  have hB : t.tunB = s.tunB := same .tunB (by decide)
  have hch : t.chime = s.chime := same .chime (by decide)
  simp [State.restView, *]

theorem State.tableChanged_restView (s : State) : s.tableChanged.restView = s.restView :=
  restView_of_happens (happens_tableChanged s) (by simp [tableFollowers])

theorem State.retuned_restView (s : State) (t : TunerId) : (s.retuned t).restView = s.restView :=
  restView_of_happens (happens_retuned s t) (by simp [tableFollowers])

theorem State.awake_of_voice {s : State} (n : Fin 4) (h : (s.voice n.val).state ≠ .idle) : s.Awake := fun _ k =>
  h ((s.voice_state n.val).trans (k.still.voices n))

theorem calm_setVoice (s : State) (n : Nat) (v : Voice) : Calm s (s.setVoice n v) := calm_withChime _ _

theorem steady_postVoice (s : State) (n : Fin 4) : Steady s (s.postVoice n) := steady_setPosted _ _ _

theorem steady_keepRequest (s : State) (n : Fin 4) : Steady s (s.keepRequest n) :=
  .ite (fun _ => .refl s) fun _ => steady_setPosted _ _ _

theorem steady_setEnded (s : State) (l : Link) (e : Ended) : Steady s (s.setEnded l e) := steady_withChime _ _ rfl

theorem steady_chimeEnded (s : State) (l : Link) (e : Ended) : Steady s (s.chimeEnded l e) :=
  (steady_setEnded _ _ _).trans (steady_notice _ _ _)

theorem steady_requestEnded (s : State) (r : Request) (c : EndCause) : Steady s (s.requestEnded r c) := steady_chimeEnded _ _ _

theorem calm_startVoice (s : State) (n : Fin 4) (r : Request) (d : Descriptor) : Calm s (s.startVoice n r d) := by
  unfold State.startVoice
  exact (calm_withChime s _).trans ((calm_setVoice _ _ _).trans ((steady_post _ _ _).toCalm.trans
    ((calm_tableChanged _).trans (steady_postVoice _ _).toCalm)))

theorem steady_stopVoice (s : State) (n : Fin 4) (c : EndCause) : Steady s (s.stopVoice n c) := by
  unfold State.stopVoice
  refine .ite (fun h => .of_awake ?_ (s.awake_of_voice n fun k => by simp [k] at h)) fun _ => .refl s
  exact (calm_setVoice _ _ _).trans ((calm_changeClaim _ _ _).trans (steady_keepRequest _ _).toCalm)

theorem calm_takeQueue (n : Fin 4) (rs : List Request) (s : State) : Calm s (State.takeQueue n rs s) := by
  induction rs generalizing s with
  | nil => exact .refl s
  | cons r rest ih =>
    unfold State.takeQueue
    refine .trans (calm_withChime s { s.chime with queue := rest }) ?_
    dsimp only
    split
    · exact calm_startVoice _ _ _ _
    · exact (steady_requestEnded _ _ _).toCalm.trans (ih _)

theorem calm_takeNext (s : State) (n : Fin 4) (r : Option Request) : Calm s (s.takeNext n r) := by
  unfold State.takeNext
  split
  · split
    · exact calm_startVoice _ _ _ _
    · exact (steady_requestEnded _ _ _).toCalm.trans (calm_takeQueue _ _ _)
  · exact calm_takeQueue _ _ _

/-- The report of a voice's end. -/
theorem steady_endReport (s : State) (v : Voice) (n : Fin 4) (c : EndCause) : Steady s
    (match v.starter, v.desc with
      | some l, some d =>
        if v.cause = some EndCause.reset then s.setEnded l ⟨d, some n, c⟩ else s.chimeEnded l ⟨d, some n, c⟩
      | _, _ => s) := by
  split
  · exact .ite (fun _ => steady_setEnded _ _ _) fun _ => steady_chimeEnded _ _ _
  · exact .refl s

theorem calm_endVoice (s : State) (n : Fin 4) (c : EndCause) : Calm s (s.endVoice n c) := by
  unfold State.endVoice
  exact (steady_dropClaim _ _).toCalm.trans ((steady_endReport _ _ _ _).toCalm.trans
    ((calm_setVoice _ _ _).trans (steady_keepRequest _ _).toCalm))

theorem steady_reachIdle (s : State) (n : Fin 4) : Steady s (s.reachIdle n) :=
  .ite (fun h => .of_awake ((calm_endVoice _ _ _).trans (calm_takeNext _ _ _)) (s.awake_of_voice n fun k => by simp [k] at h))
    fun _ => .refl s

theorem calm_chainStep (s : State) (n : Fin 4) (d : Descriptor) (next : Option Nat) : Calm s (s.chainStep n d next) := by
  unfold State.chainStep
  dsimp only
  split
  · split
    · exact (calm_setVoice _ _ _).trans ((calm_changeClaim _ _ _).trans (calm_tableChanged _))
    · exact (steady_stopVoice _ _ _).toCalm
  · exact (steady_stopVoice _ _ _).toCalm

theorem steady_playEnded (s : State) (n : Fin 4) : Steady s (s.playEnded n) := by
  unfold State.playEnded
  dsimp only
  split
  · rename_i d _
    refine .ite (fun h => .of_awake (.trans ?_ (steady_keepRequest _ n).toCalm) (s.awake_of_voice n fun k => by simp [k] at h))
      fun _ => .refl s
    refine .trans (calm_setVoice s n.val ((s.voice n.val).restarted d.mode)) ?_
    split
    · exact calm_setVoice _ _ _
    · split
      · exact calm_setVoice _ _ _
      · split
        · exact calm_chainStep _ _ _ _
        · exact (steady_stopVoice _ _ _).toCalm
  · exact .refl s

theorem steady_gapOver (s : State) (n : Fin 4) : Steady s (s.gapOver n) := by
  unfold State.gapOver
  dsimp only
  split
  · exact .ite (fun h => .of_awake ((calm_setVoice _ _ _).trans (steady_postVoice _ _).toCalm)
      (s.awake_of_voice n fun k => by simp [k] at h)) fun _ => .refl s
  · exact .refl s

theorem steady_deadlinePassed (s : State) (n : Fin 4) : Steady s (s.deadlinePassed n) := by
  unfold State.deadlinePassed
  dsimp only
  split
  · exact .ite (fun _ => (steady_reach s _).trans (steady_stopVoice _ _ _)) fun _ => .refl s
  · exact .refl s

theorem steady_withQueue (s : State) (q : List Request) : Steady s (s.withChime { s.chime with queue := q }) :=
  steady_withChime _ _ rfl

theorem steady_emptyQueue (s : State) (c : EndCause) : Steady s (s.emptyQueue c) :=
  (steady_withQueue s []).trans (.foldl _ (fun s r => steady_requestEnded s r c) _ _)

theorem steady_cancelSuccessor (s : State) (p : Request → Bool) (n : Fin 4) : Steady s (s.cancelSuccessor p n) := by
  unfold State.cancelSuccessor
  split
  · exact .ite (fun _ => .trans (steady_setVoice s n.val { s.voice n.val with successor := none } rfl) (steady_requestEnded _ _ _))
      fun _ => .refl s
  · exact .refl s

theorem steady_withdrawQueued (s : State) (p : Request → Bool) : Steady s (s.withdrawQueued p) :=
  (steady_withQueue s _).trans (.foldl _ (fun s r => steady_requestEnded s r _) _ _)

theorem steady_stopWhere (s : State) (v : Voice → Bool) (r : Request → Bool) (c : EndCause) : Steady s (s.stopWhere v r c) := by
  unfold State.stopWhere
  exact (Steady.foldl _ (fun s n => .ite (fun _ => steady_stopVoice s n c) fun _ => .refl s) _ s).trans
    ((steady_withdrawQueued _ _).trans (.foldl _ (fun s n => steady_cancelSuccessor s r n) _ _))

/-! ### The orders of the Chime Player -/

theorem steady_setDesc (s : State) (d : Nat) (x : Descriptor) : Steady s (s.setDesc d x) := steady_withChime _ _ rfl

theorem steady_chimeDefineBody (l : Link) (b : List Byte) (s : State) : Steady s (chimeDefineBody l b s).2 := by
  unfold chimeDefineBody
  dsimp only
  repeat' split
  any_goals with_reducible exact steady_answer _ _
  exact steady_setDesc _ _ _

theorem steady_preempt (s : State) (n : Fin 4) (r : Request) : Steady s (s.preempt n r) := by
  unfold State.preempt
  have stopped : Steady s ((s.stopVoice n .preempted).setVoice n.val
      { (s.stopVoice n .preempted).voice n.val with successor := some r }) :=
    (steady_stopVoice _ _ _).trans (steady_setVoice _ _ _ rfl)
  dsimp only
  split
  · exact stopped.trans (steady_advise _ _ _)
  · exact stopped

theorem calm_requestChime (s : State) (l : Link) (d : Nat) (x : Descriptor) : Calm s (s.requestChime l d x).2 := by
  unfold State.requestChime
  repeat' split
  · exact calm_withChime _ _
  · exact .refl s
  · exact calm_startVoice _ _ _ _
  · exact (steady_preempt _ _ _).toCalm
  · exact calm_withChime _ _
  · exact .refl s

theorem State.wake_run (s : State) (c : EntryCause) (hf : s.store.initialising = false) :
    (s.wake true c).power.state = .run := by
  unfold State.wake
  split
  · exact (s.enterRun_facts c).2.1
  · simp_all

theorem keeps_chimeStartBody (l : Link) (b : List Byte) (s : State) : KeepsParked s (chimeStartBody l b s).2 := by
  unfold chimeStartBody
  dsimp only
  repeat' split
  any_goals with_reducible exact .of_steady (steady_answer _ _)
  exact (keeps_wake _ _ _).trans (.of_steady ((calm_requestChime _ _ _ _).of_run (s.wake_run _ (by simp_all))))

theorem steady_chimeStopBody (b : List Byte) (s : State) : Steady s (chimeStopBody b s).2 := by
  unfold chimeStopBody
  dsimp only
  repeat' split
  any_goals with_reducible exact steady_answer _ _
  exact (steady_stopWhere _ _ _ _).answered _

theorem steady_chimeStopAllBody (b : List Byte) (s : State) : Steady s (chimeStopAllBody b s).2 :=
  (steady_stopWhere _ _ _ _).answered _

theorem steady_renew (s : State) (d : Nat) (t : Option Time) : Steady s (s.withChime (s.chime.renew d t)) := by
  refine steady_withChime _ _ ?_
  simp only [Chime.renew, List.map_map]
  refine List.map_congr_left fun v _ => ?_
  simp only [Function.comp_apply]
  split <;> rfl

theorem steady_chimeRenewBody (b : List Byte) (s : State) : Steady s (chimeRenewBody b s).2 := by
  unfold chimeRenewBody
  dsimp only
  repeat' split
  any_goals with_reducible exact steady_answer _ _
  exact steady_renew _ _ _

theorem steady_chimeReadBody (b : List Byte) (s : State) : Steady s (chimeReadBody b s).2 := by
  unfold chimeReadBody
  repeat' split
  all_goals exact .refl s

/-! ### The Sample Store -/

theorem steady_withDescs (s : State) (x : List (Option Descriptor)) : Steady s (s.withChime { s.chime with descs := x }) :=
  steady_withChime _ _ rfl

theorem steady_moveBounds (s : State) (u0 u1 : Nat) : Steady s (s.moveBounds u0 u1).2 := by
  unfold State.moveBounds
  dsimp only
  generalize hu : List.foldl _ _ Link.every = u
  have told : Steady s u := by
    rw [← hu]
    refine .trans (steady_withStore s { s.store with u0 := u0, u1 := u1 } rfl)
      (.trans (steady_withDescs _ (s.chime.descs.map { s.store with u0 := u0, u1 := u1 : Store }.settle)) ?_)
    exact .foldl _ (fun s l => .ite (fun _ => .refl s) fun _ => steady_advise _ _ _) _ _
  exact .ite (fun _ => told.trans (steady_discard _ _)) fun _ => told

theorem steady_regionSetBody (b : List Byte) (s : State) : Steady s (regionSetBody b s).2 := by
  unfold regionSetBody
  dsimp only
  repeat' split
  any_goals with_reducible exact steady_answer _ _
  exact steady_moveBounds _ _ _

theorem Store.setRight_initialising (st : Store) (r : Region) (l : Link) (x : Right) :
    (st.setRight r l x).initialising = st.initialising := by cases r <;> rfl

theorem steady_rightsSetBody (b : List Byte) (s : State) : Steady s (rightsSetBody b s).2 := by
  unfold rightsSetBody
  repeat' split
  any_goals with_reducible exact steady_answer _ _
  exact steady_withStore _ _ (Store.setRight_initialising _ _ _ _)

theorem steady_setChannel (s : State) (l : Link) (c : Option Channel) : Steady s (s.setChannel l c) := steady_withStore _ _ rfl

theorem steady_setWaiting (s : State) (l : Link) (x : Option Transfer) : Steady s (s.setWaiting l x) := steady_withStore _ _ rfl

theorem steady_storeOpenBody (l : Link) (b : List Byte) (s : State) : Steady s (storeOpenBody l b s).2 := by
  unfold storeOpenBody
  dsimp only
  repeat' split
  any_goals with_reducible exact steady_answer _ _
  exact steady_setChannel _ _ _

theorem steady_awaitWords (s : State) (l : Link) (ws : List Word) (n : Nat) : Steady s (s.awaitWords l ws n).2 :=
  .ite (fun _ => .refl s) fun _ => steady_setWaiting _ _ _

theorem steady_storeDataBody (l : Link) (x : DataForm) (s : State) : Steady s (storeDataBody l x s).2 := by
  unfold storeDataBody
  repeat' split
  any_goals with_reducible exact steady_answer _ _
  all_goals exact steady_awaitWords _ _ _ _

theorem steady_storeCloseBody (l : Link) (b : List Byte) (s : State) : Steady s (storeCloseBody l b s).2 := by
  unfold storeCloseBody
  repeat' split
  any_goals with_reducible exact steady_answer _ _
  exact steady_setChannel _ _ _

theorem steady_deliver (s : State) (l : Link) (ws : List Word) : Steady s (s.deliver l ws) := by
  unfold State.deliver
  split
  · exact steady_setSlot _ _ _
  · exact .refl s

theorem steady_burst (s : State) (l : Link) (c : Channel) (x : Transfer) : Steady s (s.burst l c x) := by
  unfold State.burst
  dsimp only
  generalize hst : (if c.write then s.store.writeAll c.current (x.words.take (min 32 x.left)) else s.store) = st
  have filling : st.initialising = s.store.initialising := by
    rw [← hst]
    split
    · rw [Store.writeAll_fields]
    · rfl
  generalize hu : State.setWaiting _ l _ = u
  have moved : Steady s u := by
    rw [← hu]
    exact .trans (steady_withStore s { st with pointer := nextLink l, posted := List.replicate 6 none } filling)
      ((steady_setChannel _ _ _).trans (steady_setWaiting _ _ _))
  have delivered : ∀ (b : Bool) (ws : List Word), Steady s (if b then u.deliver l ws else u) := fun b ws =>
    .ite (fun _ => moved.trans (steady_deliver _ _ _)) fun _ => moved
  exact .ite (fun _ => (delivered _ _).trans (steady_notice _ _ _)) fun _ => delivered _ _

theorem steady_bulkTurn (s : State) : Steady s s.bulkTurn := by
  unfold State.bulkTurn
  split
  · exact .refl s
  · split
    · exact steady_burst _ _ _ _
    · exact steady_setWaiting _ _ _

theorem steady_bulkTurns (l : Link) (n : Nat) (s : State) : Steady s (State.bulkTurns l n s) := by
  induction n generalizing s with
  | zero => exact .refl s
  | succ n ih => exact .ite (fun _ => (steady_bulkTurn s).trans (ih _)) fun _ => .refl s

theorem steady_moveAll (s : State) (l : Link) : Steady s (s.moveAll l) := steady_bulkTurns _ _ _

theorem steady_replyReady (s : State) (l : Link) : Steady s (s.replyReady l) := by
  unfold State.replyReady
  refine .trans (steady_moveAll s l) ?_
  dsimp only
  split
  · exact .refl _
  · exact steady_setSlot _ _ _

end Sys2Proof.Machine
end

section
namespace Sys2Proof.Machine

/-! ### The frame event -/

theorem steady_settled {f : State → State} (s : State) (h : Steady s (f s)) : Steady s (settled f s) :=
  h.trans (steady_offerEdges _ _)

theorem steady_settleDue (s : State) : Steady s s.settleDue := by
  unfold State.settleDue
  have sinks : ∀ (s : State) (k : Nat), Steady s
      (settled (fun s => s.fadeInEnd k) (settled (fun s => s.fadeOutEnd k) (settled (fun s => s.releaseGuard k) s))) :=
    fun s k => (steady_settled s (steady_releaseGuard s k)).trans
      ((steady_settled _ (steady_fadeOutEnd _ k)).trans (steady_settled _ (steady_fadeInEnd _ k)))
  have plays : ∀ (s : State) (n : Fin 4), Steady s (settled (fun s => s.gapOver n) (settled (fun s => s.playEnded n) s)) :=
    fun s n => (steady_settled s (steady_playEnded s n)).trans (steady_settled _ (steady_gapOver _ n))
  have ends : ∀ (s : State) (n : Fin 4), Steady s (settled (fun s => s.reachIdle n) s) :=
    fun s n => steady_settled s (steady_reachIdle s n)
  exact (steady_settled s (steady_windowJudged s)).trans ((Steady.foldl _ sinks _ _).trans
    ((steady_settled _ (steady_replayDrained _)).trans ((steady_settled _ (steady_memoReplayEnded _)).trans
      ((Steady.foldl _ plays _ _).trans (Steady.foldl _ ends _ _)))))

/-- A Shift Buffer changed in its positions, fill and marks alone. -/
theorem calm_withShift (s : State) (b : ShiftBuffer) (hs : b.state = s.shift.state) (hp : b.purpose = s.shift.purpose) :
    Calm s (s.withShift b) := .of_view (by simp [State.calmView, hs, hp])

theorem calm_afterReplay (s : State) : Calm s s.afterReplay :=
  .ite (fun _ => calm_withShift _ _ rfl rfl) fun _ => .refl s

theorem calm_record (s : State) (w : Word) : Calm s (s.record w) := by
  unfold State.record
  dsimp only
  have stored : Calm s (s.withStore (s.store.write (s.shift.write.getD s.store.shiftFirst) w)) :=
    (steady_withStore s (s.store.write _ w) rfl).toCalm
  have shifted : ∀ b : ShiftBuffer, b.state = s.shift.state → b.purpose = s.shift.purpose →
      Calm s ((s.withStore (s.store.write (s.shift.write.getD s.store.shiftFirst) w)).withShift b) :=
    fun b hs hp => stored.trans (calm_withShift _ b hs hp)
  refine .ite (fun _ => shifted _ rfl rfl) fun _ => .ite (fun _ => shifted _ rfl rfl) fun _ => ?_
  refine .trans ?_ (steady_riseAll _ 4).toCalm
  exact shifted _ rfl rfl

theorem calm_capture (s : State) (offers : Offers) : Calm s (s.capture offers) := by
  unfold State.capture
  refine .ite (fun _ => ?_) fun _ => .refl s
  split
  · exact .foldl _ calm_record _ _
  · exact .refl s

theorem calm_cancel (s : State) (x : FrameInput) : Calm s (s.cancel x) :=
  .ite (fun _ => (steady_withCall _ _).toCalm) fun _ => (steady_withCall _ _).toCalm

theorem calm_handUplink (s : State) : Calm s s.handUplink := .ite (fun _ => calm_withPorts _ _) fun _ => .refl s

theorem calm_conference (s : State) (x : FrameInput) : Calm s (s.conference x) := by
  unfold State.conference
  exact .ite (fun _ => .refl s) fun _ => (steady_withCall _ _).toCalm.trans (steady_withCall _ _).toCalm

theorem calm_postStreams (s : State) : Calm s s.postStreams := by
  unfold State.postStreams
  have cleared : Calm s (s.withStore { s.store with posted := List.replicate 6 none }) :=
    (steady_withStore s { s.store with posted := List.replicate 6 none } rfl).toCalm
  exact cleared.trans ((steady_setPosted _ _ _).toCalm.trans ((calm_postReplay _).trans
    (Calm.foldl _ (fun s n => (steady_postVoice s n).toCalm) _ _)))

theorem steady_clearFast (s : State) : Steady s s.clearFast := .of_view rfl rfl

theorem calm_nextFrame (s : State) : Calm s s.nextFrame :=
  (calm_withPorts s _).trans ((steady_withClock _ _).toCalm.trans (steady_clearFast _).toCalm)

theorem calm_frame (s : State) (x : FrameInput) : Calm s (s.frame x) := by
  unfold State.frame
  exact (calm_withMix s _).trans ((calm_afterReplay _).trans ((calm_capture _ _).trans ((steady_withCall _ _).toCalm.trans
    ((calm_cancel _ _).trans ((calm_handUplink _).trans ((calm_conference _ _).trans ((steady_withStations _ _).toCalm.trans
      ((calm_withChime _ _).trans ((calm_postStreams _).trans (calm_nextFrame _))))))))))

theorem steady_frameEvent (s : State) (x : FrameInput) : Steady s (s.frameEvent x) := by
  by_cases hr : s.power.state = .run
  · rw [State.frameEvent, if_neg (not_not.2 hr)]
    exact ((steady_settleDue s).toCalm.trans ((steady_reach _ _).toCalm.trans (calm_frame _ x))).of_run hr
  · rw [State.frameEvent, if_pos hr]
    exact .refl s

/-! ### Leaving RUN -/

/-- What a reassessment leaves standing still outside RUN, an announcement in progress brought to its end. -/
theorem State.reassess_atRest {s : State} (hp : s.power.state ≠ .run) (h : s.restView.Still s.power.state)
    (ho : s.shift.state = .off) : s.reassess.AtRest := by
  obtain ⟨hc, hr⟩ := s.followEligible_views
  have hpower : s.followEligible.followWatch.power.state = s.power.state := congrArg CalmView.power hc
  have hshift : s.followEligible.followWatch.shift.state = s.shift.state := congrArg CalmView.shift hc
  have hrest : s.followEligible.followWatch.restView = s.restView := hr
  unfold State.reassess
  rw [State.assignB_of_parked (hpower ▸ hp)]
  exact State.followSource_atRest (hrest.symm ▸ hpower.symm ▸ h) (hshift.trans ho)

@[simp] theorem State.setEnded_restView (s : State) (l : Link) (e : Ended) : (s.setEnded l e).restView = s.restView := rfl

@[simp] theorem State.chimeEnded_restView (s : State) (l : Link) (e : Ended) : (s.chimeEnded l e).restView = s.restView := rfl

theorem State.setVoice_restView (s : State) (n : Nat) (v : Voice) :
    (s.setVoice n v).restView = { s.restView with voices := s.restView.voices.set n v.state } := by
  simp [State.setVoice, State.restView, List.map_set]

theorem State.keepRequest_restView (s : State) (n : Fin 4) : (s.keepRequest n).restView = s.restView := by
  unfold State.keepRequest
  split <;> rfl

theorem State.endVoice_restView (s : State) (n : Fin 4) (c : EndCause) :
    (s.endVoice n c).restView = { s.restView with voices := s.restView.voices.set n.val .idle } := by
  unfold State.endVoice
  rw [State.keepRequest_restView, State.setVoice_restView]
  have table : (s.setClaim (voiceHandle n.val) none).tableChanged.restView = s.restView := State.tableChanged_restView _
  split
  · split <;> simp only [State.setEnded_restView, State.chimeEnded_restView, table] <;> rfl
  · simp only [table]
    rfl

theorem State.requestEnded_restView (s : State) (r : Request) (c : EndCause) : (s.requestEnded r c).restView = s.restView := rfl

/-- A voice that is cut is IDLE; nothing else that stands still outside RUN changes. -/
theorem State.cutVoice_restView (s : State) (n : Fin 4) : ∃ vs, (s.cutVoice n).restView = { s.restView with voices := vs }
    ∧ ∀ m : Nat, vs.getD m .idle = if m = n.val then .idle else s.restView.voices.getD m .idle := by
  have cleared : ∀ m : Nat, (s.restView.voices.set n.val .idle).getD m .idle
      = if m = n.val then .idle else s.restView.voices.getD m .idle := by
    intro m
    by_cases hm : m = n.val
    · subst hm
      simp only [List.getD_eq_getElem?_getD, List.getElem?_set, if_true]
      split <;> rfl
    · simp [List.getD_eq_getElem?_getD, Ne.symm hm, hm]
  unfold State.cutVoice
  dsimp only
  split
  · refine ⟨s.restView.voices, rfl, fun m => ?_⟩
    split
    · subst m; rw [← State.voice_state]; assumption
    · rfl
  · refine ⟨_, ?_, cleared⟩
    split
    · rw [State.requestEnded_restView, State.endVoice_restView]
    · rw [State.endVoice_restView]

theorem calm_cutVoice (s : State) (n : Fin 4) : Calm s (s.cutVoice n) := by
  unfold State.cutVoice
  dsimp only
  split
  · exact .refl s
  · split
    · exact (calm_endVoice _ _ _).trans (steady_requestEnded _ _ _).toCalm
    · exact calm_endVoice _ _ _

theorem calm_cutChimes (s : State) : Calm s s.cutChimes :=
  (Calm.foldl _ calm_cutVoice _ _).trans (steady_emptyQueue _ _).toCalm

theorem State.emptyQueue_restView (s : State) (c : EndCause) : (s.emptyQueue c).restView = s.restView := by
  have told : ∀ (rs : List Request) (u : State), (rs.foldl (fun s r => s.requestEnded r c) u).restView = u.restView := by
    intro rs
    induction rs with
    | nil => exact fun _ => rfl
    | cons r rs ih => exact fun u => (ih _).trans (u.requestEnded_restView r c)
  exact told _ _

/-- Every voice is IDLE once the chimes are cut. -/
theorem State.cutChimes_restView (s : State) : ∃ vs, s.cutChimes.restView = { s.restView with voices := vs }
    ∧ ∀ n : Fin 4, vs.getD n.val .idle = .idle := by
  unfold State.cutChimes
  simp only [voiceNumbers, List.foldl_cons, List.foldl_nil, State.emptyQueue_restView]
  obtain ⟨v0, h0, k0⟩ := s.cutVoice_restView 0
  obtain ⟨v1, h1, k1⟩ := (s.cutVoice 0).cutVoice_restView 1
  obtain ⟨v2, h2, k2⟩ := ((s.cutVoice 0).cutVoice 1).cutVoice_restView 2
  obtain ⟨v3, h3, k3⟩ := (((s.cutVoice 0).cutVoice 1).cutVoice 2).cutVoice_restView 3
  refine ⟨v3, by rw [h3, h2, h1, h0], fun n => ?_⟩
  rw [k3, h2]
  dsimp only
  rw [k2, h1]
  dsimp only
  rw [k1, h0]
  dsimp only
  rw [k0]
  fin_cases n <;> rfl

theorem State.enterB_restView (s : State) (st : BState) (f : Option Freq) :
    (s.enterB st f).restView = { s.restView with tunB := st } := State.retuned_restView _ _

theorem steady_endFrames (s : State) : Steady s s.endFrames := by
  unfold State.endFrames
  refine .trans ?_ (steady_clearFast _)
  refine .trans ?_ (steady_withStore _ _ rfl)
  exact (steady_withCall s _).trans (steady_withStations _ _)

end Sys2Proof.Machine
end

section
namespace Sys2Proof.Machine

/-- The blocks that the Mix Engine's stop, the tuners' rest and the trackers' parking leave standing still. -/
theorem State.parkBlocks_still {s : State} (hs : ∀ x ∈ s.restView.sinks, x = ([], []))
    (hv : ∀ n : Fin 4, s.restView.voices.getD n.val .idle = .idle) (p : PowerState) :
    RestView.Still { s.restView with trackers := [.absent, .absent, .absent], tunA := .off, data := .empty, saved := none,
                                     holder := none, tunB := .off } p where
  sinks := hs
  trackers := by simp
  tunA := rfl
  data := rfl
  saved := rfl
  holder := rfl
  tunB := .inl rfl
  voices := hv

/-- The tuners enter OFF, a holding ends and the trackers enter ABSENT. -/
def State.parkTuners (s : State) : State :=
  let s := s.withTunA s.tunA.rest
  let s := s.dropHolder.enterB .off none
  s.withPorts s.ports.parked

theorem calm_dropHolder (s : State) : Calm s s.dropHolder := (calm_withTunB _ _).trans (steady_withStations _ _).toCalm

theorem calm_parkTuners (s : State) : Calm s s.parkTuners :=
  (calm_withTunA s _).trans ((calm_dropHolder _).trans ((calm_enterB _ _ _).trans (calm_withPorts _ _)))

theorem State.parkTuners_restView (s : State) : s.parkTuners.restView =
    { s.restView with trackers := [.absent, .absent, .absent], tunA := .off, data := .empty, saved := none, holder := none,
                      tunB := .off } := by
  have tuners : ((s.withTunA s.tunA.rest).dropHolder.enterB .off none).restView =
      { s.restView with tunA := .off, data := .empty, saved := none, holder := none, tunB := .off } := by
    rw [State.enterB_restView]
    rfl
  have ports : ∀ u : State, (u.withPorts u.ports.parked).restView = { u.restView with trackers := [.absent, .absent, .absent] } :=
    fun _ => rfl
  rw [State.parkTuners, ports, tuners]

/-- While the buffer is OFF no retune discards anything. -/
theorem State.retuned_of_off {s : State} (h : s.shift.state = .off) (t : TunerId) : s.retuned t = s := by
  unfold State.retuned
  split
  · exact State.discard_of_off h _
  · rfl

theorem State.enterB_off {s : State} (h : s.shift.state = .off) (st : BState) (f : Option Freq) :
    (s.enterB st f).shift.state = .off := by
  unfold State.enterB
  dsimp only
  rw [State.retuned_of_off (by exact h)]
  exact h

theorem State.parkTuners_off {s : State} (h : s.shift.state = .off) : s.parkTuners.shift.state = .off :=
  State.enterB_off (s := (s.withTunA s.tunA.rest).dropHolder) h .off none

theorem Sink.stopped_lists (x : Sink) : (x.stopped.list, x.stopped.waiting) = ([], []) := rfl

/-- What `State.leaveRun` does before the timer and the reassessment. -/
def State.stopRun (s : State) (st : PowerState) : State :=
  let s := s.withPower { s.power with state := st }
  let s := s.withMix { s.mix with sinks := s.mix.sinks.map Sink.stopped }
  (s.cutChimes.discard .power).parkTuners.endFrames

theorem State.leaveRun_eq (s : State) (st : PowerState) : s.leaveRun st =
    (if st = .quiet then (s.stopRun st).startTimer else (s.stopRun st).stopTimer).reassess := rfl

theorem State.stopRun_facts {s : State} (st : PowerState) (h : s.memoWf) :
    (s.stopRun st).memoWf ∧ (s.stopRun st).power.state = st ∧ (s.stopRun st).store.initialising = s.store.initialising
      ∧ (s.stopRun st).restView.Still st ∧ (s.stopRun st).shift.state = .off := by
  unfold State.stopRun
  dsimp only
  generalize hu : (s.withPower { s.power with state := st }).withMix _ = u
  have kept : u.memoWf ∧ u.power.state = st ∧ u.store.initialising = s.store.initialising := by
    subst hu; exact ⟨h, rfl, rfl⟩
  have silent : ∀ x ∈ u.restView.sinks, x = ([], []) := by
    subst hu
    simp only [State.restView, State.withMix_mix, List.map_map, List.mem_map, Function.comp_apply]
    rintro _ ⟨x, -, rfl⟩
    exact x.stopped_lists
  obtain ⟨vs, hvoices, hidle⟩ := u.cutChimes_restView
  have cut := calm_cutChimes u
  have dropped := calm_discard u.cutChimes .power
  obtain ⟨hoff, hrest⟩ := State.discard_views (cut.memo kept.1) .power
  generalize u.cutChimes.discard .power = v at dropped hoff hrest ⊢
  have calm : Calm u v.parkTuners.endFrames :=
    cut.trans (dropped.trans ((calm_parkTuners v).trans (steady_endFrames _).toCalm))
  have ended : v.parkTuners.endFrames.restView = v.parkTuners.restView ∧
      v.parkTuners.endFrames.shift.state = v.parkTuners.shift.state := ⟨rfl, rfl⟩
  refine ⟨calm.memo kept.1, calm.power.trans kept.2.1, calm.filling.trans kept.2.2, ?_, ?_⟩
  · rw [ended.1, State.parkTuners_restView]
    exact v.parkBlocks_still (by rw [hrest, hvoices]; exact silent) (by rw [hrest, hvoices]; exact hidle) st
  · rw [ended.2]
    exact State.parkTuners_off hoff

theorem keeps_leaveRun {s : State} {st : PowerState} (hst : st ≠ .run) (hf : s.store.initialising = false) :
    KeepsParked s (s.leaveRun st) := fun h => by
  obtain ⟨hm, hp, hi, hstill, hoff⟩ := s.stopRun_facts st h
  rw [State.leaveRun_eq]
  generalize s.stopRun st = v at hm hp hi hstill hoff ⊢
  generalize hu : (if st = .quiet then v.startTimer else v.stopTimer) = u
  have timed : Steady v u ∧ u.restView = v.restView ∧ u.shift = v.shift := by
    subst hu
    split
    · exact ⟨steady_startTimer _, rfl, rfl⟩
    · exact ⟨steady_stopTimer _, rfl, rfl⟩
  have hup : u.power.state = st := timed.1.power.trans hp
  have assessed := steady_reassess u
  refine ⟨assessed.memo (timed.1.memo hm), fun _ => (State.parkedWf_iff _).2 ⟨fun k => ?_, fun _ => ?_⟩⟩
  · rw [assessed.filling, timed.1.filling, hi, hf] at k
    cases k
  · exact State.reassess_atRest (hup ▸ hst) (by rw [timed.2.1, hup]; exact hstill) (by rw [timed.2.2]; exact hoff)

/-! ### The orders and events of Power Control -/

theorem keeps_moveParked {s : State} {st : PowerState} (hr : s.power.state ≠ .run) (hst : st ≠ .run)
    (hf : s.store.initialising = false) : KeepsParked s (s.moveParked st) := fun h => by
  have moved : ∀ u : State, Calm (s.withPower { s.power with state := st }) u → (s.AtRest → u.AtRest) →
      u.memoWf ∧ (s.parkedWf → u.parkedWf) := fun u hc hu =>
    ⟨hc.memo h, fun k => (State.parkedWf_iff _).2
      ⟨fun i => by rw [hc.filling] at i; exact absurd (hf.symm.trans i) (by simp), fun _ => hu (((State.parkedWf_iff _).1 k).2 hr)⟩⟩
  unfold State.moveParked
  dsimp only
  split
  · refine moved _ (steady_startTimer _).toCalm fun k => ⟨?_, k.off, k.quiet⟩
    exact { k.still with tunB := k.still.tunB.imp_right fun x => ⟨x.1, ‹_›⟩ }
  · generalize hw : s.withPower { s.power with state := st } = w at moved ⊢
    have hwp : w.power.state = st := hw ▸ rfl
    have hwr : w.restView = s.restView := hw ▸ rfl
    have hws : w.shift = s.shift := hw ▸ rfl
    generalize hv : (if w.tunB.state = .refresh then w.enterB .off none else w) = v
    have swept : Calm w v ∧ (s.AtRest → v.restView.Still st ∧ v.shift.state = .off) := by
      subst hv
      split
      · refine ⟨calm_enterB _ _ _, fun k => ⟨?_, State.enterB_off (hws ▸ k.off) _ _⟩⟩
        rw [State.enterB_restView, hwr]
        exact { k.still with tunB := .inl rfl }
      · rename_i hn
        refine ⟨.refl w, fun k => ⟨?_, hws ▸ k.off⟩⟩
        rw [hwr]
        exact { k.still with tunB := k.still.tunB.imp_right fun x => absurd ((congrArg RestView.tunB hwr).trans x.1) hn }
    have hvp : v.stopTimer.power.state = st := swept.1.power.trans hwp
    refine moved _ (swept.1.trans ((steady_stopTimer v).toCalm.trans (steady_reassess _).toCalm)) fun k => ?_
    exact State.reassess_atRest (hvp ▸ hst) (hvp ▸ (swept.2 k).1) (swept.2 k).2

theorem keeps_moveTo {s : State} (st : PowerState) (hf : s.store.initialising = false) : KeepsParked s (s.moveTo st) := by
  unfold State.moveTo
  split
  · exact keeps_enterRun _ hf
  · split
    · exact keeps_leaveRun ‹_› hf
    · exact keeps_moveParked ‹_› ‹_› hf

theorem keeps_powerBody (b : List Byte) (s : State) : KeepsParked s (powerBody b s).2 := by
  unfold powerBody
  repeat' split
  any_goals with_reducible exact .of_steady (steady_answer _ _)
  exact keeps_moveTo _ (by simp_all)

theorem steady_wakeSetBody (b : List Byte) (s : State) : Steady s (wakeSetBody b s).2 := by
  unfold wakeSetBody
  repeat' split
  any_goals with_reducible exact steady_answer _ _
  exact steady_withPower _ _ rfl

/-- The fill ends: the power state is SLEEP, as it was before. -/
theorem keeps_filled (s : State) : KeepsParked s s.filled := by
  unfold State.filled
  split
  · rename_i hf
    refine (KeepsParked.of_steady (steady_reach s (s.store.initAt + milliseconds 40))).trans ?_
    have hfu : (s.reach (s.store.initAt + milliseconds 40)).store.initialising = true := (steady_reach _ _).filling.trans hf
    generalize s.reach (s.store.initAt + milliseconds 40) = u at hfu ⊢
    have filled : KeepsParked u ((u.withStore { u.store with initialising := false }).withPower { u.power with state := .sleep }) :=
      fun h => ⟨h, fun k => by
        rw [State.parkedWf_iff] at k ⊢
        have hs := k.1 hfu
        have rest := k.2 (by simp [hs])
        have still := rest.still
        rw [hs] at still
        exact ⟨fun _ => rfl, fun _ => ⟨still, rest.off, rest.quiet⟩⟩⟩
    exact filled.trans (keeps_wake _ _ _)
  · exact .of_steady (.refl s)

theorem keeps_ignitionRose (s : State) : KeepsParked s s.ignitionRose :=
  (KeepsParked.of_steady (steady_withPower s { s.power with ignition := highFrom s.clock.now } rfl)).trans (keeps_wake _ _ _)

theorem steady_startSweep (s : State) (st : BState) (h : s.power.state = .run ∨ s.mayStand st) : Steady s (s.startSweep st) :=
  (steady_withRadio _ _).trans (steady_enterB _ _ _ h)

theorem steady_refreshDue (s : State) : Steady s s.refreshDue := by
  unfold State.refreshDue
  split
  · rename_i t m _
    refine .ite (fun hq => ?_) fun _ => .refl s
    have stopped : Steady s (s.reach (t + minutes m)).stopTimer := (steady_reach _ _).trans (steady_stopTimer _)
    generalize (s.reach (t + minutes m)).stopTimer = u at stopped ⊢
    exact .ite (fun _ => stopped) fun _ => stopped.trans (steady_startSweep _ _ (.inr (.inr ⟨rfl, stopped.power.trans hq⟩)))
  · exact .refl s

/-! ### The two resets -/

theorem steady_unmuteAll (s : State) (l : Link) : Steady s (s.unmuteAll l) :=
  .trans (t := s.withMix { s.mix with mutes := s.mix.mutes.map fun m => dropLink m l }) (.of_view rfl rfl) (steady_withCall _ _)

theorem steady_resetOwn (s : State) (l : Link) : Steady s (s.resetOwn l) := by
  match l with
  | .telephony => exact .ite (fun _ => .refl s) fun _ => steady_enterCall _ _
  | .rear => exact steady_endHolding s
  | .cockpit => exact .refl s
  | .body => exact .refl s

theorem steady_resetLink (s : State) (l : Link) : Steady s (s.resetLink l) := by
  unfold State.resetLink
  exact (steady_setLink _ _ _).trans ((steady_withTable _ _).trans ((steady_tableChanged _).trans ((steady_unmuteAll _ _).trans
    ((steady_setChannel _ _ _).trans ((steady_stopWhere _ _ _ _).trans (steady_resetOwn _ _))))))

theorem steady_freshMix (s : State) : Steady s (s.withMix Mix.fresh) := by
  have silent : ∀ x ∈ (s.withMix Mix.fresh).restView.sinks, x = ([], []) := by
    intro x hx
    obtain ⟨y, hy, rfl⟩ := List.mem_map.1 hx
    rw [List.eq_of_mem_replicate (n := 20) hy]
    rfl
  exact ⟨calm_withMix _ _, fun _ _ h => ⟨{ h.still with sinks := silent }, h.off, h.quiet⟩⟩

theorem steady_freshShift (s : State) : Steady s ((s.withTraffic Traffic.fresh).withShift .off) :=
  ⟨⟨fun _ => ⟨⟨nofun, nofun⟩, nofun, nofun⟩, rfl, rfl⟩, fun _ _ h => ⟨h.still, rfl, rfl⟩⟩

theorem steady_clearChimes (s : State) : Steady s (s.withChime s.chime.cleared) := by
  have idle : ∀ n : Fin 4, (s.withChime s.chime.cleared).restView.voices.getD n.val .idle = .idle := by
    intro n
    simp only [State.restView, State.withChime_chime, Chime.cleared, List.map_map, List.getD_eq_getElem?_getD, List.getElem?_map]
    cases s.chime.voices[n.val]? <;> rfl
  exact ⟨calm_withChime _ _, fun _ _ h => ⟨{ h.still with voices := idle }, h.off, h.quiet⟩⟩

theorem steady_finishTransfers (s : State) : Steady s s.finishTransfers := .foldl _ (fun s l => steady_moveAll s l) _ _

theorem calm_resetTuners (s : State) : Calm s s.resetTuners := by
  unfold State.resetTuners
  exact (steady_withRadio _ _).toCalm.trans ((calm_withTunA _ _).trans ((calm_setHolder _ _).trans
    (.ite (fun _ => .refl _) fun _ => calm_enterB _ _ _)))

theorem steady_restTunA (s : State) (x : TunerA) : Steady s (s.withTunA x.rest) :=
  ⟨calm_withTunA _ _, fun _ _ h => ⟨{ h.still with tunA := rfl, data := rfl, saved := rfl }, h.off, h.quiet⟩⟩

theorem steady_noHolder (s : State) : Steady s (s.setHolder none) :=
  ⟨calm_setHolder _ _, fun _ _ h => ⟨{ h.still with holder := rfl }, h.off, h.quiet⟩⟩

theorem steady_resetTuners (s : State) : Steady s s.resetTuners := by
  by_cases hr : s.power.state = .run
  · exact (calm_resetTuners s).of_run hr
  · unfold State.resetTuners
    refine (steady_withRadio s { s.radio with scan := true, rearFirst := false, afOn := true, afThreshold := 35 }).trans ?_
    generalize hu : s.withRadio _ = u
    have hur : u.power.state ≠ .run := hu ▸ hr
    dsimp only
    rw [if_neg hur]
    exact ((steady_restTunA u _).trans (steady_noHolder _)).trans
      (.ite (fun _ => .refl _) fun _ => steady_enterB _ _ _ (.inr (.inl rfl)))

theorem steady_restartTuners (s : State) : Steady s s.restartTuners :=
  .ite (fun h => (calm_retuneA _ _ _).of_run h) fun _ => steady_reassess s

theorem steady_resetHub (s : State) : Steady s s.resetHub := by
  unfold State.resetHub
  dsimp only
  refine (steady_finishTransfers s).trans ?_
  generalize s.finishTransfers = u
  refine .trans ?_ (steady_restartTuners _)
  refine .trans ?_ (steady_resetTuners _)
  refine .trans ?_ (steady_withPower _ _ rfl)
  refine .trans ?_ (steady_withStore _ _ rfl)
  refine .trans ?_ (steady_clearChimes _)
  refine .trans ?_ (steady_withStations _ _)
  refine .trans ?_ (steady_withCall _ _)
  refine .trans ?_ (steady_freshShift _)
  refine .trans ?_ (steady_freshMix _)
  refine .trans ?_ (steady_withTable _ _)
  exact .of_view rfl rfl

end Sys2Proof.Machine
end

section
namespace Sys2Proof.Machine

/-! ### The claim orders and the orders that only set a record -/

theorem steady_postLinkClaim (h : Nat) (c : Claim) (s : State) : Steady s (postLinkClaim h c s).2 :=
  (steady_post s h c).trans (steady_tableChanged _)

theorem steady_claimBody (l : Link) (b : List Byte) (s : State) : Steady s (claimBody l b s).2 := by
  unfold claimBody
  repeat' split
  any_goals with_reducible exact steady_answer _ _
  exact steady_postLinkClaim _ _ _

theorem steady_releaseBody (l : Link) (b : List Byte) (s : State) : Steady s (releaseBody l b s).2 := by
  unfold releaseBody
  dsimp only
  repeat' split
  any_goals with_reducible exact steady_answer _ _
  exact (steady_dropClaim _ _).answered _

theorem steady_amendBody (l : Link) (b : List Byte) (s : State) : Steady s (amendBody l b s).2 := by
  unfold amendBody
  dsimp only
  repeat' split
  any_goals with_reducible exact steady_answer _ _
  exact ((steady_setClaim _ _ _).trans (steady_tableChanged _)).answered _

theorem steady_micMuteBody (g : LinkSet → LinkSet) (b : List Byte) (s : State) : Steady s (micMuteBody g b s).2 :=
  (steady_withCall s _).answered _

theorem steady_callVolumeBody (b : List Byte) (s : State) : Steady s (callVolumeBody b s).2 := (steady_withCall s _).answered _

theorem steady_stationCapBody (b : List Byte) (s : State) : Steady s (stationCapBody b s).2 :=
  (steady_withStations s _).answered _

theorem steady_watchSetBody (l : Link) (b : List Byte) (s : State) : Steady s (watchSetBody l b s).2 :=
  (steady_setLink s l _).answered _

theorem steady_watchClearBody (l : Link) (b : List Byte) (s : State) : Steady s (watchClearBody l b s).2 :=
  (steady_setLink s l _).answered _

theorem steady_eventsReadBody (l : Link) (b : List Byte) (s : State) : Steady s (eventsReadBody l b s).2 := steady_setLink s l _

theorem statusReadBody_state (b : List Byte) (s : State) : (statusReadBody b s).2 = s := by
  unfold statusReadBody
  dsimp only
  repeat' split
  all_goals rfl

theorem unknownBody_state (f : Frame) (s : State) : (unknownBody f s).2 = s := by
  unfold unknownBody
  split <;> rfl

/-! ### Commands -/

theorem keeps_takeOrder {l : Link} {f : Frame} {body : State → Reply × State} (hb : ∀ u, KeepsParked u (body u).2) (s : State) :
    KeepsParked s (takeOrder l f body s) := by
  unfold takeOrder
  split
  · exact .of_steady (steady_shiftOut s _ _ _)
  · exact (KeepsParked.of_steady (steady_shiftOut s _ _ _)).trans
      ((hb _).trans (.of_steady ((steady_offerEdges _ _).trans (steady_setSlot _ _ _))))

theorem keeps_checked {α : Type} {body : α → State → Reply × State} (hb : ∀ b u, KeepsParked u (body b u).2) (l : Link)
    (links : List Link) (ops : Option α) (s : State) : KeepsParked s (checked l links ops body s).2 := by
  unfold checked
  repeat' split
  · exact .of_steady (.refl s)
  · exact hb _ s
  · exact .of_steady (.refl s)

theorem keeps_order {α : Type} {l : Link} {f : Frame} {links : List Link} {ops : Option α} {body : α → State → Reply × State}
    {s t : State} (hb : ∀ b u, KeepsParked u (body b u).2) (h : order l f links ops body s = .next t) : KeepsParked s t := by
  obtain rfl := Host.Outcome.next.inj h
  exact keeps_takeOrder (fun u => keeps_checked hb l links ops u) s

theorem keeps_order_of_steady {α : Type} {l : Link} {f : Frame} {links : List Link} {ops : Option α}
    {body : α → State → Reply × State} {s t : State} (hb : ∀ b u, Steady u (body b u).2)
    (h : order l f links ops body s = .next t) : KeepsParked s t := keeps_order (fun b u => .of_steady (hb b u)) h

theorem keeps_event {f : State → State} {s t : State} (hf : ∀ u, KeepsParked u (f u)) (h : event f s = .next t) :
    KeepsParked s t := by
  obtain rfl := Host.Outcome.next.inj h
  exact (hf s).trans (.of_steady (steady_offerEdges _ _))

theorem keeps_event_of_steady {f : State → State} {s t : State} (hf : ∀ u, Steady u (f u)) (h : event f s = .next t) :
    KeepsParked s t := keeps_event (fun u => .of_steady (hf u)) h

theorem keeps_tunerEvent {f : State → State} {s t : State} (hf : ∀ u, Steady u (f u)) (h : tunerEvent f s = .next t) :
    KeepsParked s t := keeps_event_of_steady (fun u => (hf u).trans (steady_reassess _)) h

theorem powerOn_memoWf (ignition jack1 jack2 : Bool) : (State.powerOn ignition jack1 jack2).memoWf := by
  refine ⟨⟨nofun, ?_⟩, nofun, nofun⟩
  rintro (h | h | h) <;> cases h

theorem powerOn_parkedWf (ignition jack1 jack2 : Bool) : (State.powerOn ignition jack1 jack2).parkedWf := by
  refine (State.parkedWf_iff _).2 ⟨fun _ => rfl, fun _ => ⟨⟨?_, ?_, rfl, rfl, rfl, rfl, .inl rfl, ?_⟩, rfl, rfl⟩⟩
  · intro x hx
    obtain ⟨y, hy, rfl⟩ := List.mem_map.1 hx
    rw [List.eq_of_mem_replicate (n := 20) hy]
    rfl
  · exact (State.restView_trackers _).2 fun p => by cases p <;> rfl
  · exact (by decide : ∀ n : Fin 4, (Chime.fresh.voices.map Voice.state).getD n.val .idle = .idle)

theorem steady_withPending (s : State) (cs : List Instr) : Steady s (s.withPending cs) := .of_view rfl rfl

theorem keeps_powerOn (ignition jack1 jack2 : Bool) (s : State) (cs : List Instr) :
    KeepsParked s ((State.powerOn ignition jack1 jack2).withPending cs) := fun _ =>
  have kept := KeepsParked.of_steady (steady_withPending (State.powerOn ignition jack1 jack2) cs) (powerOn_memoWf _ _ _)
  ⟨kept.1, fun _ => kept.2 (powerOn_parkedWf _ _ _)⟩

theorem keeps_nullFrame {p : SelectPeriod} {s t : State} (h : execNullFrame p s = .next t) : KeepsParked s t := by
  unfold execNullFrame at h
  split at h <;> obtain rfl := Host.Outcome.next.inj h <;> exact .of_steady (steady_shiftOut s _ _ _)

theorem keeps_wait {p : SelectPeriod} {s t : State} (h : execWait p s = .next t) : KeepsParked s t := by
  unfold execWait at h
  split at h <;> obtain rfl := Host.Outcome.next.inj h
  · exact .of_steady (.refl s)
  · exact .of_steady (steady_shiftOut s _ _ _)

theorem keeps_replyReady {l : Link} {s t : State} (h : execReplyReady l s = .next t) : KeepsParked s t := by
  obtain rfl := Host.Outcome.next.inj h
  exact .of_steady (steady_replyReady s l)

theorem keeps_unknownOrder {l : Link} {c : Byte} {f : Frame} {s t : State} (h : execUnknownOrder l c f s = .next t) :
    KeepsParked s t := by
  obtain rfl := Host.Outcome.next.inj h
  refine keeps_takeOrder (fun u => ?_) s
  rw [unknownBody_state]
  exact .of_steady (.refl u)

theorem keeps_statusRead {l : Link} {f : Frame} {s t : State} (h : execStatusRead l f s = .next t) : KeepsParked s t := by
  refine keeps_order_of_steady (fun b u => ?_) h
  rw [statusReadBody_state]
  exact .refl u

theorem keeps_tunerMeasurement {x : TunerId} {m : Meas} {s t : State} (h : execTunerMeasurement x m s = .next t) :
    KeepsParked s t := by
  cases x
  · exact keeps_tunerEvent (fun u => steady_measuredA u m) h
  · exact keeps_tunerEvent (fun u => steady_measuredB u m) h

theorem keeps_settleEnd {x : TunerId} {m : Meas} {s t : State} (h : execSettleEnd x m s = .next t) : KeepsParked s t := by
  cases x
  · exact keeps_tunerEvent (fun u => steady_settledA u m) h
  · exact keeps_tunerEvent (fun u => steady_settledB u m) h

theorem keeps_dataGroup {x : TunerId} {g : DataGroup} {s t : State} (h : execDataGroup x g s = .next t) : KeepsParked s t := by
  cases x
  · exact keeps_tunerEvent (fun u => steady_groupA u g) h
  · exact keeps_tunerEvent (fun u => steady_groupB u g) h

/-- The orders' own bodies and the events' own steps, put together: one arm for each command. -/
theorem keeps_exec (c : Instr) {s t : State} (h : exec c s = .next t) : KeepsParked s t := by
  cases c with
  | claim l f => exact keeps_order_of_steady (steady_claimBody l) h
  | release l f => exact keeps_order_of_steady (steady_releaseBody l) h
  | amend l f => exact keeps_order_of_steady (steady_amendBody l) h
  | setProgram l f => exact keeps_order_of_steady steady_setProgramBody h
  | setVolume l f => exact keeps_order_of_steady steady_setVolumeBody h
  | setTrim l f => exact keeps_order_of_steady steady_setTrimBody h
  | setDelay l f => exact keeps_order_of_steady steady_setDelayBody h
  | setSpeedCurve l f => exact keeps_order_of_steady steady_setSpeedCurveBody h
  | speed l f => exact keeps_order_of_steady steady_speedBody h
  | muteSet l f => exact keeps_order_of_steady (steady_muteBody l _) h
  | muteClear l f => exact keeps_order_of_steady (steady_muteBody l _) h
  | tuneA l f => exact keeps_order_of_steady steady_tuneABody h
  | seekA l f => exact keeps_order_of_steady steady_seekABody h
  | presetStore l f => exact keeps_order_of_steady steady_presetStoreBody h
  | presetRecall l f => exact keeps_order_of_steady steady_presetRecallBody h
  | scanPolicy l f => exact keeps_order_of_steady steady_scanPolicyBody h
  | afPolicy l f => exact keeps_order_of_steady steady_afPolicyBody h
  | listRead l f => exact keeps_order_of_steady steady_listReadBody h
  | trafficMode l f => exact keeps_order_of_steady steady_trafficModeBody h
  | pause l f => exact keeps_order_of_steady steady_pauseBody h
  | resume l f => exact keeps_order_of_steady steady_resumeBody h
  | goLive l f => exact keeps_order_of_steady steady_goLiveBody h
  | shiftPolicy l f => exact keeps_order_of_steady steady_shiftPolicyBody h
  | callState l f => exact keeps_order keeps_callStateBody h
  | callPlace l f => exact keeps_order_of_steady steady_callPlaceBody h
  | micSelect l f => exact keeps_order_of_steady steady_micSelectBody h
  | micMuteSet l f => exact keeps_order_of_steady (steady_micMuteBody _) h
  | micMuteClear l f => exact keeps_order_of_steady (steady_micMuteBody _) h
  | callVolume l f => exact keeps_order_of_steady steady_callVolumeBody h
  | stationSource l f => exact keeps_order_of_steady (steady_stationSourceBody l) h
  | stationTune l f => exact keeps_order_of_steady (steady_stationTuneBody l) h
  | stationVolume l f => exact keeps_order_of_steady (steady_stationVolumeBody l) h
  | stationSwap l f => exact keeps_order_of_steady (steady_stationSwapBody l) h
  | jackMeasure l f => exact keeps_order_of_steady (steady_jackMeasureBody l) h
  | stationCap l f => exact keeps_order_of_steady steady_stationCapBody h
  | rearLock l f => exact keeps_order_of_steady steady_rearLockBody h
  | chimeDefine l f => exact keeps_order_of_steady (steady_chimeDefineBody l) h
  | chimeStart l f => exact keeps_order (keeps_chimeStartBody l) h
  | chimeStop l f => exact keeps_order_of_steady steady_chimeStopBody h
  | chimeRenew l f => exact keeps_order_of_steady steady_chimeRenewBody h
  | chimeStopAll l f => exact keeps_order_of_steady steady_chimeStopAllBody h
  | chimeRead l f => exact keeps_order_of_steady steady_chimeReadBody h
  | storeOpen l f => exact keeps_order_of_steady (steady_storeOpenBody l) h
  | storeData l f => exact keeps_order_of_steady (steady_storeDataBody l) h
  | storeClose l f => exact keeps_order_of_steady (steady_storeCloseBody l) h
  | regionSet l f => exact keeps_order_of_steady steady_regionSetBody h
  | rightsSet l f => exact keeps_order_of_steady steady_rightsSetBody h
  | watchSet l f => exact keeps_order_of_steady (steady_watchSetBody l) h
  | watchClear l f => exact keeps_order_of_steady (steady_watchClearBody l) h
  | eventsRead l f => exact keeps_order_of_steady (steady_eventsReadBody l) h
  | statusRead l f => exact keeps_statusRead h
  | power l f => exact keeps_order keeps_powerBody h
  | wakeSet l f => exact keeps_order_of_steady steady_wakeSetBody h
  | linkReset l f => exact keeps_order_of_steady (fun _ u => (steady_resetLink u l).answered _) h
  | hubReset l f => exact keeps_order_of_steady (fun _ u => (steady_resetHub u).answered _) h
  | unknownOrder l code f => exact keeps_unknownOrder (c := code) h
  | nullFrame p => exact keeps_nullFrame h
  | wait p => exact keeps_wait h
  | replyReady l => exact keeps_replyReady h
  | powerOn ignition jack1 jack2 => exact Host.Outcome.next.inj h ▸ keeps_powerOn ignition jack1 jack2 s _
  | storeReady => exact keeps_event keeps_filled h
  | ignitionRise => exact keeps_event keeps_ignitionRose h
  | refreshTimerExpiry => exact keeps_event_of_steady steady_refreshDue h
  | frameEvent x => exact keeps_event_of_steady (fun u => steady_frameEvent u x) h
  | frameSync gap set => exact keeps_event_of_steady (fun u => steady_takeSync u gap set) h
  | overdueSlip p => exact keeps_event_of_steady (fun u => steady_takeOverdue u p) h
  | acquireGiveUp p => exact keeps_event_of_steady (fun u => steady_takeGiveUp u p) h
  | holdoverTimeout p => exact keeps_event_of_steady (fun u => steady_takeHoldoverTimeout u p) h
  | clipGuardRelease sink => exact keeps_event_of_steady (fun u => steady_releaseGuard u sink.val) h
  | delayFadeOutEnd sink => exact keeps_event_of_steady (fun u => steady_fadeOutEnd u sink.val) h
  | delayFadeInEnd sink => exact keeps_event_of_steady (fun u => steady_fadeInEnd u sink.val) h
  | speedStale => exact keeps_event_of_steady steady_speedGrowsStale h
  | tunerMeasurement x m => exact keeps_tunerMeasurement h
  | settleEnd x m => exact keeps_settleEnd h
  | seekChannelEnd m => exact keeps_tunerEvent (fun u => steady_seekChannelEnd u m) h
  | afPrefadeEnd => exact keeps_tunerEvent steady_prefadeEnd h
  | afCheckMeasurement m => exact keeps_tunerEvent (fun u => steady_checkMeasured u m) h
  | afGapEnd => exact keeps_tunerEvent steady_gapEnded h
  | afVerifyTimeout => exact keeps_tunerEvent steady_verifyTimedOut h
  | dataGroup x g => exact keeps_dataGroup h
  | dataTimeout x => exact keeps_tunerEvent (fun u => steady_dataLapsed u x) h
  | sweepChannelEnd m => exact keeps_tunerEvent (fun u => steady_sweepChannelEnd u m) h
  | rejectionTick => exact keeps_event_of_steady steady_countRejections h
  | aEligibleExpiry => exact keeps_event_of_steady steady_eligibleExpired h
  | replayDrained => exact keeps_event_of_steady steady_replayDrained h
  | memoReplayEnd => exact keeps_event_of_steady steady_memoReplayEnded h
  | windowJudged => exact keeps_event_of_steady steady_windowJudged h
  | jackInsertion st => exact keeps_event (fun u => keeps_inserted u st) h
  | jackRemoval st => exact keeps_event_of_steady (fun u => steady_removed u st) h
  | measurementComplete st load1 load2 mic => exact keeps_event_of_steady (fun u => steady_measured u st load1 load2 mic) h
  | graceExpiry st => exact keeps_event_of_steady (fun u => steady_graceExpired u st) h
  | voicePlayEnd v => exact keeps_event_of_steady (fun u => steady_playEnded u v) h
  | gapEnd v => exact keeps_event_of_steady (fun u => steady_gapOver u v) h
  | deadlineExpiry v => exact keeps_event_of_steady (fun u => steady_deadlinePassed u v) h
  | voiceIdle v => exact keeps_event_of_steady (fun u => steady_reachIdle u v) h

theorem keeps_tick (s : State) : KeepsParked s s.tick := .of_steady (steady_reach s _)

/-- Settles O13: each command's step keeps the memo's form, and either keeps the power state and what rests outside RUN, ends in RUN,
or brings the blocks to rest. -/
theorem stepKeepsParkedBlocks : Obligations.StepKeepsParkedBlocks := by
  unfold Obligations.StepKeepsParkedBlocks
  intro s t hm h
  unfold step at h
  split at h
  · obtain rfl := Host.Outcome.next.inj h
    exact keeps_tick s hm
  · exact ((KeepsParked.of_steady (steady_withPending s _)).trans (keeps_exec _ h)) hm

end Sys2Proof.Machine
end

section
namespace Sys2Proof.Machine

/-! ### A moment reached -/

theorem State.reach_of_run {s : State} (h : s.power.state = .run) (t : Time) : s.reach t =
    (s.withPorts (Ports.periods (s.tunA.rx.heard s.tunA.live) (s.tunB.rx.heard s.tunB.open)
        (s.clock.passed (max s.clock.now t) - s.clock.periods) s.ports)).withClock
      { s.clock with now := max s.clock.now t, periods := max (s.clock.passed (max s.clock.now t)) s.clock.periods } := if_pos h

theorem State.reach_of_parked {s : State} (h : s.power.state ≠ .run) (t : Time) :
    s.reach t = s.withClock { s.clock with now := max s.clock.now t } := if_neg h

theorem State.reach_links (s : State) (t : Time) : (s.reach t).links = s.links := by
  by_cases hr : s.power.state = .run
  · rw [State.reach_of_run hr, State.withClock_links, State.withPorts_links]
  · rw [State.reach_of_parked hr, State.withClock_links]

theorem onlyChanges_reach (s : State) (t : Time) : OnlyChanges [.clock, .ports] s (s.reach t) := by
  have h := (happens_reach s t).blocks
  refine ⟨h.1, fun b hb => ?_⟩
  by_cases hl : b = .links
  · subst hl
    exact s.reach_links t
  · exact h.2 b (by simp_all)

/-- One sample period before the frame event the next period passes with it. -/
theorem Clock.passed_next {c : Clock} (hp : c.periods < 48) (hd : c.frameDue = c.now + (48 - c.periods) * 1000000) :
    c.passed (c.now + 1000000) = c.periods + 1 := by
  simp only [Clock.passed, samplePeriod, hd]
  omega

theorem Tracker.holding_iff (t : Tracker) : t.holding = true ↔ t.state = .locked ∨ t.state = .holdover := by
  simp [Tracker.holding]

theorem Converter.pull_of_stopped {c : Converter} (h : c.started = false) (n : Nat) : c.pull n = (List.replicate n 0, c) := by
  simp [Converter.pull, h]

theorem Converter.pull_of_short {c : Converter} (h : c.started = true) (hb : c.buffer.length < 2) (n : Nat) :
    c.pull n = (List.replicate n 0, { c with started := false, phase := 0 }) := by
  unfold Converter.pull
  rw [h]
  match hc : c.buffer with
  | [] => rfl
  | [_] => rfl
  | _ :: _ :: _ => rw [hc] at hb; simp at hb

theorem Converter.pull_of_two {c : Converter} (h : c.started = true) {a b : List Int} {rest : List (List Int)}
    (hb : c.buffer = a :: b :: rest) (n : Nat) :
    c.pull n = (interpolate c.phase a b,
      { c with buffer := c.buffer.drop ((c.phase + c.step) / 65536), phase := (c.phase + c.step) % 65536 }) := by
  unfold Converter.pull
  simp only [h, hb, Bool.not_true, Bool.false_eq_true, if_false]

theorem periodRun_period (p : Port) (x : Tracker) : PeriodRun (portSlots p) x (x.period p) := by
  unfold Tracker.period
  refine ⟨fun h => ?_, fun hh hs => ?_⟩
  · by_cases hh : x.holding = true
    · have hs : x.conv.started = false := h.resolve_left fun k => (x.holding_iff.1 hh).elim k.1 k.2
      rw [if_pos hh, Converter.pull_of_stopped hs]
    · rw [if_neg hh]
  · rw [if_pos (x.holding_iff.2 hh)]
    refine ⟨fun hb => ?_, fun a b rest hb => ?_⟩
    · rw [Converter.pull_of_short hs hb]
    · rw [Converter.pull_of_two hs hb]
      rfl

/-- Tuner A is heard while released and in a pre-fade. -/
theorem TunerA.live_iff (a : TunerA) : a.live = true ↔ a.state = .tuned ∨ (a.state = .afVerify ∧ a.released = true)
    ∨ (a.state = .afCheck ∧ (a.phase = .prefadeCheck ∨ a.phase = .prefadeVerify)) := by
  simp [TunerA.live, TunerA.open, TunerA.prefading, or_assoc]

theorem TunerB.open_iff (b : TunerB) : b.open = true ↔ (b.state = .watch ∨ b.state = .held) ∧ b.settling = false := by
  simp [TunerB.open]

theorem Converter.push_cases (c : Converter) (set : List Int) :
    (c.push set).buffer = (if c.buffer.length < 32 then c.buffer ++ [set] else c.buffer) ∧ (c.push set).step = c.step
      ∧ ((c.push set).started = true ↔ c.started = true ∨ 16 ≤ (c.push set).buffer.length)
      ∧ (c.push set).phase = (if c.started = false ∧ 16 ≤ (c.push set).buffer.length then 0 else c.phase) := by
  unfold Converter.push
  dsimp only
  generalize hk : (if c.buffer.length < 32 then { c with buffer := c.buffer ++ [set] } else c) = k
  have same : k.buffer = (if c.buffer.length < 32 then c.buffer ++ [set] else c.buffer) ∧ k.step = c.step
      ∧ k.started = c.started ∧ k.phase = c.phase := by
    subst hk
    split <;> exact ⟨rfl, rfl, rfl, rfl⟩
  obtain ⟨hb, hs, hst, hph⟩ := same
  rw [← hb, ← hs, ← hst, ← hph]
  by_cases hc : k.started = true <;> by_cases hn : 16 ≤ k.buffer.length <;> simp [hc, hn]

theorem step_of_idle {s : State} (h : s.pending = []) : step s = .next s.tick := by simp [step, h]

theorem State.tick_now (s : State) : s.tick.clock.now = s.clock.now + 1000000 := by
  rw [State.tick, reach_now, samplePeriod]
  exact Nat.max_eq_right (Nat.le_add_right _ _)

/-- In RUN a step that begins one sample period before the frame event, or earlier, runs each port once. -/
theorem State.tick_of_run {s : State} (hr : s.power.state = .run) (hp : s.clock.periods < 48)
    (hd : s.clock.frameDue = s.clock.now + (48 - s.clock.periods) * 1000000) :
    s.tick.clock.periods = s.clock.periods + 1
      ∧ s.tick.ports = s.ports.period (s.tunA.rx.heard s.tunA.live) (s.tunB.rx.heard s.tunB.open) := by
  have hm : max s.clock.now (s.clock.now + samplePeriod) = s.clock.now + 1000000 := by
    rw [samplePeriod]
    exact Nat.max_eq_right (Nat.le_add_right _ _)
  rw [State.tick, State.reach_of_run hr, hm, Clock.passed_next hp hd, Nat.add_sub_cancel_left]
  simp [Ports.periods]

/-- Settles O58: an idle step is one moment reached, and in RUN a moment one sample period on runs each port once. -/
theorem converters : Obligations.Converters := by
  unfold Obligations.Converters
  refine ⟨fun s hq => ⟨s.tick, step_of_idle hq, s.tick_now, onlyChanges_reach s _, fun hp => ?_, fun hr hp hd => ?_⟩, ?_⟩
  · rw [State.tick, State.reach_of_parked hp, State.withClock_ports]
  · obtain ⟨hc, hx⟩ := State.tick_of_run hr hp hd
    rw [hx]
    refine ⟨hc, periodRun_period .p0 _, periodRun_period .p1 _, periodRun_period .p2 _, ?_, ?_⟩
    · simp only [← TunerA.live_iff]
      rfl
    · simp only [← TunerB.open_iff]
      rfl
  · rintro c _ set rfl
    exact c.push_cases set

end Sys2Proof.Machine
end

section
namespace Sys2Proof.Machine

/-! ### What a tracker becomes while time passes -/

/-- A sample period moves a tracker's converter and what it has delivered, and nothing else. -/
theorem Tracker.period_eq (p : Port) (x : Tracker) : ∃ c d, x.period p = { x with conv := c, delivered := d } := by
  unfold Tracker.period
  split
  · exact ⟨_, _, rfl⟩
  · exact ⟨x.conv, _, rfl⟩

theorem State.tracker_withClock (s : State) (c : Clock) (q : Port) : (s.withClock c).tracker q = s.tracker q := by cases q <;> rfl

theorem State.tracker_of_ports {s t : State} (h : t.ports = s.ports) (q : Port) : t.tracker q = s.tracker q := by
  simp only [State.tracker, h]

theorem State.period_tracker (s : State) (a b : Option Heard) (q : Port) :
    (s.withPorts (s.ports.period a b)).tracker q = (s.tracker q).period q := by cases q <;> rfl

theorem State.periods_tracker (a b : Option Heard) (n : Nat) (s : State) (q : Port) :
    ∃ c d, (s.withPorts (Ports.periods a b n s.ports)).tracker q = { s.tracker q with conv := c, delivered := d } := by
  induction n generalizing s with
  | zero => exact ⟨(s.tracker q).conv, (s.tracker q).delivered, by cases q <;> rfl⟩
  | succ n ih =>
    obtain ⟨c, d, h⟩ := ih (s.withPorts (s.ports.period a b))
    obtain ⟨c', d', h'⟩ := (s.tracker q).period_eq q
    refine ⟨c, d, ?_⟩
    rw [State.period_tracker, h'] at h
    exact h

theorem State.reach_tracker (s : State) (t : Time) (q : Port) :
    ∃ c d, (s.reach t).tracker q = { s.tracker q with conv := c, delivered := d } := by
  by_cases hr : s.power.state = .run
  · rw [State.reach_of_run hr, State.tracker_withClock]
    exact State.periods_tracker _ _ _ s q
  · rw [State.reach_of_parked hr, State.tracker_withClock]
    exact ⟨_, _, rfl⟩

theorem State.reach_tracker_state (s : State) (t : Time) (q : Port) : ((s.reach t).tracker q).state = (s.tracker q).state := by
  obtain ⟨c, d, h⟩ := s.reach_tracker t q
  rw [h]

/-- After the 48th period nothing runs before the frame event. -/
theorem State.reach_ports_of_full {s : State} (h : s.clock.periods = 48) (t : Time) : (s.reach t).ports = s.ports := by
  by_cases hr : s.power.state = .run
  · have hn : s.clock.passed (max s.clock.now t) - s.clock.periods = 0 := by
      have := Nat.sub_le 48 (min 48 ((s.clock.frameDue - max s.clock.now t + samplePeriod - 1) / samplePeriod))
      rw [h]
      exact Nat.sub_eq_zero_of_le this
    rw [State.reach_of_run hr, State.withClock_ports, State.withPorts_ports, hn, Ports.periods]
  · rw [State.reach_of_parked hr, State.withClock_ports]

theorem Ports.periods_uplink (a b : Option Heard) (n : Nat) (x : Ports) : (Ports.periods a b n x).uplink = x.uplink := by
  induction n generalizing x with
  | zero => rfl
  | succ n ih => exact ih _

theorem State.reach_uplink (s : State) (t : Time) : (s.reach t).ports.uplink = s.ports.uplink := by
  by_cases hr : s.power.state = .run
  · rw [State.reach_of_run hr, State.withClock_ports, State.withPorts_ports, Ports.periods_uplink]
  · rw [State.reach_of_parked hr, State.withClock_ports]

/-! ### A tracker put in its place -/

theorem State.withTracker_ports (s : State) (p : Port) (x : Tracker) : (s.withTracker p x).ports =
    if p = .p2 then (s.setTracker p x).ports.followP2 s.ports.p2.state else (s.setTracker p x).ports := by
  cases p <;> rfl

theorem Ports.followP2_trackers (st : TrackerState) (x : Ports) :
    (x.followP2 st).p0 = x.p0 ∧ (x.followP2 st).p1 = x.p1 ∧ (x.followP2 st).p2 = x.p2 := by
  unfold Ports.followP2
  dsimp only
  split <;> exact ⟨rfl, rfl, rfl⟩

theorem Ports.sendUplink_trackers (x : Ports) :
    x.sendUplink.p0 = x.p0 ∧ x.sendUplink.p1 = x.p1 ∧ x.sendUplink.p2 = x.p2 := by
  unfold Ports.sendUplink
  split <;> exact ⟨rfl, rfl, rfl⟩

theorem State.tracker_withPorts {s : State} {x : Ports} (h : x.p0 = s.ports.p0 ∧ x.p1 = s.ports.p1 ∧ x.p2 = s.ports.p2)
    (q : Port) : (s.withPorts x).tracker q = s.tracker q := by
  obtain ⟨h0, h1, h2⟩ := h
  cases q
  · exact h0
  · exact h1
  · exact h2

theorem State.withTracker_tracker (s : State) (p : Port) (x : Tracker) (q : Port) :
    (s.withTracker p x).tracker q = if q = p then x else s.tracker q := by
  rw [← State.setTracker_tracker]
  cases p
  · rfl
  · rfl
  · exact State.tracker_withPorts (Ports.followP2_trackers _ _) q

theorem happens_setTracker (s : State) (p : Port) (x : Tracker) : Happens [.ports] s (s.setTracker p x) := by
  cases p <;> exact happens_withPorts s _

theorem happens_withTracker (s : State) (p : Port) (x : Tracker) : Happens [.ports] s (s.withTracker p x) := by
  cases p
  · exact happens_setTracker s .p0 x
  · exact happens_setTracker s .p1 x
  · exact (happens_setTracker s .p2 x).trans (happens_withPorts _ _)

theorem State.withTracker_links (s : State) (p : Port) (x : Tracker) : (s.withTracker p x).links = s.links := by cases p <;> rfl

theorem State.withTracker_clock (s : State) (p : Port) (x : Tracker) : (s.withTracker p x).clock = s.clock := by cases p <;> rfl

theorem happens_reach_withTracker (s : State) (t : Time) (p : Port) (x : Tracker) :
    Happens [.clock, .ports] s ((s.reach t).withTracker p x) :=
  (happens_reach s t).trans ((happens_withTracker _ p x).mono (by simp))

/-! ### An event of the Port Block -/

theorem levels_of_happens {s t : State} (h : Happens [.clock, .ports] s t) (l : Link) : t.levels l = s.levels l := by
  have hc : t.call = s.call := h.blocks.2 .call (by decide)
  have ht : t.traffic = s.traffic := h.blocks.2 .traffic (by decide)
  have hs : t.shift = s.shift := h.blocks.2 .shift (by decide)
  have hst : t.stations = s.stations := h.blocks.2 .stations (by decide)
  have hA : t.tunA = s.tunA := h.blocks.2 .tunA (by decide)
  have hB : t.tunB = s.tunB := h.blocks.2 .tunB (by decide)
  have htb : t.table = s.table := h.blocks.2 .table (by decide)
  simp only [State.levels, hc, ht, hs, hst, hA, hB, htb]

/-- An event that moves clock and ports alone tells no link anything. -/
theorem event_of_ports {f : State → State} {s : State} (h : Happens [.clock, .ports] s (f s)) (hl : (f s).links = s.links) :
    ∃ t, event f s = .next t ∧ Happens [.clock, .ports] s t ∧ Unreported s t ∧ t.clock = (f s).clock ∧ t.ports = (f s).ports :=
  have k := happens_offerEdges s (f s)
  ⟨_, rfl, h.trans (k.mono (by simp)), unreported_event hl (levels_of_happens h), k.blocks.2 .clock (by decide),
    k.blocks.2 .ports (by decide)⟩

/-- What an event of the Port Block does that brings the clock to `at` and puts tracker `x` in the place of port `p`'s. -/
theorem event_withTracker {f : State → State} {s : State} {due : Time} {p : Port} {x : Tracker}
    (h : f s = (s.reach due).withTracker p x) :
    ∃ t, event f s = .next t ∧ Happens [.clock, .ports] s t ∧ Unreported s t ∧ t.clock.now = max s.clock.now due
      ∧ t.tracker p = x ∧ (∀ q, q ≠ p → (t.tracker q).state = (s.tracker q).state)
      ∧ t.ports = ((s.reach due).withTracker p x).ports := by
  obtain ⟨t, ht, hh, hu, hc, hp⟩ := event_of_ports (f := f) (s := s) (h ▸ happens_reach_withTracker s due p x)
    (by rw [h, State.withTracker_links, State.reach_links])
  rw [h] at hc hp
  refine ⟨t, ht, hh, hu, ?_, ?_, fun q hq => ?_, hp⟩
  · rw [hc, State.withTracker_clock, reach_now]
  · rw [State.tracker_of_ports hp, State.withTracker_tracker, if_pos rfl]
  · rw [State.tracker_of_ports hp, State.withTracker_tracker, if_neg hq, State.reach_tracker_state]

/-- A tracker lost at a moment: the moment's sample periods run, and P2's output stops with its input. -/
theorem uplinkSlot_of_lost {s : State} {due : Time} {p : Port} {x : Tracker} (hx : x.state = .absent) (hp : p = .p2) :
    ((s.reach due).withTracker p x).ports.uplinkSlot = none := by
  subst hp
  have h2 : ((s.reach due).setTracker .p2 x).ports.p2.state = .absent := hx
  rw [State.withTracker_ports, if_pos rfl, Ports.followP2]
  simp [h2]

end Sys2Proof.Machine
end

section
namespace Sys2Proof.Machine

/-! ### Rounding and steps (R8, R11) -/

theorem roundDiv_bounds (n : Nat) {d : Nat} (hd : 0 < d) :
    2 * d * roundDiv n d ≤ 2 * n + d ∧ 2 * n + d < 2 * d * (roundDiv n d + 1) := by
  unfold roundDiv
  exact ⟨Nat.mul_div_le _ _, Nat.lt_mul_div_succ _ (by omega)⟩

/-! ### Overdue slips and lost ports -/

theorem State.takeOverdue_of_holding {s : State} {p : Port} (hr : s.power.state = .run)
    (h : (s.tracker p).state = .locked ∨ (s.tracker p).state = .holdover) :
    s.takeOverdue p =
      let u := s.reach ((s.tracker p).waitFrom + 102 * 48000000000 * (s.tracker p).estimate.den / (100 * (s.tracker p).estimate.num))
      u.withTracker p { (u.tracker p).slip u.clock.now with waitFrom := u.clock.now, measuring := false } := by
  unfold State.takeOverdue
  rw [if_neg (not_not_intro hr)]
  rcases h with h | h <;> simp only [h, Tracker.patience, Tracker.centre]

theorem State.takeOverdue_of_acquire {s : State} {p : Port} {hz : Nat} (hr : s.power.state = .run)
    (h : (s.tracker p).state = .acquire) (hn : (s.tracker p).nominal = some hz) :
    s.takeOverdue p =
      let u := s.reach ((s.tracker p).waitFrom + 102 * 48000000000 / (100 * hz))
      u.withTracker p { (u.tracker p).deselect with waitFrom := u.clock.now, measuring := false } := by
  unfold State.takeOverdue
  rw [if_neg (not_not_intro hr)]
  simp only [h, hn, Tracker.patience, Tracker.centre, Option.isNone_some, Bool.false_eq_true, if_false, Nat.mul_one]

theorem Tracker.slip_state (t : Tracker) (now : Time) (h : t.state = .locked ∨ t.state = .holdover) :
    (t.slip now).state = if t.state = .holdover ∨ 2 ≤ t.slips then .holdover else .locked := by
  unfold Tracker.slip
  have hm : min 3 (t.slips + 1) = 3 ↔ 2 ≤ t.slips := by omega
  rcases h with h | h
  · by_cases hs : 2 ≤ t.slips <;> simp [h, hm, hs]
  · simp [h]

theorem Tracker.slip_counts (t : Tracker) (now : Time) :
    (t.slip now).slips = min 3 (t.slips + 1) ∧ (t.slip now).good = 0 ∧ (t.slip now).estimate = t.estimate
      ∧ (t.slip now).conv = t.conv := by
  unfold Tracker.slip
  dsimp only
  split <;> exact ⟨rfl, rfl, rfl, rfl⟩

theorem Tracker.slip_holdoverAt (t : Tracker) (now : Time) :
    (t.slip now).holdoverAt = if t.state = .locked ∧ 2 ≤ t.slips then now else t.holdoverAt := by
  unfold Tracker.slip
  have hm : min 3 (t.slips + 1) = 3 ↔ 2 ≤ t.slips := by omega
  by_cases hl : t.state = .locked <;> by_cases hs : 2 ≤ t.slips <;> simp [hl, hm, hs]

theorem State.takeGiveUp_of_acquire {s : State} {p : Port} (h : (s.tracker p).state = .acquire) : s.takeGiveUp p =
    (s.reach ((s.tracker p).lastSync + milliseconds 100)).withTracker p
      ((s.reach ((s.tracker p).lastSync + milliseconds 100)).tracker p).lost := if_pos h

theorem overdue_of_holding {s : State} {p : Port} (hr : s.power.state = .run)
    (h : (s.tracker p).state = .locked ∨ (s.tracker p).state = .holdover) :
    ∃ t, exec (.overdueSlip p) s = .next t ∧ Happens [.clock, .ports] s t ∧ Unreported s t
      ∧ t.clock.now = max s.clock.now
          ((s.tracker p).waitFrom + 102 * 48000000000 * (s.tracker p).estimate.den / (100 * (s.tracker p).estimate.num))
      ∧ (t.tracker p).waitFrom = t.clock.now ∧ (t.tracker p).measuring = false
      ∧ (t.tracker p).slips = min 3 ((s.tracker p).slips + 1) ∧ (t.tracker p).good = 0
      ∧ (t.tracker p).state = (if (s.tracker p).state = .holdover ∨ 2 ≤ (s.tracker p).slips then .holdover else .locked)
      ∧ ((s.tracker p).state = .holdover → (t.tracker p).holdoverAt = (s.tracker p).holdoverAt) := by
  obtain ⟨t, ht, hh, hu, hn, hx, -, -⟩ :=
    event_withTracker (f := fun s => s.takeOverdue p) (State.takeOverdue_of_holding hr h)
  obtain ⟨c, d, hy⟩ := s.reach_tracker
    ((s.tracker p).waitFrom + 102 * 48000000000 * (s.tracker p).estimate.den / (100 * (s.tracker p).estimate.num)) p
  refine ⟨t, ht, hh, hu, hn, ?_⟩
  rw [hx, hy, reach_now, ← hn]
  obtain ⟨hs, hg, -, -⟩ := Tracker.slip_counts { s.tracker p with conv := c, delivered := d } t.clock.now
  refine ⟨rfl, rfl, hs, hg, Tracker.slip_state { s.tracker p with conv := c, delivered := d } _ h, fun k => ?_⟩
  exact (Tracker.slip_holdoverAt _ _).trans (if_neg fun j => by simp_all)

theorem overdue_of_acquire {s : State} {p : Port} {hz : Nat} (hr : s.power.state = .run)
    (h : (s.tracker p).state = .acquire) (hn : (s.tracker p).nominal = some hz) :
    ∃ t, exec (.overdueSlip p) s = .next t ∧ Happens [.clock, .ports] s t ∧ Unreported s t
      ∧ t.clock.now = max s.clock.now ((s.tracker p).waitFrom + 102 * 48000000000 / (100 * hz))
      ∧ (t.tracker p).waitFrom = t.clock.now ∧ (t.tracker p).measuring = false
      ∧ (t.tracker p).state = .acquire ∧ (t.tracker p).nominal = none ∧ (t.tracker p).good = 0 := by
  obtain ⟨t, ht, hh, hu, hnow, hx, -, -⟩ :=
    event_withTracker (f := fun s => s.takeOverdue p) (State.takeOverdue_of_acquire hr h hn)
  refine ⟨t, ht, hh, hu, hnow, ?_⟩
  rw [hx, reach_now, ← hnow]
  exact ⟨rfl, rfl, (State.reach_tracker_state _ _ _).trans h, rfl, rfl⟩

theorem giveUp_of_acquire {s : State} {p : Port} (h : (s.tracker p).state = .acquire) :
    ∃ t, exec (.acquireGiveUp p) s = .next t ∧ Happens [.clock, .ports] s t ∧ Unreported s t
      ∧ t.clock.now = max s.clock.now ((s.tracker p).lastSync + milliseconds 100)
      ∧ (t.tracker p).state = .absent ∧ (t.tracker p).nominal = none ∧ (t.tracker p).conv.buffer = []
      ∧ (p = .p2 → t.ports.uplinkSlot = none)
      ∧ ∀ q, q ≠ p → (t.tracker q).state = (s.tracker q).state := by
  obtain ⟨t, ht, hh, hu, hnow, hx, ho, hp⟩ :=
    event_withTracker (f := fun s => s.takeGiveUp p) (State.takeGiveUp_of_acquire h)
  refine ⟨t, ht, hh, hu, hnow, ?_, ?_, ?_, fun k => ?_, ho⟩
  · rw [hx]; rfl
  · rw [hx]; rfl
  · rw [hx]; rfl
  · rw [hp]
    exact uplinkSlot_of_lost rfl k

/-! ### PORT_LOST -/

theorem State.advise_advisories (s : State) (l k : Link) (a : Advisory) : ((s.advise l a).link k).advisories =
    if k = l then joinAdvisory (s.link k).advisories a else (s.link k).advisories := by
  by_cases hk : k = l
  · subst hk
    simp [State.advise, State.notice, State.offer, LinkState.offer]
  · simp [State.advise, State.notice, State.offer, hk]

/-- PORT_LOST told to the links concerned with a port. -/
def State.tellLost (s : State) (p : Port) : State := (portLinks p).foldl (fun s l => s.advise l (.portLost p)) s

/-- The links concerned with a port are told once each. -/
theorem State.tellLost_advisories (s : State) (p : Port) (k : Link) :
    ((s.tellLost p).link k).advisories =
      if k = .cockpit ∨ (k = .rear ∧ p = .p1) ∨ (k = .telephony ∧ p = .p2) then
        joinAdvisory (s.link k).advisories (.portLost p)
      else (s.link k).advisories := by
  unfold State.tellLost
  cases p <;> simp only [portLinks, List.foldl_cons, List.foldl_nil, State.advise_advisories] <;> cases k <;> simp

theorem happens_tellLost (s : State) (p : Port) : Happens [] s (s.tellLost p) :=
  happens_foldl _ (fun s l => happens_advise s l _) _ _

/-- The port's tracker lost at the end of its holdover. -/
def State.endHoldover (s : State) (p : Port) : State :=
  (s.reach ((s.tracker p).holdoverAt + milliseconds 100)).withTracker p
    ((s.reach ((s.tracker p).holdoverAt + milliseconds 100)).tracker p).lost

theorem State.takeHoldoverTimeout_of_holdover {s : State} {p : Port} (h : (s.tracker p).state = .holdover) :
    s.takeHoldoverTimeout p = (s.endHoldover p).tellLost p := if_pos h

theorem State.endHoldover_tracker (s : State) (p : Port) :
    ((s.endHoldover p).tracker p).state = .absent ∧ ((s.endHoldover p).tracker p).nominal = none
      ∧ ((s.endHoldover p).tracker p).conv.buffer = [] := by
  rw [State.endHoldover, State.withTracker_tracker, if_pos rfl]
  exact ⟨rfl, rfl, rfl⟩

theorem holdoverTimeout_of_holdover {s : State} {p : Port} (h : (s.tracker p).state = .holdover) :
    ∃ t, exec (.holdoverTimeout p) s = .next t ∧ Happens [.clock, .ports] s t
      ∧ t.clock.now = max s.clock.now ((s.tracker p).holdoverAt + milliseconds 100)
      ∧ (t.tracker p).state = .absent ∧ (t.tracker p).nominal = none ∧ (t.tracker p).conv.buffer = []
      ∧ (p = .p2 → t.ports.uplinkSlot = none)
      ∧ (∀ q, q ≠ p → (t.tracker q).state = (s.tracker q).state)
      ∧ ∀ k, (t.link k).advisories =
          if k = .cockpit ∨ (k = .rear ∧ p = .p1) ∨ (k = .telephony ∧ p = .p2) then
            joinAdvisory (s.link k).advisories (.portLost p)
          else (s.link k).advisories := by
  have he : exec (.holdoverTimeout p) s = .next (State.offerEdges s ((s.endHoldover p).tellLost p)) := by
    rw [← State.takeHoldoverTimeout_of_holdover h]
    rfl
  have lost : Happens [.clock, .ports] s (s.endHoldover p) := happens_reach_withTracker s _ p _
  have told := (happens_tellLost (s.endHoldover p) p).trans (happens_offerEdges s _)
  have hp : (State.offerEdges s ((s.endHoldover p).tellLost p)).ports = (s.endHoldover p).ports :=
    told.blocks.2 .ports (by decide)
  have hc : (State.offerEdges s ((s.endHoldover p).tellLost p)).clock = (s.endHoldover p).clock :=
    told.blocks.2 .clock (by decide)
  have hx := State.tracker_of_ports hp
  obtain ⟨gone, unset, empty⟩ := s.endHoldover_tracker p
  refine ⟨_, he, lost.trans (told.mono (by simp)), ?_, hx p ▸ gone, hx p ▸ unset, hx p ▸ empty, fun k => ?_, fun q hq => ?_,
    fun k => ?_⟩
  · rw [hc, State.endHoldover, State.withTracker_clock, reach_now]
  · rw [hp]
    exact uplinkSlot_of_lost rfl k
  · rw [hx, State.endHoldover, State.withTracker_tracker, if_neg hq, State.reach_tracker_state]
  · have same : (s.endHoldover p).link k = s.link k := by
      simp only [State.link, State.endHoldover, State.withTracker_links, State.reach_links]
    rw [State.offerEdges_link, ← same]
    exact (s.endHoldover p).tellLost_advisories p k

end Sys2Proof.Machine
end

section
namespace Sys2Proof.Machine

/-! ### Windows and nominal rates (R8) -/

theorem Rate.near_iff (r c : Rate) :
    r.near c = true ↔ 98 * c.num * r.den ≤ 100 * r.num * c.den ∧ 100 * r.num * c.den ≤ 102 * c.num * r.den := by
  simp [Rate.near]

theorem clock_percent : 100 * 48000000000 = 4800000000000 := by norm_num

theorem near_rateOfPeriod (gap : Time) (c : Rate) : (rateOfPeriod gap).near c = true ↔
    98 * c.num * gap ≤ 4800000000000 * c.den ∧ 4800000000000 * c.den ≤ 102 * c.num * gap := by
  rw [← clock_percent]
  exact Rate.near_iff _ _

theorem Tracker.inWindow_iff {gap : Time} (h : 0 < gap) (t : Tracker) : t.inWindow gap = true ↔
    98 * t.centre.num * gap ≤ 4800000000000 * t.centre.den ∧ 4800000000000 * t.centre.den ≤ 102 * t.centre.num * gap := by
  rw [Tracker.inWindow, decide_eq_true h, Bool.true_and, near_rateOfPeriod]

theorem fits_iff {gap : Time} (h : 0 < gap) (hz : Nat) :
    fits gap hz = true ↔ 98 * hz * gap ≤ 4800000000000 ∧ 4800000000000 ≤ 102 * hz * gap := by
  rw [fits, decide_eq_true h, Bool.true_and, near_rateOfPeriod, Nat.mul_one]

theorem Tracker.centre_of_acquire {t : Tracker} {hz : Nat} (h : t.state = .acquire) (hn : t.nominal = some hz) :
    t.centre = ⟨hz, 1⟩ := by simp only [Tracker.centre, h, hn]

theorem Tracker.centre_of_holding {t : Tracker} (h : t.state = .locked ∨ t.state = .holdover) : t.centre = t.estimate := by
  rcases h with h | h <;> simp only [Tracker.centre, h]

theorem Tracker.inWindow_of_acquire {t : Tracker} {gap : Time} {hz : Nat} (h : t.state = .acquire) (hn : t.nominal = some hz) :
    t.inWindow gap = fits gap hz := by rw [Tracker.inWindow, Tracker.centre_of_acquire h hn, fits]

/-- The windows of the rates of one port do not meet. -/
theorem nominal_unique {p : Port} {gap : Time} {a b : Nat} (h : 0 < gap) (ha : a ∈ nominals p) (hb : b ∈ nominals p)
    (fa : fits gap a = true) (fb : fits gap b = true) : a = b := by
  rw [fits_iff h] at fa fb
  cases p
  · simp only [nominals, List.mem_singleton] at ha hb
    rw [ha, hb]
  · simp only [nominals, List.mem_cons, List.not_mem_nil, or_false] at ha hb
    obtain rfl | rfl := ha <;> obtain rfl | rfl := hb <;> omega
  · simp only [nominals, List.mem_singleton] at ha hb
    rw [ha, hb]

theorem offerFirst_of_fits {p : Port} {t : Tracker} {gap : Time} {hz : Nat} (h : 0 < gap) (hm : hz ∈ nominals p)
    (hf : fits gap hz = true) :
    Tracker.offerFirst p t gap = { t with nominal := some hz, good := 1, slips := 0, periods := [gap] } := by
  unfold Tracker.offerFirst
  split
  · rename_i k hk
    rw [nominal_unique h (List.mem_of_find?_eq_some hk) hm (List.find?_some hk) hf]
  · rename_i hk
    exact absurd hf (List.find?_eq_none.1 hk hz hm)

theorem offerFirst_of_none {p : Port} {t : Tracker} {gap : Time} (h : ∀ hz ∈ nominals p, ¬fits gap hz = true) :
    Tracker.offerFirst p t gap = { t with nominal := none, good := 0, periods := [] } := by
  unfold Tracker.offerFirst
  rw [List.find?_eq_none.2 h]

theorem otherNominal_iff {p : Port} {t : Tracker} {gap : Time} :
    t.otherNominal p gap = true ↔ ∃ hz ∈ nominals p, t.nominal ≠ some hz ∧ fits gap hz = true := by
  simp [Tracker.otherNominal]

/-! ### The estimated rate (R8) -/

theorem Rate.limited_den_pos {r : Rate} (h : 0 < r.den) (hz : Nat) : 0 < (r.limited hz).den := by
  unfold Rate.limited
  repeat' split
  · exact Nat.succ_pos 99
  · exact Nat.succ_pos 99
  · exact h

theorem Rate.inputStep_bounds {r : Rate} (h : 0 < r.den) :
    96000 * r.den * r.inputStep ≤ 131072 * r.num + 48000 * r.den
      ∧ 131072 * r.num + 48000 * r.den < 96000 * r.den * (r.inputStep + 1) := by
  obtain ⟨lo, hi⟩ := roundDiv_bounds (65536 * r.num) (d := 48000 * r.den) (by omega)
  have hd : 2 * (48000 * r.den) = 96000 * r.den := by omega
  have hn : 2 * (65536 * r.num) = 131072 * r.num := by omega
  rw [hd, hn] at lo hi
  exact ⟨lo, hi⟩

theorem Rate.limited_cases (r : Rate) (hz : Nat) :
    (100 * r.num < 98 * hz * r.den → 100 * (r.limited hz).num = 98 * hz * (r.limited hz).den)
      ∧ (102 * hz * r.den < 100 * r.num → 100 * (r.limited hz).num = 102 * hz * (r.limited hz).den)
      ∧ (98 * hz * r.den ≤ 100 * r.num → 100 * r.num ≤ 102 * hz * r.den → r.limited hz = r) := by
  have apart : 98 * hz * r.den ≤ 102 * hz * r.den := Nat.mul_le_mul_right _ (Nat.mul_le_mul_right _ (by decide))
  unfold Rate.limited
  refine ⟨fun h => ?_, fun h => ?_, fun h k => ?_⟩
  · rw [if_pos h, Nat.mul_comm]
  · rw [if_neg (by omega), if_pos h, Nat.mul_comm]
  · rw [if_neg (by omega), if_neg (by omega)]

theorem meanRate_eq (ps : List Time) : meanRate ps = ⟨48000000000 * ps.length, ps.sum⟩ := by
  rw [meanRate, List.sum_eq_foldl]

theorem Tracker.refine_estimated {t : Tracker} (h : 0 < t.periods.sum) : t.refine.estimated := by
  obtain ⟨low, high, inside⟩ := (meanRate t.periods).limited_cases (t.nominal.getD 48000)
  have step := Rate.inputStep_bounds (Rate.limited_den_pos (r := meanRate t.periods) (by rw [meanRate_eq]; exact h)
    (t.nominal.getD 48000))
  refine ⟨(meanRate t.periods).num, (meanRate t.periods).den, t.nominal.getD 48000, ?_, ?_, rfl, low, high, fun a b => ?_, step⟩
  · rw [meanRate_eq]; rfl
  · rw [meanRate_eq]; rfl
  · have same : t.refine.estimate = meanRate t.periods := inside a b
    rw [same]

end Sys2Proof.Machine
end

section
namespace Sys2Proof.Machine

/-! ### A period judged (R8 to R10) -/

theorem keepPeriod_sum_pos {gap : Time} (h : 0 < gap) (ps : List Time) : 0 < (keepPeriod ps gap).sum := by
  rw [keepPeriod, List.drop_append_of_le_length (by omega), List.sum_append, List.sum_singleton]
  exact Nat.add_pos_right _ h

/-- The period kept: counts and list, before the estimate and the state follow. -/
def Tracker.kept (t : Tracker) (gap : Time) : Tracker :=
  { t with good := min 64 (t.good + 1), slips := 0, periods := keepPeriod t.periods gap }

/-- What the estimate reads stands, so it is the estimate still. -/
theorem Tracker.estimated.congr {x y : Tracker} (h : x.estimated) (hp : y.periods = x.periods) (hn : y.nominal = x.nominal)
    (he : y.estimate = x.estimate) (hs : y.conv.step = x.conv.step) : y.estimated := by
  unfold Tracker.estimated at h ⊢
  rwa [hp, hn, he, hs]

theorem Tracker.kept_refine_estimated {gap : Time} (h : 0 < gap) (t : Tracker) : (t.kept gap).refine.estimated :=
  Tracker.refine_estimated (keepPeriod_sum_pos h t.periods)

theorem full_count (n : Nat) : min 64 (n + 1) = 64 ↔ 63 ≤ n := by omega

/-- What the 64th good period brings, told by the state. -/
def Tracker.promoted (t : Tracker) : Tracker :=
  if t.good = 64 then
    match t.state with
    | .acquire => t.lock
    | .holdover => { t with state := .locked }
    | .absent | .locked => t
  else t

theorem Tracker.goodPeriod_eq (t : Tracker) (gap : Time) : t.goodPeriod gap =
    (if t.state = .locked ∨ (t.state = .holdover ∧ 1 ≤ t.good) then (t.kept gap).refine else t.kept gap).promoted := by
  simp only [Tracker.goodPeriod, Bool.or_eq_true, Bool.and_eq_true, decide_eq_true_eq]
  rfl

theorem Tracker.goodPeriod_of_acquire {t : Tracker} (h : t.state = .acquire) (gap : Time) :
    t.goodPeriod gap = if 63 ≤ t.good then (t.kept gap).lock else t.kept gap := by
  rw [Tracker.goodPeriod_eq, if_neg (by simp [h])]
  simp [Tracker.promoted, Tracker.kept, h]

theorem Tracker.goodPeriod_of_locked {t : Tracker} (h : t.state = .locked) (gap : Time) :
    t.goodPeriod gap = (t.kept gap).refine := by
  rw [Tracker.goodPeriod_eq, if_pos (.inl h)]
  simp [Tracker.promoted, Tracker.kept, Tracker.refine, h]

/-- In HOLDOVER a good period refines the estimate from the second one on. -/
def Tracker.heldGood (t : Tracker) (gap : Time) : Tracker := if 1 ≤ t.good then (t.kept gap).refine else t.kept gap

theorem Tracker.heldGood_fields (t : Tracker) (gap : Time) :
    (t.heldGood gap).state = t.state ∧ (t.heldGood gap).slips = 0 ∧ (t.heldGood gap).good = min 64 (t.good + 1)
      ∧ (t.heldGood gap).holdoverAt = t.holdoverAt ∧ (t.heldGood gap).conv.buffer = t.conv.buffer := by
  unfold Tracker.heldGood
  split <;> exact ⟨rfl, rfl, rfl, rfl, rfl⟩

theorem Tracker.goodPeriod_of_holdover {t : Tracker} (h : t.state = .holdover) (gap : Time) :
    t.goodPeriod gap = if 63 ≤ t.good then { t.heldGood gap with state := .locked } else t.heldGood gap := by
  obtain ⟨hs, -, hg, -, -⟩ := t.heldGood_fields gap
  have held : t.goodPeriod gap = (t.heldGood gap).promoted := by
    simp only [Tracker.goodPeriod_eq, Tracker.heldGood, h, true_and, reduceCtorEq, false_or]
  rw [held]
  simp only [Tracker.promoted, hs, h, hg, full_count]

section
variable {p : Port} {t : Tracker} {gap : Time} (now : Time)

theorem judge_unset (h : t.state = .acquire) (hn : t.nominal = none) :
    Tracker.judge p t gap now = Tracker.offerFirst p t gap := by
  simp only [Tracker.judge, h, hn]

theorem judge_acquire_good {hz : Nat} (h : t.state = .acquire) (hn : t.nominal = some hz) (hf : fits gap hz = true) :
    Tracker.judge p t gap now = t.goodPeriod gap := by
  simp only [Tracker.judge, h, hn, Tracker.inWindow_of_acquire h hn, hf, if_true]

theorem judge_acquire_slip {hz : Nat} (h : t.state = .acquire) (hn : t.nominal = some hz) (hf : ¬fits gap hz = true) :
    Tracker.judge p t gap now = Tracker.offerFirst p t.deselect gap := by
  simp only [Tracker.judge, h, hn, Tracker.inWindow_of_acquire h hn, hf, if_false, Bool.false_eq_true]

theorem judge_locked_good (h : t.state = .locked) (hw : t.inWindow gap = true) :
    Tracker.judge p t gap now = t.goodPeriod gap := by simp only [Tracker.judge, h, hw, if_true]

theorem judge_locked_slip (h : t.state = .locked) (hw : ¬t.inWindow gap = true) :
    Tracker.judge p t gap now = t.slip now := by simp only [Tracker.judge, h, hw, if_false, Bool.false_eq_true]

theorem judge_holdover_good (h : t.state = .holdover) (hw : t.inWindow gap = true) :
    Tracker.judge p t gap now = t.goodPeriod gap := by simp only [Tracker.judge, h, hw, if_true]

theorem judge_holdover_other (h : t.state = .holdover) (hw : ¬t.inWindow gap = true) (ho : t.otherNominal p gap = true) :
    Tracker.judge p t gap now =
      Tracker.offerFirst p { t with state := .acquire, good := 0, slips := 0, conv := t.conv.emptied } gap := by
  simp only [Tracker.judge, h, hw, ho, if_true, if_false, Bool.false_eq_true]

theorem judge_holdover_slip (h : t.state = .holdover) (hw : ¬t.inWindow gap = true) (ho : ¬t.otherNominal p gap = true) :
    Tracker.judge p t gap now = t.slip now := by simp only [Tracker.judge, h, hw, ho, if_false, Bool.false_eq_true]

/-- While the port stays held, a judgement leaves the converter's buffer alone. -/
theorem judge_buffer (h : t.state = .locked ∨ t.state = .holdover)
    (k : (Tracker.judge p t gap now).state = .locked ∨ (Tracker.judge p t gap now).state = .holdover) :
    (Tracker.judge p t gap now).conv.buffer = t.conv.buffer := by
  rcases h with h | h <;> by_cases hw : t.inWindow gap = true
  · rw [judge_locked_good now h hw, Tracker.goodPeriod_of_locked h]
    rfl
  · rw [judge_locked_slip now h hw, (t.slip_counts now).2.2.2]
  · rw [judge_holdover_good now h hw, Tracker.goodPeriod_of_holdover h]
    obtain ⟨-, -, -, -, hb⟩ := t.heldGood_fields gap
    split <;> exact hb
  · by_cases ho : t.otherNominal p gap = true
    · rw [judge_holdover_other now h hw ho, Tracker.offerFirst] at k
      split at k <;> simp at k
    · rw [judge_holdover_slip now h hw ho, (t.slip_counts now).2.2.2]

end

end Sys2Proof.Machine
end

section
namespace Sys2Proof.Machine

/-! ### What a judgement brings, told by the state -/

section
variable {p : Port} {t : Tracker} {gap : Time} (now : Time)

theorem judge_selects {hz : Nat} (hg : 0 < gap) (h : t.state = .acquire)
    (hn : t.nominal = none ∨ ∃ k, t.nominal = some k ∧ ¬fits gap k = true) (hm : hz ∈ nominals p) (hf : fits gap hz = true) :
    (Tracker.judge p t gap now).state = .acquire ∧ (Tracker.judge p t gap now).nominal = some hz
      ∧ (Tracker.judge p t gap now).good = 1 := by
  obtain hn | ⟨k, hn, hk⟩ := hn
  · rw [judge_unset now h hn, offerFirst_of_fits hg hm hf]
    exact ⟨h, rfl, rfl⟩
  · rw [judge_acquire_slip now h hn hk, offerFirst_of_fits hg hm hf]
    exact ⟨h, rfl, rfl⟩

theorem judge_rejects (h : t.state = .acquire)
    (hn : t.nominal = none ∨ ∃ k, t.nominal = some k ∧ ¬fits gap k = true) (hf : ∀ hz ∈ nominals p, ¬fits gap hz = true) :
    (Tracker.judge p t gap now).state = .acquire ∧ (Tracker.judge p t gap now).nominal = none
      ∧ (Tracker.judge p t gap now).good = 0 := by
  obtain hn | ⟨k, hn, hk⟩ := hn
  · rw [judge_unset now h hn, offerFirst_of_none hf]
    exact ⟨h, rfl, rfl⟩
  · rw [judge_acquire_slip now h hn hk, offerFirst_of_none hf]
    exact ⟨h, rfl, rfl⟩

theorem judge_counts {hz : Nat} (hg : 0 < gap) (h : t.state = .acquire) (hn : t.nominal = some hz) (hf : fits gap hz = true) :
    (Tracker.judge p t gap now).nominal = some hz ∧ (Tracker.judge p t gap now).slips = 0
      ∧ (Tracker.judge p t gap now).good = min 64 (t.good + 1)
      ∧ (Tracker.judge p t gap now).periods = keepPeriod t.periods gap
      ∧ (t.good < 63 → (Tracker.judge p t gap now).state = .acquire)
      ∧ (63 ≤ t.good → (Tracker.judge p t gap now).state = .locked ∧ (Tracker.judge p t gap now).estimated
          ∧ (Tracker.judge p t gap now).conv.buffer = [] ∧ (Tracker.judge p t gap now).conv.started = false) := by
  rw [judge_acquire_good now h hn hf, Tracker.goodPeriod_of_acquire h]
  split
  · have locked := (t.kept_refine_estimated hg).congr (y := (t.kept gap).lock) rfl rfl rfl rfl
    exact ⟨hn, rfl, rfl, rfl, fun k => by omega, fun _ => ⟨rfl, locked, rfl, rfl⟩⟩
  · exact ⟨hn, rfl, rfl, rfl, fun _ => h, fun k => absurd k ‹_›⟩

theorem judge_inside_locked (hg : 0 < gap) (h : t.state = .locked) (hw : t.inWindow gap = true) :
    (Tracker.judge p t gap now).state = .locked ∧ (Tracker.judge p t gap now).slips = 0
      ∧ (Tracker.judge p t gap now).good = min 64 (t.good + 1) ∧ (Tracker.judge p t gap now).estimated
      ∧ (Tracker.judge p t gap now).periods = keepPeriod t.periods gap
      ∧ (Tracker.judge p t gap now).nominal = t.nominal := by
  rw [judge_locked_good now h hw, Tracker.goodPeriod_of_locked h]
  exact ⟨h, rfl, rfl, t.kept_refine_estimated hg, rfl, rfl⟩

theorem judge_outside_locked (h : t.state = .locked) (hw : ¬t.inWindow gap = true) :
    (Tracker.judge p t gap now).good = 0 ∧ (Tracker.judge p t gap now).slips = min 3 (t.slips + 1)
      ∧ (Tracker.judge p t gap now).state = (if 2 ≤ t.slips then .holdover else .locked)
      ∧ (Tracker.judge p t gap now).estimate = t.estimate
      ∧ (2 ≤ t.slips → (Tracker.judge p t gap now).holdoverAt = now) := by
  rw [judge_locked_slip now h hw]
  obtain ⟨hs, hg, he, -⟩ := t.slip_counts now
  refine ⟨hg, hs, ?_, he, fun k => ?_⟩
  · rw [t.slip_state now (.inl h), h]
    simp
  · rw [t.slip_holdoverAt, if_pos ⟨h, k⟩]

theorem judge_inside_holdover (hg : 0 < gap) (h : t.state = .holdover) (hw : t.inWindow gap = true) :
    (Tracker.judge p t gap now).slips = 0 ∧ (Tracker.judge p t gap now).good = min 64 (t.good + 1)
      ∧ (Tracker.judge p t gap now).state = (if 63 ≤ t.good then .locked else .holdover)
      ∧ (1 ≤ t.good → (Tracker.judge p t gap now).estimated)
      ∧ (t.good = 0 → (Tracker.judge p t gap now).estimate = t.estimate)
      ∧ (Tracker.judge p t gap now).holdoverAt = t.holdoverAt := by
  obtain ⟨hst, hs, hgd, hat, -⟩ := t.heldGood_fields gap
  have refined : 1 ≤ t.good → (t.heldGood gap).estimated := fun k => by
    rw [Tracker.heldGood, if_pos k]
    exact t.kept_refine_estimated hg
  have first : t.good = 0 → (t.heldGood gap).estimate = t.estimate := fun k => by
    rw [Tracker.heldGood, if_neg (by omega)]
    rfl
  rw [judge_holdover_good now h hw, Tracker.goodPeriod_of_holdover h]
  split
  · exact ⟨hs, hgd, rfl, fun k => (refined k).congr rfl rfl rfl rfl, first, hat⟩
  · exact ⟨hs, hgd, hst.trans h, refined, first, hat⟩

theorem judge_reselects {hz : Nat} (hg : 0 < gap) (h : t.state = .holdover) (hw : ¬t.inWindow gap = true)
    (hm : hz ∈ nominals p) (hf : fits gap hz = true) (hn : t.nominal ≠ some hz) :
    (Tracker.judge p t gap now).state = .acquire ∧ (Tracker.judge p t gap now).nominal = some hz
      ∧ (Tracker.judge p t gap now).good = 1 ∧ (Tracker.judge p t gap now).conv.buffer = []
      ∧ (Tracker.judge p t gap now).conv.started = false := by
  rw [judge_holdover_other now h hw (otherNominal_iff.2 ⟨hz, hm, hn, hf⟩), offerFirst_of_fits hg hm hf]
  exact ⟨rfl, rfl, rfl, rfl, rfl⟩

theorem judge_outside_holdover (h : t.state = .holdover) (hw : ¬t.inWindow gap = true)
    (hn : ∀ hz ∈ nominals p, fits gap hz = true → t.nominal = some hz) :
    (Tracker.judge p t gap now).state = .holdover ∧ (Tracker.judge p t gap now).good = 0
      ∧ (Tracker.judge p t gap now).slips = min 3 (t.slips + 1) ∧ (Tracker.judge p t gap now).estimate = t.estimate := by
  have none_other : ¬t.otherNominal p gap = true := fun k => by
    obtain ⟨hz, hm, hne, hf⟩ := otherNominal_iff.1 k
    exact hne (hn hz hm hf)
  rw [judge_holdover_slip now h hw none_other]
  obtain ⟨hs, hg, he, -⟩ := t.slip_counts now
  exact ⟨by rw [t.slip_state now (.inr h), if_pos (.inl h)], hg, hs, he⟩

end

/-! ### The event of a frame sync -/

/-- The set that a sync brings enters the buffer of a port that is held. -/
def Tracker.fed (t : Tracker) (set : List Int) : Tracker := if t.holding then { t with conv := t.conv.push set } else t

/-- The moment of a sync noted, from which the next period is measured. -/
def Tracker.marked (t : Tracker) (now : Time) : Tracker := { t with lastSync := now, waitFrom := now, measuring := true }

theorem Tracker.sync_eq (p : Port) (t : Tracker) (gap now : Time) (set : List Int) : Tracker.sync p t gap now set =
    (if (t.fed set).state = .absent then { (t.fed set).lost with state := .acquire }
      else if (t.fed set).measuring then Tracker.judge p (t.fed set) gap now else t.fed set).marked now := rfl

theorem Tracker.fed_eq (t : Tracker) (set : List Int) : ∃ c, t.fed set = { t with conv := c } := by
  unfold Tracker.fed
  split
  · exact ⟨_, rfl⟩
  · exact ⟨t.conv, rfl⟩

/-- The state after a frame sync, before the edges. -/
theorem State.takeSync_of_run {s : State} (hr : s.power.state = .run) (gap : Time) (set : PortFrame) : s.takeSync gap set =
    let p := PortFrame.port set
    let u := s.reach ((s.tracker p).lastSync + gap)
    let v := u.withTracker p (Tracker.sync p (u.tracker p) gap u.clock.now (PortFrame.samples set))
    if p = .p2 then v.withPorts v.ports.sendUplink else v := by
  unfold State.takeSync
  rw [if_neg (not_not_intro hr)]
  dsimp only
  cases PortFrame.port set <;> rfl

/-- A tracker whose converter has run on. -/
abbrev Tracker.ran (x : Tracker) (c : Converter) (d : List (List Int)) : Tracker := { x with conv := c, delivered := d }

/-- A frame sync brings the clock to its moment and the port's tracker through its sync; the tracker's converter has run until then. -/
theorem frameSync_of_run {s : State} (hr : s.power.state = .run) (gap : Time) (set : PortFrame) {p : Port}
    (hp : p = PortFrame.port set) :
    ∃ t c d, exec (.frameSync gap set) s = .next t ∧ Happens [.clock, .ports] s t ∧ Unreported s t
      ∧ t.clock.now = max s.clock.now ((s.tracker p).lastSync + gap)
      ∧ t.tracker p = Tracker.sync p ((s.tracker p).ran c d) gap t.clock.now (PortFrame.samples set)
      ∧ (s.clock.periods = 48 → c = (s.tracker p).conv)
      ∧ (∀ q, q ≠ p → (t.tracker q).state = (s.tracker q).state)
      ∧ (p = .p2 → t.ports =
          ((s.reach ((s.tracker p).lastSync + gap)).withTracker p (t.tracker p)).ports.sendUplink) := by
  have hf := State.takeSync_of_run hr gap set
  rw [← hp] at hf
  obtain ⟨c, d, hz⟩ := s.reach_tracker ((s.tracker p).lastSync + gap) p
  have hc : s.clock.periods = 48 → c = (s.tracker p).conv := fun h48 => by
    rw [State.tracker_of_ports (s.reach_ports_of_full h48 _)] at hz
    exact (congrArg Tracker.conv hz).symm
  dsimp only at hf
  rw [hz] at hf
  generalize hu : s.reach ((s.tracker p).lastSync + gap) = u at hf ⊢
  generalize hy : Tracker.sync p _ gap u.clock.now (PortFrame.samples set) = y at hf
  have reached : Happens [.clock, .ports] s (u.withTracker p y) := hu ▸ happens_reach_withTracker s _ p y
  have sent : Happens [.clock, .ports] s (s.takeSync gap set) ∧ (s.takeSync gap set).links = s.links
      ∧ (s.takeSync gap set).clock = u.clock ∧ (∀ q, (s.takeSync gap set).tracker q = (u.withTracker p y).tracker q)
      ∧ (p = .p2 → (s.takeSync gap set).ports = (u.withTracker p y).ports.sendUplink) := by
    have hl : (u.withTracker p y).links = s.links := by rw [State.withTracker_links, ← hu, State.reach_links]
    have hk : (u.withTracker p y).clock = u.clock := State.withTracker_clock _ _ _
    rw [hf]
    split
    · exact ⟨reached.trans ((happens_withPorts _ _).mono (by simp)), hl, hk,
        State.tracker_withPorts (Ports.sendUplink_trackers _), fun _ => rfl⟩
    · exact ⟨reached, hl, hk, fun _ => rfl, fun k => absurd k ‹_›⟩
  obtain ⟨happens, links, clock, trackers, slot⟩ := sent
  obtain ⟨t, ht, hh, hun, hcl, hpo⟩ := event_of_ports (f := fun s => s.takeSync gap set) happens links
  have hnow : t.clock.now = u.clock.now := by rw [hcl]; exact congrArg Clock.now clock
  have htr : ∀ q, t.tracker q = (u.withTracker p y).tracker q := fun q => (State.tracker_of_ports hpo q).trans (trackers q)
  have hyt : t.tracker p = y := by rw [htr, State.withTracker_tracker, if_pos rfl]
  refine ⟨t, c, d, ht, hh, hun, ?_, ?_, hc, fun q hq => ?_, fun h2 => ?_⟩
  · rw [hnow, ← hu, reach_now]
  · rw [hyt, ← hy, hnow]
  · rw [htr, State.withTracker_tracker, if_neg hq, ← hu, State.reach_tracker_state]
  · rw [hpo, hyt]
    exact slot h2

end Sys2Proof.Machine
end

section
namespace Sys2Proof.Machine

theorem Tracker.fed_of_held {t : Tracker} (h : t.state = .locked ∨ t.state = .holdover) (set : List Int) :
    t.fed set = { t with conv := t.conv.push set } := if_pos (t.holding_iff.2 h)

/-- The branches of a sync: a port found ABSENT, the first sync of a measurement, or a period measured. -/
theorem sync_cases (p : Port) (t : Tracker) (gap now : Time) (set : List Int) :
    ∃ k, (t.state = .locked ∨ t.state = .holdover → k = t.conv.push set)
      ∧ (t.state = .absent → Tracker.sync p t gap now set =
          ({ ({ t with conv := k } : Tracker).lost with state := .acquire } : Tracker).marked now)
      ∧ (t.measuring = false → t.state ≠ .absent → Tracker.sync p t gap now set = ({ t with conv := k } : Tracker).marked now)
      ∧ (t.measuring = true → t.state ≠ .absent →
          Tracker.sync p t gap now set = (Tracker.judge p { t with conv := k } gap now).marked now) := by
  obtain ⟨k, hk⟩ := t.fed_eq set
  refine ⟨k, fun h => ?_, fun h => ?_, fun h hs => ?_, fun h hs => ?_⟩
  · exact congrArg Tracker.conv (hk.symm.trans (Tracker.fed_of_held h set))
  · rw [Tracker.sync_eq, hk, if_pos h]
  · rw [Tracker.sync_eq, hk, if_neg hs, h, if_neg Bool.false_ne_true]
  · rw [Tracker.sync_eq, hk, if_neg hs, if_pos h]

/-- Settles O59: the sync's branches on the tracker that has run until its moment, and in each of them the judgement's. -/
theorem trackerPeriods : Obligations.TrackerPeriods := by
  unfold Obligations.TrackerPeriods
  intro s gap set p x fit inside hr hp hx hg hfit hin
  obtain ⟨t, c, d, he, hh, hun, hnow, hy, hfull, hothers, -⟩ := frameSync_of_run hr gap set hp
  rw [← hx] at hnow hy hfull
  have hfits : ∀ hz, fit hz ↔ fits gap hz = true := fun hz => (hfit hz).trans (fits_iff hg hz).symm
  obtain ⟨k, hpush, habsent, hfirst, hjudged⟩ := sync_cases p (x.ran c d) gap t.clock.now (PortFrame.samples set)
  have hwin : x.state = .locked ∨ x.state = .holdover →
      (inside ↔ (x.ran k d).inWindow gap = true) := fun h => by
    rw [hin, Tracker.inWindow_iff hg, Tracker.centre_of_holding (t := x.ran k d) h]
  have hmark : (t.tracker p).lastSync = t.clock.now ∧ (t.tracker p).measuring = true := by
    rw [hy, Tracker.sync_eq]
    exact ⟨rfl, rfl⟩
  refine ⟨t, _, he, hh, hun, rfl, hnow, hmark.1, hmark.2, hothers, fun h => ?_, fun hm h => ?_, fun hm h => ?_,
    fun hm h i => ?_, fun hm h i => ?_, fun hm h => ?_, fun h hheld h48 => ?_⟩
  · rw [hy, habsent h]
    exact ⟨rfl, rfl, rfl⟩
  · rw [hy, hfirst hm h]
    exact ⟨rfl, rfl, rfl, rfl⟩
  · rw [hy, hjudged hm (by simp [h])]
    refine ⟨fun hz hmem hn hf => ?_, fun hn hf => ?_, fun hz hn hf => ?_⟩
    · simp only [hfits] at hn hf
      exact judge_selects (t := x.ran k d) _ hg h hn hmem hf
    · simp only [hfits] at hn hf
      exact judge_rejects (t := x.ran k d) _ h hn hf
    · obtain ⟨h1, h2, h3, h4, h5, h6⟩ :=
        judge_counts (t := x.ran k d) (p := p) t.clock.now hg h hn ((hfits hz).1 hf)
      exact ⟨h1, h2, h3, h4, h5, fun full => (h6 full).imp_right fun r => ⟨r.1.congr rfl rfl rfl rfl, r.2⟩⟩
  · rw [hy, hjudged hm (by simp [h])]
    obtain ⟨h1, h2, h3, h4, h5, h6⟩ :=
      judge_inside_locked (t := x.ran k d) (p := p) t.clock.now hg h ((hwin (.inl h)).1 i)
    exact ⟨h1, h2, h3, h4.congr rfl rfl rfl rfl, h5, h6⟩
  · rw [hy, hjudged hm (by simp [h])]
    exact judge_outside_locked (t := x.ran k d) _ h (mt (hwin (.inl h)).2 i)
  · rw [hy, hjudged hm (by simp [h])]
    refine ⟨fun i => ?_, fun hz hmem i hf hn => ?_, fun i hn => ?_⟩
    · obtain ⟨h1, h2, h3, h4, h5, h6⟩ :=
        judge_inside_holdover (t := x.ran k d) (p := p) t.clock.now hg h ((hwin (.inr h)).1 i)
      exact ⟨h1, h2, h3, fun r => (h4 r).congr rfl rfl rfl rfl, h5, h6⟩
    · exact judge_reselects (t := x.ran k d) _ hg h (mt (hwin (.inr h)).2 i) hmem
        ((hfits hz).1 hf) hn
    · simp only [hfits] at hn
      exact judge_outside_holdover (t := x.ran k d) _ h (mt (hwin (.inr h)).2 i) hn
  · have pushed : k = x.conv.push (PortFrame.samples set) := by
      rw [← hfull h48]
      exact hpush h
    rw [← (x.conv.push_cases (PortFrame.samples set)).1, ← pushed]
    have present : x.state ≠ .absent := by rcases h with h | h <;> simp [h]
    by_cases hm : x.measuring = true
    · rw [hy, hjudged hm present] at hheld ⊢
      exact judge_buffer (t := x.ran k d) _ h hheld
    · rw [hy, hfirst (by simpa using hm) present]
      rfl

end Sys2Proof.Machine
end

section
namespace Sys2Proof.Machine

/-! ### P2's uplink slot (R5, R11) -/

theorem Ports.sendUplink_of_acquire {x : Ports} (h : x.p2.state = .acquire) : x.sendUplink.uplinkSlot = some 0 := by
  simp only [Ports.sendUplink, h]

/-- The output converter with the step of the present estimate. -/
def Ports.timedUplink (x : Ports) : Converter := { x.uplink with step := x.p2.estimate.outputStep }

theorem Ports.sendUplink_of_held {x : Ports} (h : x.p2.state = .locked ∨ x.p2.state = .holdover) : x.sendUplink =
    { x with uplink := (x.timedUplink.pull 1).2, uplinkSlot := some ((x.timedUplink.pull 1).1.headD 0) } := by
  rcases h with h | h <;> simp only [Ports.sendUplink, Ports.timedUplink, h]

theorem Ports.uplinkSlot_of_silent {x : Ports} (h : x.p2.state = .locked ∨ x.p2.state = .holdover)
    (hs : x.uplink.started = false ∨ x.uplink.buffer.length < 2) : x.sendUplink.uplinkSlot = some 0 := by
  rw [Ports.sendUplink_of_held h]
  by_cases hst : x.uplink.started = false
  · rw [Converter.pull_of_stopped (c := x.timedUplink) hst]
    rfl
  · rw [Converter.pull_of_short (c := x.timedUplink) (Bool.eq_true_of_not_eq_false hst) (hs.resolve_left hst)]
    rfl

theorem Rate.outputStep_bounds {r : Rate} (h : 0 < r.num) :
    2 * r.num * r.outputStep ≤ 2097152000 * r.den + r.num ∧ 2097152000 * r.den + r.num < 2 * r.num * (r.outputStep + 1) := by
  obtain ⟨lo, hi⟩ := roundDiv_bounds (65536 * 16000 * r.den) h
  have hn : 2 * (65536 * 16000 * r.den) = 2097152000 * r.den := by omega
  rw [hn] at lo hi
  exact ⟨lo, hi⟩

/-- A slot between the two oldest samples of the uplink. -/
theorem Ports.sendUplink_between {x : Ports} {a b : Int} {rest : List (List Int)}
    (h : x.p2.state = .locked ∨ x.p2.state = .holdover) (hs : x.uplink.started = true)
    (hb : x.uplink.buffer = [a] :: [b] :: rest) :
    x.sendUplink.uplinkSlot = some (a + ((b - a) * (x.uplink.phase : Int) + 32768) / 65536)
      ∧ x.sendUplink.uplink.phase = (x.uplink.phase + x.p2.estimate.outputStep) % 65536
      ∧ x.sendUplink.uplink.buffer = x.uplink.buffer.drop ((x.uplink.phase + x.p2.estimate.outputStep) / 65536) := by
  rw [Ports.sendUplink_of_held h, Converter.pull_of_two (c := x.timedUplink) hs hb]
  exact ⟨rfl, rfl, rfl⟩

/-- While P2 stays held its output converter goes on. -/
theorem Ports.followP2_of_held {x : Ports} {st : TrackerState} (h : st = .locked ∨ st = .holdover)
    (k : x.p2.state = .locked ∨ x.p2.state = .holdover) : x.followP2 st = x := by
  rcases h with rfl | rfl <;> rcases k with k | k <;> simp [Ports.followP2, k]

/-- P2 entering LOCKED from ACQUIRE begins with an empty output converter. -/
theorem Ports.followP2_of_acquire (x : Ports) : (x.followP2 .acquire).uplink = x.uplink.emptied := rfl

theorem uplink_of_frameSync {s : State} {gap : Time} (v : Half) (hr : s.power.state = .run) :
    ∃ (t : State) (x : Ports), exec (.frameSync gap (.telephony v)) s = .next t ∧ t.ports = x.sendUplink ∧ x.p2 = t.ports.p2
      ∧ (s.ports.p2.state = .acquire → x.uplink.started = false)
      ∧ (s.ports.p2.state = .locked ∨ s.ports.p2.state = .holdover → t.ports.p2.state = .locked ∨ t.ports.p2.state = .holdover →
          x.uplink = s.ports.uplink) := by
  obtain ⟨t, c, d, he, -, -, -, -, -, -, hslot⟩ := frameSync_of_run hr gap (.telephony v) (p := .p2) rfl
  have hports := hslot rfl
  rw [State.withTracker_ports, if_pos rfl] at hports
  generalize hu : s.reach ((s.tracker .p2).lastSync + gap) = u at hports
  have before : u.ports.p2.state = s.ports.p2.state := hu ▸ State.reach_tracker_state s _ .p2
  have uplink : u.ports.uplink = s.ports.uplink := hu ▸ State.reach_uplink s _
  have placed : (u.setTracker .p2 (t.tracker .p2)).ports.p2 = t.ports.p2
      ∧ (u.setTracker .p2 (t.tracker .p2)).ports.uplink = u.ports.uplink := ⟨rfl, rfl⟩
  generalize (u.setTracker .p2 (t.tracker .p2)).ports = x at hports placed
  refine ⟨t, x.followP2 u.ports.p2.state, he, hports, ?_, fun h => ?_, fun h k => ?_⟩
  · rw [(Ports.followP2_trackers _ x).2.2, placed.1]
  · rw [before, h, Ports.followP2_of_acquire]
    rfl
  · rw [Ports.followP2_of_held (before ▸ h) (by rw [placed.1]; exact k), placed.2, uplink]

/-- Settles O60: the four timed events bring the clock to their moment and move the tracker alone, and a sync of P2 sends one slot. -/
theorem trackerTimers : Obligations.TrackerTimers := by
  unfold Obligations.TrackerTimers
  refine ⟨fun s p x hx => ?_, fun s gap v hr _ => ?_⟩
  · subst hx
    exact ⟨overdue_of_holding, fun hz => overdue_of_acquire, giveUp_of_acquire, holdoverTimeout_of_holdover⟩
  · obtain ⟨t, x, he, hsent, hp2, hfresh, hkept⟩ := uplink_of_frameSync (gap := gap) v hr
    refine ⟨t, he, fun h => ?_, fun h ha => ?_, fun h hs => ⟨fun hq => ?_, fun a b rest hst hb => ?_⟩⟩
    · rw [hsent]
      exact Ports.sendUplink_of_acquire (hp2 ▸ h)
    · rw [hsent]
      exact Ports.uplinkSlot_of_silent (.inl (hp2 ▸ h)) (.inl (hfresh ha))
    · rw [hsent]
      exact Ports.uplinkSlot_of_silent (hp2 ▸ h) (hkept hs h ▸ hq)
    · obtain ⟨hslot, hphase, hbuffer⟩ :=
        Ports.sendUplink_between (hp2 ▸ h) (hkept hs h ▸ hst) ((congrArg Converter.buffer (hkept hs h)).trans hb)
      rw [hkept hs h, hp2, ← hsent] at hphase hbuffer
      rw [hkept hs h, ← hsent] at hslot
      exact ⟨hslot, _, Rate.outputStep_bounds, hphase, hbuffer⟩

end Sys2Proof.Machine
end

section
namespace Sys2Proof.Machine

/-! ### Nothing due, nothing settled -/

@[simp] theorem State.setLink_link_self (s : State) (l : Link) : s.setLink l (s.link l) = s := by cases l <;> rfl

theorem State.offer_zero (s : State) (l : Link) : s.offer l 0 0 = s := by
  rw [State.offer, LinkState.offer_zero, State.setLink_link_self]

theorem foldl_fixed {α β : Type} {f : β → α → β} {b : β} {xs : List α} (h : ∀ a ∈ xs, f b a = b) : xs.foldl f b = b := by
  induction xs with
  | nil => rfl
  | cons a xs ih =>
    rw [List.foldl_cons, h a List.mem_cons_self]
    exact ih fun c hc => h c (List.mem_cons_of_mem _ hc)

theorem State.offerEdges_self (s : State) : State.offerEdges s s = s := by
  refine foldl_fixed fun l _ => ?_
  simp only [BitVec.and_not_self]
  exact s.offer_zero l

theorem settled_of_fixed {f : State → State} {s : State} (h : f s = s) : settled f s = s := by
  rw [settled, h, State.offerEdges_self]

theorem State.windowJudged_of_open {s : State} (h : s.call.echo.count < 8000) : s.windowJudged = s := if_neg (by omega)

theorem State.releaseGuard_of_few {s : State} {k : Nat} (h : (s.sink k).clean < 16) : s.releaseGuard k = s := if_neg (by omega)

theorem State.fadeOutEnd_of_not {s : State} {k : Nat} (h : ¬((s.sink k).delayState = .fadeOut ∧ (s.sink k).faded = true)) :
    s.fadeOutEnd k = s := if_neg h

theorem State.fadeInEnd_of_not {s : State} {k : Nat} (h : ¬((s.sink k).delayState = .fadeIn ∧ (s.sink k).fade = 0)) :
    s.fadeInEnd k = s := if_neg h

theorem State.replayDrained_of_not {s : State} (h : s.shift.drained = false) : s.replayDrained = s := if_neg (by simp [h])

theorem State.memoReplayEnded_of_not {s : State} (h : s.shift.drained = false) : s.memoReplayEnded = s := if_neg (by simp [h])

theorem State.playEnded_of_not {s : State} {n : Fin 4} (h : ¬((s.voice n.val).state = .playing ∧ (s.voice n.val).remaining = 0)) :
    s.playEnded n = s := by
  unfold State.playEnded
  dsimp only
  split
  · exact if_neg (by simpa using h)
  · rfl

theorem State.gapOver_of_not {s : State} {n : Fin 4} (h : ¬((s.voice n.val).state = .gap ∧ (s.voice n.val).gapLeft = 0)) :
    s.gapOver n = s := by
  unfold State.gapOver
  dsimp only
  split
  · exact if_neg (by simpa using h)
  · rfl

theorem State.reachIdle_of_not {s : State} {n : Fin 4}
    (h : ¬((s.voice n.val).state = .stopping ∧ (s.voice n.val).faded = true)) : s.reachIdle n = s := if_neg (by simpa using h)

/-- Where nothing is due, the frame event begins with the state as it is. -/
theorem State.settleDue_of_nothingDue {s : State} (h : s.nothingDue) : s.settleDue = s := by
  obtain ⟨sinks, drained, window, voices⟩ := h
  have judged : settled State.windowJudged s = s := settled_of_fixed (s.windowJudged_of_open window)
  have clips : ∀ k ∈ List.range 20, settled (fun s => s.fadeInEnd k) (settled (fun s => s.fadeOutEnd k)
      (settled (fun s => s.releaseGuard k) s)) = s := fun k _ => by
    obtain ⟨clean, out, back⟩ := sinks k
    have released : settled (fun s => s.releaseGuard k) s = s := settled_of_fixed (s.releaseGuard_of_few clean)
    have turned : settled (fun s => s.fadeOutEnd k) s = s := settled_of_fixed (s.fadeOutEnd_of_not out)
    have ended : settled (fun s => s.fadeInEnd k) s = s := settled_of_fixed (s.fadeInEnd_of_not back)
    rw [released, turned, ended]
  have replayed : settled State.replayDrained s = s := settled_of_fixed (s.replayDrained_of_not drained)
  have remembered : settled State.memoReplayEnded s = s := settled_of_fixed (s.memoReplayEnded_of_not drained)
  have plays : ∀ n ∈ voiceNumbers, settled (fun s => s.gapOver n) (settled (fun s => s.playEnded n) s) = s := fun n _ => by
    obtain ⟨play, gap, -⟩ := voices n
    have played : settled (fun s => s.playEnded n) s = s := settled_of_fixed (s.playEnded_of_not play)
    have resumed : settled (fun s => s.gapOver n) s = s := settled_of_fixed (s.gapOver_of_not gap)
    rw [played, resumed]
  have ends : ∀ n ∈ voiceNumbers, settled (fun s => s.reachIdle n) s = s := fun n _ =>
    settled_of_fixed (s.reachIdle_of_not (voices n).2.2)
  have swept := foldl_fixed (f := fun s k => settled (fun s => s.fadeInEnd k) (settled (fun s => s.fadeOutEnd k)
    (settled (fun s => s.releaseGuard k) s))) clips
  have sounded := foldl_fixed (f := fun s n => settled (fun s => s.gapOver n) (settled (fun s => s.playEnded n) s)) plays
  unfold State.settleDue
  dsimp only
  rw [judged, swept, replayed, remembered, sounded]
  exact foldl_fixed ends

/-! ### What each part of a frame event may change -/

theorem happens_mixFrame (s : State) (o : Offers) : Happens [.mix] s (s.mixFrame o) := happens_withMix _ _

theorem happens_afterReplay (s : State) : Happens [.shift] s s.afterReplay := .ite (happens_withShift _ _) (.refl _ _)

theorem happens_record (s : State) (w : Word) : Happens [.shift, .store] s (s.record w) := by
  unfold State.record
  have put : ∀ b, Happens [.shift, .store] s
      ((s.withStore (s.store.write (s.shift.write.getD s.store.shiftFirst) w)).withShift b) := fun b =>
    ((happens_withStore _ _).mono (by simp)).trans ((happens_withShift _ _).mono (by simp))
  exact .ite (put _) (.ite (put _) ((put _).trans ((happens_riseAll _ _).mono (by simp))))

theorem happens_capture (s : State) (o : Offers) : Happens [.shift, .store] s (s.capture o) := by
  unfold State.capture
  refine .ite ?_ (.refl _ _)
  split
  · exact happens_foldl _ happens_record _ _
  · exact .refl _ _

theorem happens_cancel (s : State) (x : FrameInput) : Happens [.call] s (s.cancel x) :=
  .ite (happens_withCall _ _) (happens_withCall _ _)

theorem happens_handUplink (s : State) : Happens [.ports] s s.handUplink := .ite (happens_withPorts _ _) (.refl _ _)

theorem happens_conference (s : State) (x : FrameInput) : Happens [.call] s (s.conference x) := by
  unfold State.conference
  exact .ite (.refl _ _) ((happens_withCall _ _).trans (happens_withCall _ _))

theorem happens_startSampling (s : State) : Happens [.stations] s s.startSampling := happens_withStations _ _

theorem happens_frameVoices (s : State) : Happens [.chime] s s.frameVoices := happens_withChime _ _

theorem happens_postStreams (s : State) : Happens [.store] s s.postStreams := by
  unfold State.postStreams
  exact (happens_withStore _ _).trans ((happens_setPosted _ _ _).trans ((happens_postReplay _).trans
    (happens_foldl _ (fun s n => happens_setPosted s _ _) _ _)))

theorem happens_nextFrame (s : State) : Happens [.clock, .ports, .tunA, .tunB] s s.nextFrame :=
  ((happens_withPorts s _).mono (by simp)).trans (((happens_withClock _ _).mono (by simp)).trans
    (((happens_withTunA _ _).mono (by simp)).trans ((happens_withTunB _ _).mono (by simp))))

/-- The frame from its mix to the work of the call, before the voices. -/
def State.frameCall (s : State) (x : FrameInput) (o : Offers) : State :=
  let s := s.afterReplay.capture o
  let s := s.withCall { s.call with refZones := s.table.basedZones callHandle }
  ((s.cancel x).handUplink.conference x).startSampling

theorem State.frame_eq (s : State) (x : FrameInput) :
    s.frame x = ((s.mixFrame (s.offers x)).frameCall x (s.offers x)).frameVoices.postStreams.nextFrame := rfl

theorem happens_frameCall (s : State) (x : FrameInput) (o : Offers) :
    Happens [.ports, .shift, .store, .call, .stations] s (s.frameCall x o) := by
  unfold State.frameCall
  exact ((happens_afterReplay s).mono (by simp)).trans (((happens_capture _ o).mono (by simp)).trans
    (((happens_withCall _ _).mono (by simp)).trans (((happens_cancel _ x).mono (by simp)).trans
      (((happens_handUplink _).mono (by simp)).trans (((happens_conference _ x).mono (by simp)).trans
        ((happens_startSampling _).mono (by simp)))))))

end Sys2Proof.Machine
end

section
namespace Sys2Proof.Machine

/-! ### The blocks after a frame -/

theorem happens_afterMix (s : State) (x : FrameInput) :
    Happens [.clock, .ports, .tunA, .tunB, .shift, .store, .call, .stations, .chime] (s.mixFrame (s.offers x)) (s.frame x) := by
  rw [State.frame_eq]
  exact ((happens_frameCall _ x _).mono (by simp)).trans (((happens_frameVoices _).mono (by simp)).trans
    (((happens_postStreams _).mono (by simp)).trans ((happens_nextFrame _).mono (by simp))))

theorem happens_frame (s : State) (x : FrameInput) :
    Happens [.clock, .ports, .mix, .tunA, .tunB, .shift, .store, .call, .stations, .chime] s (s.frame x) :=
  ((happens_mixFrame s _).mono (by simp)).trans ((happens_afterMix s x).mono (by simp))

theorem State.frame_mix (s : State) (x : FrameInput) : (s.frame x).mix = (s.mixFrame (s.offers x)).mix :=
  (happens_afterMix s x).blocks.2 .mix (by decide)

/-- A frame up to the voices' requests: the ports, but for what is handed to P2's uplink, and the tuners as before. -/
def State.framePosted (s : State) (x : FrameInput) : State :=
  ((s.mixFrame (s.offers x)).frameCall x (s.offers x)).frameVoices.postStreams

theorem happens_framePosted (s : State) (x : FrameInput) :
    Happens [.ports, .mix, .shift, .store, .call, .stations, .chime] s (s.framePosted x) :=
  ((happens_mixFrame s _).mono (by simp)).trans (((happens_frameCall _ x _).mono (by simp)).trans
    (((happens_frameVoices _).mono (by simp)).trans ((happens_postStreams _).mono (by simp))))

theorem State.frame_eq_nextFrame (s : State) (x : FrameInput) : s.frame x = (s.framePosted x).nextFrame := rfl

theorem State.nextFrame_clock (s : State) :
    s.nextFrame.clock = ⟨s.clock.now, s.clock.frameDue + 48 * 1000000, 0⟩ := by
  rw [State.nextFrame, samplePeriod]
  rfl

theorem State.frame_clock (s : State) (x : FrameInput) :
    (s.frame x).clock = ⟨s.clock.now, s.clock.frameDue + 48 * 1000000, 0⟩ := by
  have same : (s.framePosted x).clock = s.clock := (happens_framePosted s x).blocks.2 .clock (by decide)
  rw [State.frame_eq_nextFrame, State.nextFrame_clock, same]

theorem State.frame_tuners (s : State) (x : FrameInput) :
    (s.frame x).tunA = { s.tunA with rx := s.tunA.rx.unmarked } ∧ (s.frame x).tunB = { s.tunB with rx := s.tunB.rx.unmarked } := by
  have sameA : (s.framePosted x).tunA = s.tunA := (happens_framePosted s x).blocks.2 .tunA (by decide)
  have sameB : (s.framePosted x).tunB = s.tunB := (happens_framePosted s x).blocks.2 .tunB (by decide)
  have marked : ∀ u : State, u.nextFrame.tunA = { u.tunA with rx := u.tunA.rx.unmarked }
      ∧ u.nextFrame.tunB = { u.tunB with rx := u.tunB.rx.unmarked } := fun u => ⟨rfl, rfl⟩
  rw [State.frame_eq_nextFrame, (marked _).1, (marked _).2, sameA, sameB]
  exact ⟨rfl, rfl⟩

/-! ### The ports -/

theorem State.handUplink_tracker (s : State) (q : Port) : s.handUplink.tracker q = s.tracker q := by
  unfold State.handUplink
  split
  · cases q <;> rfl
  · rfl

theorem State.frameCall_tracker (s : State) (x : FrameInput) (o : Offers) (q : Port) :
    (s.frameCall x o).tracker q = s.tracker q := by
  unfold State.frameCall
  dsimp only
  generalize hu : (s.afterReplay.capture o).withCall _ = u
  have before : u.ports = s.ports := hu ▸ (((happens_afterReplay s).mono (by simp)).trans
    (((happens_capture _ o).mono (by simp)).trans
      ((happens_withCall _ _).mono (cs := [.shift, .store, .call]) (by simp)))).blocks.2 .ports (by decide)
  have cancelled : (u.cancel x).ports = u.ports := (happens_cancel u x).blocks.2 .ports (by decide)
  have after : (((u.cancel x).handUplink.conference x).startSampling).ports = (u.cancel x).handUplink.ports :=
    (((happens_conference _ x).mono (by simp)).trans
      ((happens_startSampling _).mono (cs := [.call, .stations]) (by simp))).blocks.2 .ports (by decide)
  rw [State.tracker_of_ports after, State.handUplink_tracker, State.tracker_of_ports cancelled, State.tracker_of_ports before]

theorem State.framePosted_tracker (s : State) (x : FrameInput) (q : Port) : (s.framePosted x).tracker q = s.tracker q := by
  have mixed : (s.mixFrame (s.offers x)).ports = s.ports := (happens_mixFrame s _).blocks.2 .ports (by decide)
  have after : (s.framePosted x).ports = ((s.mixFrame (s.offers x)).frameCall x (s.offers x)).ports :=
    (((happens_frameVoices _).mono (by simp)).trans
      ((happens_postStreams _).mono (cs := [.chime, .store]) (by simp))).blocks.2 .ports (by decide)
  rw [State.tracker_of_ports after, State.frameCall_tracker, State.tracker_of_ports mixed]

theorem State.nextFrame_ports (s : State) : s.nextFrame.ports.t0 = [] ∧ s.nextFrame.ports.t1 = []
    ∧ ∀ q, s.nextFrame.tracker q = { s.tracker q with delivered := [] } :=
  ⟨rfl, rfl, fun q => by cases q <;> rfl⟩

theorem State.frame_tracker (s : State) (x : FrameInput) (q : Port) :
    (s.frame x).tracker q = { s.tracker q with delivered := [] } := by
  rw [State.frame_eq_nextFrame, (State.nextFrame_ports _).2.2, State.framePosted_tracker]

/-! ### The sinks and the voices -/

theorem State.mixSink_sending (s : State) (o : Offers) (k : Nat) (x : Sink) : (s.mixSink o k x).sending = x.computed := by
  unfold State.mixSink
  dsimp only
  unfold Sink.send Sink.takeClip
  dsimp only
  split <;> rfl

theorem getD_map_zipIdx {α β : Type} (f : α × Nat → β) (xs : List α) (k : Nat) (d : β) :
    (xs.zipIdx.map f).getD k d = if h : k < xs.length then f (xs[k], k) else d := by
  split
  · rename_i h
    simp [List.getD_eq_getElem?_getD, h]
  · rename_i h
    rw [List.getD_eq_default _ _ (by simpa using h)]

theorem State.frame_sending (s : State) (x : FrameInput) (k : Nat) : ((s.frame x).sink k).sending =
    if k < s.mix.sinks.length then (s.sink k).computed else silentFrame := by
  rw [State.sink, State.frame_mix, State.mixFrame, State.withMix_mix, getD_map_zipIdx]
  split
  · rename_i h
    rw [State.mixSink_sending, State.sink, List.getD_eq_getElem _ _ h]
  · rfl

theorem State.frame_voice {s : State} (h : s.chime.voices.length = 4) (x : FrameInput) (n : Fin 4) :
    (s.frame x).voice n.val = (s.voice n.val).framed ((s.frame x).sounds (voiceHandle n.val)) := by
  generalize hu : (s.mixFrame (s.offers x)).frameCall x (s.offers x) = u
  have before : u.chime = s.chime := hu ▸ (((happens_mixFrame s _).mono (by simp)).trans
    ((happens_frameCall _ x _).mono (cs := [.mix, .ports, .shift, .store, .call, .stations]) (by simp))).blocks.2 .chime (by decide)
  have mixed : (s.frame x).mix = u.mix := by
    rw [State.frame_mix, ← hu]
    exact ((happens_frameCall _ x _).blocks.2 .mix (by decide)).symm
  have after : (s.frame x).chime = u.frameVoices.chime := by
    rw [State.frame_eq, hu]
    exact (((happens_postStreams _).mono (by simp)).trans
      ((happens_nextFrame _).mono (cs := [.store, .clock, .ports, .tunA, .tunB]) (by simp))).blocks.2 .chime (by decide)
  have hn : n.val < s.chime.voices.length := by omega
  have heard : (s.frame x).sounds (voiceHandle n.val) = u.sounds (voiceHandle n.val) := by simp only [State.sounds, mixed]
  rw [heard, State.voice, after, State.frameVoices, State.withChime_chime, before, getD_map_zipIdx, dif_pos hn, State.voice,
    List.getD_eq_getElem _ _ hn]

theorem Voice.due_of_sounding {v : Voice} (h : v.state = .playing ∨ v.state = .stopping) : v.due = min 48 v.remaining := if_pos h

theorem Voice.framed_of_playing {v : Voice} (h : v.state = .playing) (b : Bool) :
    v.framed b = { v with position := v.position + min 48 v.remaining, remaining := v.remaining - 48 } := by
  have left : v.remaining - min 48 v.remaining = v.remaining - 48 := by omega
  rw [← left, ← Voice.due_of_sounding (.inl h)]
  simp only [Voice.framed, h]

theorem Voice.framed_of_gap {v : Voice} (h : v.state = .gap) (b : Bool) : v.framed b = { v with gapLeft := v.gapLeft - 1 } := by
  simp only [Voice.framed, h]

theorem Voice.framed_of_stopping {v : Voice} (h : v.state = .stopping) (b : Bool) :
    v.framed b = { v with position := v.position + min 48 v.remaining, remaining := v.remaining - 48, faded := !b } := by
  have left : v.remaining - min 48 v.remaining = v.remaining - 48 := by omega
  rw [← left, ← Voice.due_of_sounding (.inr h)]
  simp only [Voice.framed, h]

theorem State.silent_iff (s : State) (h : Nat) : (!s.sounds h) = true ↔
    ∀ y ∈ s.mix.sinks, ∀ c ∈ y.list, c.origin = .handle h → 360 ≤ c.applied := by
  simp [State.sounds]

/-! ### The stream requests -/

/-- What a requester's standing request shows of the state that it was posted in (R177). -/
def State.needs (s : State) (k : Nat) : Prop :=
  (k = 0 → s.shift.running = true)
    ∧ (k = 1 → (s.shift.state = .replay ∨ s.shift.state = .memoReplay) ∧ 0 < s.shift.fill)
    ∧ ∀ n : Fin 4, k = 2 + n.val → (s.voice n.val).state = .playing ∨ ((s.voice n.val).state = .stopping ∧ 0 < (s.voice n.val).remaining)

/-- Every request kept was posted at this moment by a requester that needs words. -/
def State.PostedNow (s : State) : Prop := ∀ (k : Nat) (p : Time), s.store.posted[k]? = some (some p) → p = s.clock.now ∧ s.needs k

theorem standing_posted {now p : Time} {xs : List (Option Time)} {r k : Nat} {above : Bool}
    (h : (standing now r above xs)[k]? = some (some p)) : xs[k]? = some (some p) := by
  induction xs generalizing r k above with
  | nil => simp [standing] at h
  | cons x xs ih =>
    cases x with
    | none =>
      cases k with
      | zero => simp [standing] at h
      | succ k => exact ih h
    | some q =>
      cases k with
      | zero =>
        simp only [standing, List.getElem?_cons_zero] at h ⊢
        split at h <;> simp_all
      | succ k => exact ih h

theorem getElem?_set_some {xs : List (Option Time)} {r k : Nat} {x : Option Time} {p : Time}
    (h : (xs.set r x)[k]? = some (some p)) : xs[k]? = some (some p) ∨ (k = r ∧ x = some p) := by
  by_cases hk : r = k
  · subst hk
    rw [List.getElem?_set_self'] at h
    cases hx : xs[r]? with
    | none => simp [hx] at h
    | some y => exact .inr ⟨rfl, by simpa [hx] using h⟩
  · rw [List.getElem?_set_ne hk] at h
    exact .inl h

theorem State.PostedNow.setPosted {s : State} (h : s.PostedNow) (r : Nat) (x : Bool) (hx : x = true → s.needs r) :
    (s.setPosted r x).PostedNow := by
  intro k p hk
  have hk : (if x then s.standing.set r (some s.clock.now) else s.store.posted.set r none)[k]? = some (some p) := hk
  split at hk
  · obtain hk | ⟨rfl, hp⟩ := getElem?_set_some hk
    · exact h k p (standing_posted hk)
    · exact ⟨(Option.some.inj hp).symm, hx ‹_›⟩
  · obtain hk | ⟨-, hp⟩ := getElem?_set_some hk
    · exact h k p hk
    · cases hp

theorem State.PostedNow.foldl {α : Type} {f : State → α → State} (hf : ∀ s a, s.PostedNow → (f s a).PostedNow) (xs : List α)
    {s : State} (h : s.PostedNow) : (xs.foldl f s).PostedNow := by
  induction xs generalizing s with
  | nil => exact h
  | cons a xs ih => exact ih (hf s a h)

theorem State.needs_zero {s : State} (h : s.shift.running = true) : s.needs 0 :=
  ⟨fun _ => h, nofun, fun n k => by omega⟩

theorem State.needs_one {s : State} (h : ((s.shift.state = .replay || s.shift.state = .memoReplay) && decide (0 < s.shift.fill)) = true) :
    s.needs 1 :=
  ⟨nofun, fun _ => by simpa using h, fun n k => by omega⟩

theorem State.needs_voice {s : State} {n : Fin 4} (h : (s.voice n.val).needsWords = true) : s.needs (2 + n.val) := by
  refine ⟨fun k => by omega, fun k => by omega, fun m k => ?_⟩
  obtain rfl : m = n := Fin.ext (by omega)
  simpa [Voice.needsWords] using h

theorem State.postStreams_postedNow (s : State) : s.postStreams.PostedNow := by
  unfold State.postStreams
  refine State.PostedNow.foldl (fun u n hu => hu.setPosted _ _ State.needs_voice) _ ?_
  refine State.PostedNow.setPosted ?_ 1 _ State.needs_one
  refine State.PostedNow.setPosted (fun k p hk => ?_) 0 _ State.needs_zero
  have hk : (List.replicate 6 (none : Option Time))[k]? = some (some p) := hk
  cases List.eq_of_mem_replicate (List.mem_of_getElem? hk)

theorem State.PostedNow.congr {s t : State} (h : s.PostedNow) (hst : t.store = s.store) (hn : t.clock.now = s.clock.now)
    (hsh : t.shift = s.shift) (hc : t.chime = s.chime) : t.PostedNow := by
  unfold State.PostedNow State.needs State.voice at h ⊢
  rwa [hst, hn, hsh, hc]

theorem State.nextFrame_postedNow {s : State} (h : s.PostedNow) : s.nextFrame.PostedNow := by
  have next := (happens_nextFrame s).blocks
  exact h.congr (next.2 .store (by decide)) (by rw [State.nextFrame_clock]) (next.2 .shift (by decide))
    (next.2 .chime (by decide))

theorem State.frame_postedNow (s : State) (x : FrameInput) : (s.frame x).PostedNow :=
  State.nextFrame_postedNow (State.postStreams_postedNow _)

theorem State.PostedNow.standing {s : State} (h : s.PostedNow) {k : Nat} {p : Time} (hk : s.standing[k]? = some (some p)) :
    p = s.clock.now ∧ s.needs k := h k p (standing_posted hk)

end Sys2Proof.Machine
end

section
namespace Sys2Proof.Machine

theorem State.reach_frameDue (s : State) (t : Time) : (s.reach t).clock.frameDue = s.clock.frameDue := by
  by_cases hr : s.power.state = .run
  · rw [State.reach_of_run hr, State.withClock_clock]
  · rw [State.reach_of_parked hr, State.withClock_clock]

theorem State.frameEvent_of_parked {s : State} (h : s.power.state ≠ .run) (x : FrameInput) : s.frameEvent x = s := if_pos h

theorem State.frameEvent_of_nothingDue {s : State} (hr : s.power.state = .run) (h : s.nothingDue) (x : FrameInput) :
    s.frameEvent x = (s.reach s.clock.frameDue).frame x := by
  rw [State.frameEvent, if_neg (not_not_intro hr), State.settleDue_of_nothingDue h]

/-- The state after a frame event with nothing due holds every block but the Link Block as the frame left it. -/
theorem frameEvent_next {s : State} (hr : s.power.state = .run) (h : s.nothingDue) (x : FrameInput) :
    ∃ t, exec (.frameEvent x) s = .next t
      ∧ Happens [.clock, .ports, .mix, .tunA, .tunB, .shift, .store, .call, .stations, .chime] s t
      ∧ ∀ b, b ≠ .links → ((s.reach s.clock.frameDue).frame x).sameBlock t b := by
  have edges := happens_offerEdges s ((s.reach s.clock.frameDue).frame x)
  have he : exec (.frameEvent x) s = .next (State.offerEdges s ((s.reach s.clock.frameDue).frame x)) := by
    rw [← State.frameEvent_of_nothingDue hr h]
    rfl
  exact ⟨_, he, ((happens_reach s _).mono (by simp)).trans ((happens_frame _ x).trans (edges.mono (by simp))),
    fun b hb => edges.blocks.2 b (by simpa using hb)⟩

/-- What becomes of a voice at a frame, told by its state (R156, R158). -/
theorem voice_advances {v w : Voice} {t : State} {h : Nat} (hw : w = v.framed (t.sounds h)) :
    (v.state = .playing → w = { v with position := v.position + min 48 v.remaining, remaining := v.remaining - 48 })
      ∧ (v.state = .gap → w = { v with gapLeft := v.gapLeft - 1 })
      ∧ (v.state = .stopping → w.state = .stopping ∧ w.position = v.position + min 48 v.remaining
          ∧ w.remaining = v.remaining - 48
          ∧ (w.faded = true ↔ ∀ y ∈ t.mix.sinks, ∀ c ∈ y.list, c.origin = .handle h → 360 ≤ c.applied)) := by
  refine ⟨fun k => hw.trans (Voice.framed_of_playing k _), fun k => hw.trans (Voice.framed_of_gap k _), fun k => ?_⟩
  rw [hw, Voice.framed_of_stopping k]
  exact ⟨k, rfl, rfl, t.silent_iff h⟩

/-- Settles O52: with nothing due the event is one frame at its moment, whose parts each move their own blocks. -/
theorem frameAdvances : Obligations.FrameAdvances := by
  unfold Obligations.FrameAdvances
  refine ⟨fun s x h => ?_, fun s x hr hd => ?_⟩
  · show Host.Outcome.next (State.offerEdges s (s.frameEvent x)) = .next s
    rw [State.frameEvent_of_parked h, State.offerEdges_self]
  · obtain ⟨t, he, hh, same⟩ := frameEvent_next hr hd x
    have reached := (onlyChanges_reach s s.clock.frameDue).2
    have hnow := reach_now s s.clock.frameDue
    have hdue := s.reach_frameDue s.clock.frameDue
    have htracker := s.reach_tracker_state s.clock.frameDue
    generalize s.reach s.clock.frameDue = u at same reached hnow hdue htracker
    have umix : u.mix = s.mix := reached .mix (by decide)
    have uchime : u.chime = s.chime := reached .chime (by decide)
    have utunA : u.tunA = s.tunA := reached .tunA (by decide)
    have utunB : u.tunB = s.tunB := reached .tunB (by decide)
    have clock : t.clock = (u.frame x).clock := same .clock (by decide)
    have ports : t.ports = (u.frame x).ports := same .ports (by decide)
    have mix : t.mix = (u.frame x).mix := same .mix (by decide)
    have chime : t.chime = (u.frame x).chime := same .chime (by decide)
    have shift : t.shift = (u.frame x).shift := same .shift (by decide)
    have tunA : t.tunA = { s.tunA with rx := s.tunA.rx.unmarked } := by
      rw [← utunA, ← (u.frame_tuners x).1]
      exact same .tunA (by decide)
    have tunB : t.tunB = { s.tunB with rx := s.tunB.rx.unmarked } := by
      rw [← utunB, ← (u.frame_tuners x).2]
      exact same .tunB (by decide)
    have posted : t.PostedNow := (u.frame_postedNow x).congr (same .store (by decide)) (congrArg Clock.now clock) shift chime
    obtain ⟨t0, t1, -⟩ := (u.framePosted x).nextFrame_ports
    refine ⟨t, he, hh, ?_, fun k => ?_, ?_, ?_, ?_, ?_, ports ▸ t0, ports ▸ t1, fun p => ?_, fun n hn => ?_, fun k p hk => ?_⟩
    · rw [clock, State.frame_clock, hnow, hdue]
    · have sinks : t.sink k = (u.frame x).sink k := by simp only [State.sink, mix]
      have before : u.sink k = s.sink k := by simp only [State.sink, umix]
      rw [sinks, State.frame_sending, umix, before]
    · rw [tunA]
    · rw [tunB]
    · rw [tunA]; rfl
    · rw [tunB]; rfl
    · rw [State.tracker_of_ports ports, State.frame_tracker]
      exact ⟨rfl, htracker p⟩
    · refine voice_advances ?_
      have voices : t.voice n.val = (u.frame x).voice n.val := by simp only [State.voice, chime]
      have before : u.voice n.val = s.voice n.val := by simp only [State.voice, uchime]
      have heard : t.sounds (voiceHandle n.val) = (u.frame x).sounds (voiceHandle n.val) := by simp only [State.sounds, mix]
      rw [voices, heard, State.frame_voice (uchime ▸ hn), before]
    · obtain ⟨hp, capture, replay, voice⟩ := posted.standing hk
      exact ⟨hp, capture, replay, voice⟩

end Sys2Proof.Machine
end

section
namespace Sys2Proof.Machine

/-! ### The entries of the Claim Table -/

/-- What the table holds at a handle; `State.claim` reads it in a state. -/
def ClaimTable.claimAt (t : ClaimTable) (h : Nat) : Option Claim := t.entries.getD h none

@[simp] theorem State.table_claimAt (s : State) (h : Nat) : s.table.claimAt h = s.claim h := rfl

theorem ClaimTable.claimAt_eq_some {t : ClaimTable} {h : Nat} {c : Claim} :
    t.claimAt h = some c ↔ t.entries[h]? = some (some c) := by
  rw [ClaimTable.claimAt, List.getD_eq_getElem?_getD]
  cases t.entries[h]? <;> simp

theorem ClaimTable.claimAt_lt {t : ClaimTable} {h : Nat} {c : Claim} (hc : t.claimAt h = some c) : h < t.entries.length :=
  (List.getElem?_eq_some_iff.1 (claimAt_eq_some.1 hc)).1

theorem ClaimTable.mem_held {t : ClaimTable} {h : Nat} {c : Claim} : (h, c) ∈ t.held ↔ t.claimAt h = some c := by
  rw [claimAt_eq_some]
  simp [ClaimTable.held, List.mem_filterMap, List.mem_zipIdx_iff_getElem?]

theorem ClaimTable.held_length_eq (t : ClaimTable) : t.held.length = (t.entries.filterMap id).length := by
  have counted : ∀ (xs : List (Option Claim)) (n : Nat),
      ((xs.zipIdx n).filterMap fun (c, h) => c.map fun c => (h, c)).length = (xs.filterMap id).length := by
    intro xs
    induction xs with
    | nil => exact fun _ => rfl
    | cons x xs ih => intro n; cases x <;> simp [ih]
  exact counted t.entries 0

theorem ClaimTable.claimAt_set (t : ClaimTable) (h k : Nat) (x : Option Claim) (n : Nat) (hl : h < t.entries.length) :
    ClaimTable.claimAt { entries := t.entries.set h x, counter := n } k = if k = h then x else t.claimAt k :=
  getD_set _ _ _ _ _ hl

/-- The invariant of the table, read by handle. -/
theorem ClaimTable.wf_iff {t : ClaimTable} : t.wf ↔
    t.entries.length = 16 ∧ t.counter ≤ seqMax
      ∧ (∀ h c, t.claimAt h = some c → fitsHandle h c.claimant ∧ 1 ≤ c.seq ∧ c.seq ≤ t.counter)
      ∧ ∀ h k c d, t.claimAt h = some c → t.claimAt k = some d → c.seq = d.seq → h = k := by
  simp only [ClaimTable.wf, claimAt_eq_some]

/-- What may stand in the entry of handle `h` beside the other entries of `t`, with `n` as the counter. -/
structure ClaimTable.Allows (t : ClaimTable) (h n : Nat) (c : Claim) : Prop where
  fits : fitsHandle h c.claimant
  low : 1 ≤ c.seq
  high : c.seq ≤ n
  fresh : ∀ k d, k ≠ h → t.claimAt k = some d → d.seq ≠ c.seq

/-- One rule for every write of an entry: removal, change in place and posting. -/
theorem ClaimTable.wf.set {t : ClaimTable} (ht : t.wf) {h n : Nat} {x : Option Claim} (hn : t.counter ≤ n) (hm : n ≤ seqMax)
    (hx : ∀ c, x = some c → t.Allows h n c) : ClaimTable.wf { entries := t.entries.set h x, counter := n } := by
  obtain ⟨len, -, bounds, inj⟩ := wf_iff.1 ht
  by_cases hl : h < t.entries.length
  · refine wf_iff.2 ⟨by simp [len], hm, fun k c hc => ?_, fun j k c d hc hd hs => ?_⟩
    · rw [claimAt_set _ _ _ _ _ hl] at hc
      split at hc
      · subst k
        exact ⟨(hx c hc).fits, (hx c hc).low, (hx c hc).high⟩
      · obtain ⟨fits, low, high⟩ := bounds k c hc
        exact ⟨fits, low, high.trans hn⟩
    · rw [claimAt_set _ _ _ _ _ hl] at hc hd
      split at hc <;> split at hd
      · omega
      · subst j
        exact absurd hs.symm ((hx c hc).fresh k d ‹_› hd)
      · subst k
        exact absurd hs ((hx d hd).fresh j c ‹_› hc)
      · exact inj j k c d hc hd hs
  · rw [List.set_eq_of_length_le (by omega)]
    exact wf_iff.2 ⟨len, hm, fun k c hc => ⟨(bounds k c hc).1, (bounds k c hc).2.1, (bounds k c hc).2.2.trans hn⟩, inj⟩

/-- A claim that stands may be changed in fields other than its number, within its claimant's own entry. -/
theorem ClaimTable.wf.allows_change {t : ClaimTable} (ht : t.wf) {h : Nat} {c d : Claim} (hc : t.claimAt h = some c)
    (hf : fitsHandle h d.claimant) (hs : d.seq = c.seq) : t.Allows h t.counter d := by
  obtain ⟨-, -, bounds, inj⟩ := wf_iff.1 ht
  obtain ⟨-, low, high⟩ := bounds h c hc
  exact ⟨hf, hs ▸ low, hs ▸ high, fun k e hk he heq => hk (inj k h e c he hc (heq.trans hs))⟩

/-- The number after the counter's is no claim's. -/
theorem ClaimTable.wf.allows_next {t : ClaimTable} (ht : t.wf) {h : Nat} {c : Claim} (hf : fitsHandle h c.claimant) :
    t.Allows h (t.counter + 1) { c with seq := t.counter + 1 } := by
  obtain ⟨-, -, bounds, -⟩ := wf_iff.1 ht
  refine ⟨hf, by simp, le_rfl, fun k d _ hd => ?_⟩
  have := (bounds k d hd).2.2
  simp only
  omega

/-! ### Renumbering (R21) -/

theorem rankAmong_pos (ns : List Nat) (n : Nat) : 1 ≤ rankAmong ns n := Nat.succ_le_succ (Nat.zero_le _)

/-- A smaller number of the list comes earlier. -/
theorem rankAmong_lt {ns : List Nat} {m n : Nat} (hm : m ∈ ns) (h : m < n) : rankAmong ns m < rankAmong ns n := by
  have sub : (ns.filter fun k => decide (k < m)).Sublist (ns.filter fun k => decide (k < n)) :=
    List.monotone_filter_right ns fun k hk => by simp at hk ⊢; omega
  have strict : (ns.filter fun k => decide (k < m)).length ≠ (ns.filter fun k => decide (k < n)).length := fun he => by
    have : m ∈ ns.filter fun k => decide (k < m) := by rw [sub.eq_of_length he]; simp [hm, h]
    simp at this
  have := sub.length_le
  simp only [rankAmong]
  omega

theorem rankAmong_lt_iff {ns : List Nat} {m n : Nat} (hm : m ∈ ns) (hn : n ∈ ns) : rankAmong ns m < rankAmong ns n ↔ m < n := by
  refine ⟨fun h => ?_, rankAmong_lt hm⟩
  rcases Nat.lt_trichotomy m n with h' | rfl | h'
  · exact h'
  · exact absurd h (lt_irrefl _)
  · exact absurd h (rankAmong_lt hn h').asymm

theorem rankAmong_inj {ns : List Nat} {m n : Nat} (hm : m ∈ ns) (hn : n ∈ ns) (h : rankAmong ns m = rankAmong ns n) : m = n := by
  have h1 := rankAmong_lt_iff hm hn
  have h2 := rankAmong_lt_iff hn hm
  omega

theorem rankAmong_le {ns : List Nat} {n : Nat} (hn : n ∈ ns) : rankAmong ns n ≤ ns.length := by
  have strict : (ns.filter fun k => decide (k < n)).length ≠ ns.length := fun he => by
    have := List.length_filter_eq_length_iff.1 he n hn
    simp at this
  have := List.length_filter_le (fun k => decide (k < n)) ns
  simp only [rankAmong]
  omega

/-- The sequence numbers there are: those of the claims held and a retained one. -/
def State.numbers (s : State) : List Nat := s.table.held.map (fun c => c.2.seq) ++ s.traffic.retained.toList

theorem State.mem_numbers_of_claim {s : State} {h : Nat} {c : Claim} (hc : s.claim h = some c) : c.seq ∈ s.numbers :=
  List.mem_append_left _ (List.mem_map.2 ⟨(h, c), ClaimTable.mem_held.2 hc, rfl⟩)

theorem State.mem_numbers_of_retained {s : State} {q : Nat} (hq : s.traffic.retained = some q) : q ∈ s.numbers :=
  List.mem_append_right _ (by simp [hq])

theorem State.numbers_length (s : State) : s.numbers.length = s.numbered := by
  simp only [State.numbers, State.numbered, List.length_append, List.length_map, s.table.held_length_eq]
  cases s.traffic.retained <;> rfl

theorem State.numbered_le (s : State) : s.numbered ≤ s.table.entries.length + 1 := by
  have := List.length_filterMap_le id s.table.entries
  simp only [State.numbered]
  split <;> omega

theorem State.renumber_eq (s : State) : s.renumber =
    (s.withTable
      { entries := s.table.entries.map fun e => e.map fun c => { c with seq := rankAmong s.numbers c.seq },
        counter := s.numbers.length }).withTraffic
      { s.traffic with retained := s.traffic.retained.map (rankAmong s.numbers) } := rfl

theorem State.renumber_claim (s : State) (h : Nat) :
    s.renumber.claim h = (s.claim h).map fun c => { c with seq := rankAmong s.numbers c.seq } := by
  simp only [State.renumber_eq, State.claim, State.withTraffic_table, State.withTable_table, List.getD_eq_getElem?_getD,
    List.getElem?_map]
  cases s.table.entries[h]? <;> rfl

theorem State.renumber_counter (s : State) : s.renumber.table.counter = s.numbered := s.numbers_length

theorem State.renumber_length (s : State) : s.renumber.table.entries.length = s.table.entries.length := by
  simp [State.renumber_eq]

theorem State.renumber_wf {s : State} (h : s.table.wf) : s.renumber.table.wf := by
  obtain ⟨len, -, bounds, inj⟩ := ClaimTable.wf_iff.1 h
  have given : ∀ k c, s.renumber.claim k = some c → ∃ d, s.claim k = some d ∧ { d with seq := rankAmong s.numbers d.seq } = c :=
    fun k c hc => Option.map_eq_some_iff.1 (s.renumber_claim k ▸ hc)
  have few := s.numbered_le
  refine ClaimTable.wf_iff.2 ⟨by rw [s.renumber_length, len], ?_, fun k c hc => ?_, fun j k c c' hc hc' hs => ?_⟩
  · rw [s.renumber_counter]
    simp only [seqMax]
    omega
  · obtain ⟨d, hd, rfl⟩ := given k c hc
    rw [s.renumber_counter, ← s.numbers_length]
    exact ⟨(bounds k d hd).1, rankAmong_pos _ _, rankAmong_le (State.mem_numbers_of_claim hd)⟩
  · obtain ⟨d, hd, rfl⟩ := given j c hc
    obtain ⟨d', hd', rfl⟩ := given k c' hc'
    exact inj j k d d' hd hd' (rankAmong_inj (State.mem_numbers_of_claim hd) (State.mem_numbers_of_claim hd') hs)

/-! ### Posting (R20) -/

theorem State.readyToPost_of_lt {s : State} (h : s.table.counter < seqMax) : s.readyToPost = s := if_pos h

theorem State.readyToPost_of_full {s : State} (h : seqMax ≤ s.table.counter) : s.readyToPost = s.renumber := if_neg (by omega)

theorem State.readyToPost_wf {s : State} (h : s.table.wf) : s.readyToPost.table.wf := by
  by_cases hc : s.table.counter < seqMax
  · rwa [State.readyToPost_of_lt hc]
  · rw [State.readyToPost_of_full (by omega)]
    exact State.renumber_wf h

theorem State.readyToPost_counter {s : State} (h : s.table.entries.length = 16) : s.readyToPost.table.counter < seqMax := by
  by_cases hc : s.table.counter < seqMax
  · rwa [State.readyToPost_of_lt hc]
  · rw [State.readyToPost_of_full (by omega), s.renumber_counter]
    have := s.numbered_le
    simp only [seqMax]
    omega

theorem State.readyToPost_length (s : State) : s.readyToPost.table.entries.length = s.table.entries.length := by
  unfold State.readyToPost
  split
  · rfl
  · exact s.renumber_length

theorem State.readyToPost_isSome (s : State) (h : Nat) : (s.readyToPost.claim h).isSome = (s.claim h).isSome := by
  unfold State.readyToPost
  split
  · rfl
  · rw [s.renumber_claim, Option.isSome_map]

theorem State.post_counter (s : State) (h : Nat) (c : Claim) : (s.post h c).table.counter = s.readyToPost.table.counter + 1 := rfl

theorem State.post_length (s : State) (h : Nat) (c : Claim) : (s.post h c).table.entries.length = s.table.entries.length := by
  rw [← s.readyToPost_length]
  exact List.length_set

theorem State.post_claim (s : State) (h k : Nat) (c : Claim) (hl : h < s.table.entries.length) :
    (s.post h c).claim k = if k = h then some { c with seq := (s.post h c).table.counter } else s.readyToPost.claim k :=
  ClaimTable.claimAt_set _ _ _ _ _ (by rw [s.readyToPost_length]; exact hl)

theorem State.post_traffic (s : State) (h : Nat) (c : Claim) : (s.post h c).traffic = s.readyToPost.traffic := rfl

theorem State.post_wf {s : State} {h : Nat} {c : Claim} (ht : s.table.wf) (hf : fitsHandle h c.claimant) :
    (s.post h c).table.wf := by
  have room := State.readyToPost_counter (ClaimTable.wf_iff.1 ht).1
  have ready := State.readyToPost_wf ht
  exact ready.set (Nat.le_succ _) room fun d hd => Option.some.inj hd ▸ ready.allows_next hf

theorem State.post_isSome {s : State} (h k : Nat) (c : Claim) (hl : h < s.table.entries.length) :
    ((s.post h c).claim k).isSome = (decide (k = h) || (s.claim k).isSome) := by
  rw [s.post_claim h k c hl]
  by_cases hk : k = h <;> simp [hk, s.readyToPost_isSome]

/-! ### Whose claims the hub itself posts -/

/-- Who is to hold an internal claim: the call unless it is IDLE, and each voice unless it is. -/
structure Owners where
  call : Bool
  voices : List Bool

def Voice.busy (v : Voice) : Bool := decide (v.state ≠ .idle)

theorem Voice.busy_of_ne {v : Voice} (h : v.state ≠ .idle) : v.busy = true := decide_eq_true h

theorem Voice.busy_congr {v w : Voice} (h : v.state = w.state) : v.busy = w.busy := by rw [Voice.busy, h, Voice.busy]

def State.owners (s : State) : Owners :=
  { call := decide (s.call.state ≠ .idle), voices := s.chime.voices.map Voice.busy }

theorem State.owners_voice (s : State) (n : Nat) : s.owners.voices.getD n false = (s.voice n).busy := by
  simp only [State.owners, State.voice, List.getD_eq_getElem?_getD, List.getElem?_map]
  cases s.chime.voices[n]? <;> rfl

theorem State.claimsFollow_iff (s : State) : s.claimsFollow ↔
    s.owners.voices.length = 4 ∧ (s.claim callHandle).isSome = s.owners.call
      ∧ ∀ n : Fin 4, (s.claim (voiceHandle n.val)).isSome = s.owners.voices.getD n.val false := by
  have told : ∀ (b : Bool) (p : Prop) [Decidable p], b = decide p ↔ (b = true ↔ p) := fun b p _ => by by_cases p <;> simp [*]
  refine and_congr (by simp [State.owners]) (and_congr (told _ _).symm (forall_congr' fun n => ?_))
  rw [s.owners_voice]
  exact (told _ _).symm

/-- `t` keeps the table in order, holds an internal claim where `s` does, and has the same owners of one. -/
structure ClaimsKept (s t : State) : Prop where
  order : s.table.wf → t.table.wf
  held : s.table.wf → ∀ h, callHandle ≤ h → (t.claim h).isSome = (s.claim h).isSome
  owners : t.owners = s.owners

/-- `t` keeps both invariants of the Claim Table. -/
def KeepsClaims (s t : State) : Prop := s.table.wf → t.table.wf ∧ (s.claimsFollow → t.claimsFollow)

theorem ClaimsKept.refl (s : State) : ClaimsKept s s := ⟨id, fun _ _ _ => rfl, rfl⟩

theorem ClaimsKept.trans {s t u : State} (h : ClaimsKept s t) (k : ClaimsKept t u) : ClaimsKept s u :=
  ⟨k.order ∘ h.order, fun hw n hn => (k.held (h.order hw) n hn).trans (h.held hw n hn), k.owners.trans h.owners⟩

theorem KeepsClaims.trans {s t u : State} (h : KeepsClaims s t) (k : KeepsClaims t u) : KeepsClaims s u :=
  fun hw => ⟨(k (h hw).1).1, (k (h hw).1).2 ∘ (h hw).2⟩

theorem ClaimsKept.keeps {s t : State} (h : ClaimsKept s t) : KeepsClaims s t := fun hw => by
  refine ⟨h.order hw, fun hf => ?_⟩
  rw [State.claimsFollow_iff] at hf ⊢
  have call := h.held hw callHandle le_rfl
  have voice : ∀ n : Fin 4, (t.claim (voiceHandle n.val)).isSome = (s.claim (voiceHandle n.val)).isSome := fun n =>
    h.held hw _ (by simp [voiceHandle, callHandle]; omega)
  simpa only [h.owners, call, voice] using hf

theorem KeepsClaims.then {s t u : State} (h : KeepsClaims s t) (k : ClaimsKept t u) : KeepsClaims s u := h.trans k.keeps

/-- Table and owners as they were. -/
theorem ClaimsKept.of_same {s t : State} (ht : t.table = s.table) (ho : t.owners = s.owners) : ClaimsKept s t :=
  ⟨fun h => ht ▸ h, fun _ h _ => by rw [State.claim, ht]; rfl, ho⟩

/-- The blocks that neither hold a claim nor own one. -/
def beside : List Block := [.clock, .ports, .mix, .tunA, .tunB, .radio, .traffic, .shift, .stations, .store, .power]

theorem owners_of_happens {bs : List Block} {s t : State} (h : Happens bs s t) (hs : bs ⊆ .table :: beside) :
    t.owners = s.owners := by
  have same : ∀ b, b ∉ Block.links :: .table :: beside → s.sameBlock t b := fun b hb =>
    h.blocks.2 b fun k => hb (List.cons_subset_cons _ hs k)
  have hcall : t.call = s.call := same .call (by decide)
  have hchime : t.chime = s.chime := same .chime (by decide)
  simp only [State.owners, hcall, hchime]

theorem ClaimsKept.of_happens {bs : List Block} {s t : State} (h : Happens bs s t) (hs : bs ⊆ beside) : ClaimsKept s t :=
  .of_same (h.blocks.2 .table fun k => absurd (List.cons_subset_cons Block.links hs k) (by decide))
    (owners_of_happens h (List.subset_cons_of_subset _ hs))

theorem ClaimsKept.ite {s t u : State} {c : Prop} [Decidable c] (h : ClaimsKept s t) (k : ClaimsKept s u) :
    ClaimsKept s (if c then t else u) := by split <;> assumption

theorem ClaimsKept.foldl {α : Type} (f : State → α → State) (hf : ∀ s a, ClaimsKept s (f s a)) (xs : List α) (s : State) :
    ClaimsKept s (xs.foldl f s) := by
  induction xs generalizing s with
  | nil => exact .refl s
  | cons a xs ih => exact (hf s a).trans (ih _)

theorem KeepsClaims.foldl {α : Type} (f : State → α → State) (hf : ∀ s a, KeepsClaims s (f s a)) (xs : List α) (s : State) :
    KeepsClaims s (xs.foldl f s) := by
  induction xs generalizing s with
  | nil => exact (ClaimsKept.refl s).keeps
  | cons a xs ih => exact (hf s a).trans (ih _)

end Sys2Proof.Machine
end

section
namespace Sys2Proof.Machine

/-! ### Single writes of the Claim Table -/

theorem State.setClaim_wf {s : State} {h : Nat} {x : Option Claim} (ht : s.table.wf)
    (hx : ∀ c, x = some c → s.table.Allows h s.table.counter c) : (s.setClaim h x).table.wf :=
  ht.set le_rfl (ClaimTable.wf_iff.1 ht).2.1 hx

theorem State.setClaim_claim_of_ne (s : State) {h k : Nat} (x : Option Claim) (hk : k ≠ h) :
    (s.setClaim h x).claim k = s.claim k := by
  simp [State.claim, State.setClaim, List.getD_eq_getElem?_getD, List.getElem?_set_ne hk.symm]

/-- A claim of a link, or the RADIO claim, is removed. -/
theorem kept_dropClaim (s : State) {h : Nat} (hh : h < callHandle) : ClaimsKept s (s.setClaim h none) where
  order ht := State.setClaim_wf ht fun _ hc => by cases hc
  held _ k hk := by rw [s.setClaim_claim_of_ne none (by omega)]
  owners := rfl

/-- A claim is changed in place. -/
theorem kept_changeClaim (s : State) (h : Nat) {f : Claim → Claim}
    (hf : ∀ c, s.claim h = some c → fitsHandle h c.claimant → fitsHandle h (f c).claimant ∧ (f c).seq = c.seq) :
    ClaimsKept s (s.changeClaim h f) where
  order ht := State.setClaim_wf ht fun d hd => by
    obtain ⟨c, hc, rfl⟩ := Option.map_eq_some_iff.1 hd
    obtain ⟨fits, number⟩ := hf c hc ((ClaimTable.wf_iff.1 ht).2.2.1 h c hc).1
    exact ht.allows_change hc fits number
  held ht k _ := by
    by_cases hl : h < s.table.entries.length
    · rw [State.changeClaim, s.setClaim_claim h k _ hl]
      split
      · subst k; exact Option.isSome_map
      · rfl
    · simp only [State.changeClaim, State.setClaim, State.claim, State.withTable_table, List.set_eq_of_length_le (not_lt.1 hl)]
  owners := rfl

theorem State.post_owners (s : State) (h : Nat) (c : Claim) : (s.post h c).owners = s.owners :=
  owners_of_happens (happens_post s h c) (by simp [beside])

/-- A claim of a link, or the RADIO claim, is posted. -/
theorem kept_post (s : State) {h : Nat} {c : Claim} (hh : h < callHandle) (hf : fitsHandle h c.claimant) :
    ClaimsKept s (s.post h c) where
  order ht := State.post_wf ht hf
  held ht k hk := by
    have len := (ClaimTable.wf_iff.1 ht).1
    rw [State.post_isSome h k c (by simp only [callHandle] at hh; omega), decide_eq_false (by omega), Bool.false_or]
  owners := s.post_owners h c

/-! ### Blocks beside the table -/

theorem kept_withTraffic (s : State) (x : Traffic) : ClaimsKept s (s.withTraffic x) := .of_same rfl rfl
theorem kept_withShift (s : State) (x : ShiftBuffer) : ClaimsKept s (s.withShift x) := .of_same rfl rfl
theorem kept_withTunA (s : State) (x : TunerA) : ClaimsKept s (s.withTunA x) := .of_same rfl rfl
theorem kept_withTunB (s : State) (x : TunerB) : ClaimsKept s (s.withTunB x) := .of_same rfl rfl
theorem kept_withRadio (s : State) (x : Radio) : ClaimsKept s (s.withRadio x) := .of_same rfl rfl
theorem kept_withStations (s : State) (x : Stations) : ClaimsKept s (s.withStations x) := .of_same rfl rfl
theorem kept_withStore (s : State) (x : Store) : ClaimsKept s (s.withStore x) := .of_same rfl rfl
theorem kept_withPower (s : State) (x : Power) : ClaimsKept s (s.withPower x) := .of_same rfl rfl
theorem kept_withMix (s : State) (x : Mix) : ClaimsKept s (s.withMix x) := .of_same rfl rfl
theorem kept_withPorts (s : State) (x : Ports) : ClaimsKept s (s.withPorts x) := .of_same rfl rfl
theorem kept_withClock (s : State) (x : Clock) : ClaimsKept s (s.withClock x) := .of_same rfl rfl
theorem kept_setLink (s : State) (l : Link) (x : LinkState) : ClaimsKept s (s.setLink l x) := .of_same rfl rfl
theorem kept_setStation (s : State) (st : StationId) (x : Station) : ClaimsKept s (s.setStation st x) := by
  cases st <;> exact .of_same rfl rfl
theorem kept_setPosted (s : State) (r : Nat) (x : Bool) : ClaimsKept s (s.setPosted r x) := kept_withStore _ _
theorem kept_reach (s : State) (t : Time) : ClaimsKept s (s.reach t) := .of_happens (happens_reach s t) (by simp [beside])
theorem kept_riseAll (s : State) (c : Nat) : ClaimsKept s (s.riseAll c) := .of_happens (happens_riseAll s c) (by simp)
theorem kept_fallAll (s : State) (c : Nat) : ClaimsKept s (s.fallAll c) := .of_happens (happens_fallAll s c) (by simp)
theorem kept_notice (s : State) (l : Link) (c : Nat) : ClaimsKept s (s.notice l c) := .of_happens (happens_notice s l c) (by simp)
theorem kept_advise (s : State) (l : Link) (a : Advisory) : ClaimsKept s (s.advise l a) :=
  .of_happens (happens_advise s l a) (by simp)
theorem kept_offerEdges (b s : State) : ClaimsKept s (State.offerEdges b s) := .of_happens (happens_offerEdges b s) (by simp)

/-- A call changed in other fields than its state. -/
theorem kept_withCall (s : State) (c : Call) (h : c.state = s.call.state) : ClaimsKept s (s.withCall c) :=
  .of_same rfl (by simp [State.owners, h])

/-- A Chime Player in which the same voices are IDLE. -/
theorem kept_withChime (s : State) (x : Chime)
    (h : x.voices.map Voice.busy = s.chime.voices.map Voice.busy) : ClaimsKept s (s.withChime x) := .of_same rfl (congrArg (Owners.mk _) h)

/-! ### What follows a change of the table (R26, R100, R109, R110) -/

/-- The RADIO claim is given another source. -/
theorem kept_radioSource (s : State) (x : Source) :
    ClaimsKept s (s.changeClaim radioHandle fun c => { c with source := x }) :=
  kept_changeClaim s _ fun _ _ fits => ⟨fits, rfl⟩

theorem kept_dropRadio (s : State) : ClaimsKept s (s.setClaim radioHandle none) := kept_dropClaim s (by decide)

theorem kept_postRadio (s : State) (x : Source) : ClaimsKept s (s.post radioHandle (radioClaim x)) := kept_post s (by decide) rfl

theorem kept_postReplay (s : State) : ClaimsKept s s.postReplay := kept_setPosted _ _ _

theorem kept_considerMemo (s : State) (t : TunerId) : ClaimsKept s (s.considerMemo t) :=
  .of_happens (happens_considerMemo s t) (by simp [beside])

theorem kept_replayMemo (s : State) : ClaimsKept s s.replayMemo :=
  (kept_withShift s _).trans ((kept_radioSource _ _).trans (kept_postReplay _))

theorem kept_considerUnheard (s : State) : ClaimsKept s (match s.unheard with | some t => s.considerMemo t | none => s) := by
  split
  · exact kept_considerMemo _ _
  · exact .refl s

theorem kept_tableChanged (s : State) : ClaimsKept s s.tableChanged := by
  unfold State.tableChanged
  split
  · exact .ite (kept_replayMemo s) (.refl s)
  · split
    · refine .ite ?_ (.refl s)
      exact (kept_withShift s _).trans ((kept_postRadio _ _).trans ((kept_withTraffic _ _).trans (kept_postReplay _)))
    · exact .refl s
  · exact .refl s
  all_goals exact kept_considerUnheard s

/-! ### Announcements and discards -/

theorem kept_startAnnouncement (s : State) (t : TunerId) : ClaimsKept s (s.startAnnouncement t) := by
  unfold State.startAnnouncement
  refine ((kept_withTraffic s { s.traffic with announcing := true, outcome := some .none }).trans (kept_riseAll _ 2)).trans ?_
  generalize (s.withTraffic { s.traffic with announcing := true, outcome := some .none }).riseAll 2 = u
  have posted := kept_postRadio u (sourceOfTuner t)
  dsimp only
  split
  · exact posted.trans (kept_tableChanged _)
  · exact posted.trans (kept_tableChanged _)
  · exact posted.trans (kept_tableChanged _)
  · have joined := posted.trans ((kept_withTraffic _ { (u.post radioHandle (radioClaim (sourceOfTuner t))).traffic with
      retained := none, outcome := some .captured }).trans
        (kept_withShift _ { (u.post radioHandle (radioClaim (sourceOfTuner t))).shift with
          state := .memoCapture, captured := some t, running := true }))
    exact .ite (joined.trans (kept_replayMemo _)) joined
  · exact (kept_withTraffic u _).trans (kept_withShift _ _)
  · exact .refl u

theorem kept_endClaim (s : State) : ClaimsKept s
    (match s.claim radioHandle with
      | some c => if c.source = .shift then s else (s.setClaim radioHandle none).tableChanged
      | none => s) := by
  split
  · exact .ite (.refl s) ((kept_dropRadio s).trans (kept_tableChanged _))
  · exact .refl s

theorem kept_endAnnouncement (s : State) : ClaimsKept s s.endAnnouncement := by
  unfold State.endAnnouncement
  refine ((kept_withTraffic s { s.traffic with announcing := false, outcome := none }).trans (kept_fallAll _ 2)).trans ?_
  generalize (s.withTraffic { s.traffic with announcing := false, outcome := none }).fallAll 2 = u
  refine .trans ?_ (kept_endClaim _)
  split
  · exact (kept_withTraffic u _).trans (kept_withShift _ _)
  · exact kept_withShift u _
  all_goals exact .refl u

theorem kept_shiftOff (s : State) : ClaimsKept s s.shiftOff := .of_happens (happens_shiftOff s) (by simp [beside])

theorem kept_dropMemoClaim (s : State) : ClaimsKept s s.dropMemoClaim := by
  unfold State.dropMemoClaim
  refine (kept_withTraffic s { s.traffic with retained := none }).trans ?_
  dsimp only
  split
  · refine .ite ?_ (.refl _)
    split
    · exact (kept_radioSource _ _).trans (kept_tableChanged _)
    · exact (kept_dropRadio _).trans (kept_tableChanged _)
  · exact .refl _

theorem kept_discard (s : State) (c : DiscardCause) : ClaimsKept s (s.discard c) := by
  unfold State.discard
  have off : ClaimsKept s (if c = .hubReset then s.shiftOff
      else s.shiftOff.advise .cockpit (.shiftDiscarded c s.shift.state s.shift.fill)) :=
    .ite (kept_shiftOff s) ((kept_shiftOff s).trans (kept_advise _ _ _))
  exact .ite (.refl s) (.ite (off.trans (kept_dropMemoClaim _)) off)

theorem kept_retuned (s : State) (t : TunerId) : ClaimsKept s (s.retuned t) := .ite (kept_discard s _) (.refl s)

/-! ### The tuners and the traffic source -/

theorem kept_enterB (s : State) (st : BState) (f : Option Freq) : ClaimsKept s (s.enterB st f) :=
  (kept_withTunB s _).trans (kept_retuned _ _)

theorem kept_startSweep (s : State) (st : BState) : ClaimsKept s (s.startSweep st) :=
  (kept_withRadio s _).trans (kept_enterB _ _ _)

theorem kept_assignB (s : State) : ClaimsKept s s.assignB := by
  unfold State.assignB
  refine .ite (.refl s) ?_
  split
  · exact .ite (.refl s) (kept_enterB _ _ _)
  · exact .ite (.refl s) (kept_enterB _ _ _)
  · exact .ite (.ite (.refl s) (kept_startSweep _ _)) (.ite (.refl s) (kept_enterB _ _ _))

theorem kept_followAnnouncement (s : State) (src : TrafficSource) : ClaimsKept s
    (match src with
      | .tuner t => if !s.traffic.announcing && s.taOf src then s.startAnnouncement t else s
      | .none => s) := by
  split
  · exact .ite (kept_startAnnouncement _ _) (.refl s)
  · exact .refl s

theorem kept_followSource (s : State) : ClaimsKept s s.followSource := by
  unfold State.followSource
  have ended : ClaimsKept s
      (if s.traffic.announcing && !(s.sourceNow = s.traffic.source && s.taOf s.sourceNow) then s.endAnnouncement else s) :=
    .ite (kept_endAnnouncement s) (.refl s)
  exact (ended.trans (kept_withTraffic _ _)).trans (kept_followAnnouncement _ _)

theorem kept_reassess (s : State) : ClaimsKept s s.reassess :=
  .trans (t := s.followEligible) (.ite (kept_withTraffic _ _) (.ite (kept_withTraffic _ _) (.refl s)))
    (.trans (t := s.followEligible.followWatch) (kept_withTraffic _ _) ((kept_assignB _).trans (kept_followSource _)))

theorem kept_retuneA (s : State) (f : Freq) (r : TuneCause × TuneResult) : ClaimsKept s (s.retuneA f r) :=
  (kept_withTunA s _).trans ((kept_retuned _ _).trans (kept_reassess _))

/-! ### Entering RUN -/

theorem kept_enterRun (s : State) (c : EntryCause) : ClaimsKept s (s.enterRun c) :=
  (kept_withPower s _).trans ((kept_withClock _ _).trans (kept_retuneA _ _ _))

theorem kept_wake (s : State) (on : Bool) (c : EntryCause) : ClaimsKept s (s.wake on c) := .ite (kept_enterRun s c) (.refl s)

end Sys2Proof.Machine
end

section
namespace Sys2Proof.Machine

/-! ### The events of the ports, the mix and the tuners -/

theorem kept_setSink (s : State) (k : Nat) (x : Sink) : ClaimsKept s (s.setSink k x) := kept_withMix _ _

theorem kept_resetEcho (s : State) : ClaimsKept s s.resetEcho := kept_withCall s _ rfl

theorem kept_fadeOutEnd (s : State) (k : Nat) : ClaimsKept s (s.fadeOutEnd k) := by
  unfold State.fadeOutEnd
  exact .ite (.ite ((kept_setSink s k _).trans (kept_resetEcho _)) (kept_setSink s k _)) (.refl s)

theorem kept_fadeInEnd (s : State) (k : Nat) : ClaimsKept s (s.fadeInEnd k) := .ite (kept_setSink _ _ _) (.refl s)

theorem kept_releaseGuard (s : State) (k : Nat) : ClaimsKept s (s.releaseGuard k) := .ite (kept_setSink _ _ _) (.refl s)

theorem kept_speedGrowsStale (s : State) : ClaimsKept s s.speedGrowsStale :=
  .ite (.refl s) ((kept_reach s _).trans (kept_withMix _ _))

theorem kept_withTracker (s : State) (p : Port) (t : Tracker) : ClaimsKept s (s.withTracker p t) :=
  .of_happens (happens_withTracker s p t) (by simp [beside])

theorem kept_takeSync (s : State) (gap : Time) (set : PortFrame) : ClaimsKept s (s.takeSync gap set) := by
  unfold State.takeSync
  have sent : ∀ u : State, ClaimsKept u (match PortFrame.port set with | .p2 => u.withPorts u.ports.sendUplink | .p0 | .p1 => u) := by
    intro u
    split
    · exact kept_withPorts _ _
    all_goals exact .refl u
  exact .ite (.refl s) ((kept_reach s _).trans ((kept_withTracker _ _ _).trans (sent _)))

theorem kept_takeOverdue (s : State) (p : Port) : ClaimsKept s (s.takeOverdue p) := by
  unfold State.takeOverdue
  refine .ite (.refl s) ?_
  split
  · exact .refl s
  · exact .ite (.refl s) ((kept_reach s _).trans (kept_withTracker _ _ _))
  all_goals exact (kept_reach s _).trans (kept_withTracker _ _ _)

theorem kept_takeGiveUp (s : State) (p : Port) : ClaimsKept s (s.takeGiveUp p) :=
  .ite ((kept_reach s _).trans (kept_withTracker _ _ _)) (.refl s)

theorem kept_takeHoldoverTimeout (s : State) (p : Port) : ClaimsKept s (s.takeHoldoverTimeout p) := by
  unfold State.takeHoldoverTimeout
  exact .ite ((kept_reach s _).trans ((kept_withTracker _ _ _).trans
    (.foldl _ (fun s l => kept_advise s l _) _ _))) (.refl s)

theorem kept_startWalk (s : State) (d : Direction) (f : Freq) : ClaimsKept s (s.startWalk d f) :=
  (kept_withTunA _ _).trans (kept_retuned _ _)

theorem kept_seek (s : State) (d : Direction) : ClaimsKept s (s.seek d) := by
  unfold State.seek
  dsimp only
  split
  · exact kept_retuneA _ _ _
  · exact (kept_startWalk _ _ _).trans (kept_reassess _)

theorem kept_walkMeasured (s : State) (m : Meas) : ClaimsKept s (s.walkMeasured m) :=
  .trans (kept_withTunA s _) (.ite (kept_retuneA _ _ _) (.refl _))

theorem kept_walkOn (s : State) : ClaimsKept s s.walkOn := by
  unfold State.walkOn
  split
  · exact .ite (kept_retuneA _ _ _) (kept_withTunA _ _)
  · exact .refl s

theorem kept_seekChannelEnd (s : State) (m : Option Meas) : ClaimsKept s (s.seekChannelEnd m) := by
  unfold State.seekChannelEnd
  refine .ite (.refl s) (.trans (kept_reach s (s.tunA.rx.since + milliseconds 8)) ?_)
  generalize s.reach (s.tunA.rx.since + milliseconds 8) = u
  have measured : ClaimsKept u (match m with | some m => u.walkMeasured m | none => u) := by
    split
    · exact kept_walkMeasured _ _
    · exact .refl u
  exact measured.trans (.ite (kept_walkOn _) (.refl _))

theorem kept_considerSwitch (s : State) : ClaimsKept s s.considerSwitch := by
  unfold State.considerSwitch
  refine .ite (.refl s) (.ite ?_ ?_)
  all_goals split <;> exact kept_withTunA _ _

theorem kept_tunedMeasured (s : State) (m : Meas) : ClaimsKept s (s.tunedMeasured m) :=
  .trans (kept_withTunA s _) (.trans (kept_withTunA _ _) (.ite (kept_considerSwitch _) (.refl _)))

theorem kept_measuredA (s : State) (m : Meas) : ClaimsKept s (s.measuredA m) := by
  unfold State.measuredA
  split
  · exact (kept_reach s _).trans (kept_tunedMeasured _ _)
  · exact .ite ((kept_reach s _).trans (kept_withTunA _ _)) (.refl s)
  · exact .ite ((kept_reach s _).trans (kept_withTunA _ _)) (.refl s)
  · exact (kept_reach s _).trans (kept_walkMeasured _ _)
  all_goals exact .refl s

theorem kept_measuredB (s : State) (m : Meas) : ClaimsKept s (s.measuredB m) :=
  .ite ((kept_reach s _).trans (kept_withTunB _ _)) (.ite ((kept_reach s _).trans (kept_withTunB _ _)) (.refl s))

theorem kept_tuneDone (s : State) (r : TuneCause × TuneResult) : ClaimsKept s (s.tuneDone r) :=
  .of_happens (happens_tuneDone s r) (by simp [beside])

theorem kept_settledA (s : State) (m : Meas) : ClaimsKept s (s.settledA m) := by
  unfold State.settledA
  split
  · refine .trans (kept_reach s (s.tunA.rx.since + milliseconds 12)) ?_
    dsimp only
    split
    · exact (kept_withTunA _ _).trans (kept_tuneDone _ _)
    · exact kept_withTunA _ _
  · exact .ite (.refl s) ((kept_reach s _).trans (kept_withTunA _ _))
  all_goals exact .refl s

theorem kept_settledB (s : State) (m : Meas) : ClaimsKept s (s.settledB m) :=
  .ite ((kept_reach s _).trans (kept_withTunB _ _)) (.refl s)

theorem kept_rejectCandidate (s : State) : ClaimsKept s s.rejectCandidate := by
  unfold State.rejectCandidate
  refine .ite (kept_withRadio _ _) ?_
  split
  · exact kept_withRadio _ _
  · exact .refl s

theorem kept_failVerify (s : State) : ClaimsKept s s.failVerify :=
  (kept_rejectCandidate s).trans (.trans (t := State.tuneA _ _ _) (kept_withTunA _ _) (kept_withTunA _ _))

theorem kept_judgeIdentity (s : State) : ClaimsKept s s.judgeIdentity := by
  unfold State.judgeIdentity
  split
  · exact .ite ((kept_withTunA s _).trans (kept_tuneDone _ _)) (kept_failVerify _)
  · exact .refl s

theorem kept_prefadeEnd (s : State) : ClaimsKept s s.prefadeEnd := by
  unfold State.prefadeEnd
  exact .ite (.refl s) ((kept_reach s _).trans (.ite (kept_withTunA _ _) (kept_withTunA _ _)))

theorem kept_checkMeasured (s : State) (m : Meas) : ClaimsKept s (s.checkMeasured m) := by
  unfold State.checkMeasured
  exact .ite ((kept_reach s _).trans (.ite ((kept_withTunA _ _).trans (kept_judgeIdentity _)) (kept_withTunA _ _))) (.refl s)

theorem kept_gapEnded (s : State) : ClaimsKept s s.gapEnded := .ite ((kept_reach s _).trans (kept_withTunA _ _)) (.refl s)

theorem kept_verifyTimedOut (s : State) : ClaimsKept s s.verifyTimedOut :=
  .ite ((kept_reach s _).trans (kept_failVerify _)) (.refl s)

theorem kept_groupA (s : State) (g : DataGroup) : ClaimsKept s (s.groupA g) :=
  .ite ((kept_withTunA s _).trans (kept_judgeIdentity _)) (.refl s)

theorem kept_groupB (s : State) (g : DataGroup) : ClaimsKept s (s.groupB g) := .ite (kept_withTunB _ _) (.refl s)

theorem kept_setReceiver (s : State) (t : TunerId) (r : Receiver) : ClaimsKept s (s.setReceiver t r) := by
  cases t
  · exact kept_withTunA _ _
  · exact kept_withTunB _ _

theorem kept_dataLapsed (s : State) (t : TunerId) : ClaimsKept s (s.dataLapsed t) :=
  .ite (.refl s) ((kept_reach s _).trans (kept_setReceiver _ _ _))

theorem kept_changedList (s : State) (xs : List Entry) : ClaimsKept s (s.changedList xs) :=
  (kept_withRadio s _).trans (kept_withTunB _ _)

theorem kept_updateChannel (s : State) : ClaimsKept s s.updateChannel := by
  unfold State.updateChannel
  dsimp only
  split
  · exact .ite (.ite (kept_changedList _ _) (kept_withRadio _ _)) (kept_withRadio _ _)
  · refine .ite ?_ (.refl s)
    split
    · exact kept_changedList _ _
    · exact .refl s

theorem kept_endSweep (s : State) : ClaimsKept s s.endSweep := by
  unfold State.endSweep
  dsimp only
  generalize hu : (if (_ || s.tunB.changed) = true then _ else _) = u
  have told : ClaimsKept s u := hu ▸ .ite ((kept_withRadio _ _).trans (kept_riseAll _ _)) (kept_withRadio _ _)
  exact told.trans (.ite (kept_startSweep _ _) ((kept_enterB u .off none).trans (.ite (kept_withPower _ _) (.refl _))))

theorem kept_sweepOn (s : State) : ClaimsKept s s.sweepOn := by
  unfold State.sweepOn
  split
  · exact kept_withTunB _ _
  · exact kept_endSweep s

theorem kept_sweepChannelEnd (s : State) (m : Option Meas) : ClaimsKept s (s.sweepChannelEnd m) := by
  unfold State.sweepChannelEnd
  refine .ite (.refl s) (.trans (kept_reach s (s.tunB.rx.since + milliseconds (if s.tunB.dwell then 400 else 8))) ?_)
  generalize s.reach (s.tunB.rx.since + milliseconds (if s.tunB.dwell then 400 else 8)) = u
  have measured : ClaimsKept u
      (match m with | some m => u.withTunB { u.tunB with rx := u.tunB.rx.measure m u.clock.now } | none => u) := by
    split
    · exact kept_withTunB _ _
    · exact .refl u
  exact measured.trans (.ite (kept_withTunB _ _) ((kept_updateChannel _).trans (kept_sweepOn _)))

theorem kept_countRejections (s : State) : ClaimsKept s s.countRejections := (kept_reach s _).trans (kept_withRadio _ _)

/-! ### The Traffic and Shift Unit -/

theorem kept_memoTurnedOn (s : State) : ClaimsKept s s.memoTurnedOn := kept_considerUnheard s

theorem kept_setTraffic (s : State) (on memo : Bool) : ClaimsKept s (s.setTraffic on memo) := by
  unfold State.setTraffic
  dsimp only
  have assessed : ClaimsKept s (s.withTraffic { s.traffic with on := on, memo := memo }).reassess :=
    (kept_withTraffic s _).trans (kept_reassess _)
  generalize (s.withTraffic { s.traffic with on := on, memo := memo }).reassess = u at assessed ⊢
  have dropped : ClaimsKept s
      (if s.traffic.on && !on && u.shift.purpose = some .memo then u.discard .trafficOff else u) :=
    .ite (assessed.trans (kept_discard _ _)) assessed
  exact .ite (dropped.trans (kept_memoTurnedOn _)) dropped

theorem kept_startCapture (s : State) (st : ShiftState) (p : Purpose) (c : Option PauseCause) (t : TunerId) :
    ClaimsKept s (s.startCapture st p c t) := .of_happens (happens_startCapture s st p c t) (by simp [beside])

theorem kept_resumeReplay (s : State) : ClaimsKept s s.resumeReplay := (kept_withShift s _).trans (kept_postReplay _)

theorem kept_pauseReplay (s : State) : ClaimsKept s s.pauseReplay := (kept_withShift s _).trans (kept_setPosted _ _ _)

theorem kept_eligibleExpired (s : State) : ClaimsKept s s.eligibleExpired := by
  unfold State.eligibleExpired
  split
  · exact (kept_reach s _).trans ((kept_withTraffic _ _).trans (kept_reassess _))
  · exact .refl s

theorem kept_replayDrained (s : State) : ClaimsKept s s.replayDrained := .ite (kept_shiftOff s) (.refl s)

theorem kept_memoReplayEnded (s : State) : ClaimsKept s s.memoReplayEnded :=
  .ite ((kept_shiftOff s).trans ((kept_dropRadio _).trans (kept_tableChanged _))) (.refl s)

/-! ### The rear stations -/

theorem kept_setHolder (s : State) (h : Option StationId) : ClaimsKept s (s.setHolder h) := kept_withTunB _ _

theorem kept_setGrace (s : State) (st : StationId) (g : Option Time) : ClaimsKept s (s.setGrace st g) := kept_setStation _ _ _

theorem kept_endHolding (s : State) : ClaimsKept s s.endHolding := by
  unfold State.endHolding
  split
  · exact .refl s
  · exact (kept_setGrace s _ none).trans
      (.ite ((kept_setHolder _ _).trans (kept_setGrace _ _ _)) ((kept_setHolder _ _).trans (kept_reassess _)))

theorem kept_lend (s : State) (st : StationId) (f : Freq) : ClaimsKept s (s.lend st f) := by
  unfold State.lend
  have lent : ClaimsKept s (if s.tunB.holder = some st then s else (s.setHolder (some st)).setGrace st (s.graceOf st)) :=
    .ite (.refl s) ((kept_setHolder _ _).trans (kept_setGrace _ _ _))
  exact lent.trans ((kept_enterB _ _ _).trans (kept_reassess _))

theorem kept_setSource (s : State) (st : StationId) (src : Source) : ClaimsKept s (s.setSource st src) :=
  .ite ((kept_setStation s st _).trans (kept_endHolding _)) (kept_setStation s st _)

theorem kept_inserted (s : State) (st : StationId) : ClaimsKept s (s.inserted st) :=
  .ite (.refl s) ((kept_setStation _ _ _).trans ((kept_setStation _ _ _).trans (kept_wake _ _ _)))

theorem kept_graceExpired (s : State) (st : StationId) : ClaimsKept s (s.graceExpired st) := by
  unfold State.graceExpired
  split
  · exact .ite ((kept_reach s _).trans (kept_endHolding _)) (.refl s)
  · exact .refl s

end Sys2Proof.Machine
end

section
namespace Sys2Proof.Machine

/-! ### The call (R36, R118) -/

/-- The CALL claim stands after a change of call state exactly if the state is not IDLE. -/
theorem State.followCallClaim_keeps {s u : State} {p : CallPhase} (hu : u = s.withCall { s.call with state := p }) :
    KeepsClaims s (u.followCallClaim s.call.state p) := fun hw => by
  have len : u.table.entries.length = 16 := hu ▸ (ClaimTable.wf_iff.1 hw).1
  have wf : u.table.wf := hu ▸ hw
  have fits : fitsHandle callHandle (callClaim p u.call.placement).claimant := rfl
  have claims : ∀ h, u.claim h = s.claim h := hu ▸ fun _ => rfl
  have follow : ∀ t : State, t.table.wf → t.owners = u.owners →
      (∀ k, k ≠ callHandle → (t.claim k).isSome = (u.claim k).isSome) →
      (s.claimsFollow → (t.claim callHandle).isSome = decide (p ≠ .idle)) →
      t.table.wf ∧ (s.claimsFollow → t.claimsFollow) := fun t ht ho hk hc => by
    refine ⟨ht, fun hf => ?_⟩
    obtain ⟨four, -, voices⟩ := (State.claimsFollow_iff s).1 hf
    have owners : t.owners = { s.owners with call := decide (p ≠ .idle) } := ho.trans (hu ▸ rfl)
    refine (State.claimsFollow_iff t).2 ⟨owners ▸ four, by rw [hc hf, owners], fun n => ?_⟩
    rw [hk _ (by simp [voiceHandle, callHandle]; omega), claims, voices n, owners]
  unfold State.followCallClaim
  dsimp only
  split
  · refine follow _ (State.setClaim_wf wf fun _ hc => by cases hc) rfl (fun k hk => by rw [u.setClaim_claim_of_ne none hk])
      fun _ => ?_
    rw [State.claim_setClaim_none]
    simp [*]
  · rename_i hp
    split
    · refine follow _ (State.post_wf wf fits) (State.post_owners _ _ _) (fun k hk => ?_) fun _ => ?_
      · rw [State.post_isSome _ _ _ (by rw [len]; decide), decide_eq_false hk, Bool.false_or]
      · rw [State.post_isSome _ _ _ (by rw [len]; decide)]
        simp [hp]
    · rename_i hs
      have kept : ClaimsKept u (u.changeClaim callHandle fun c => { callClaim p u.call.placement with seq := c.seq }) :=
        kept_changeClaim u _ fun _ _ _ => ⟨fits, rfl⟩
      refine follow _ (kept.order wf) kept.owners (fun k hk => by rw [State.changeClaim, u.setClaim_claim_of_ne _ hk]) fun hf => ?_
      have busy : s.call.state ≠ .idle := fun k => hs (by simp [k])
      have standing := ((State.claimsFollow_iff s).1 hf).2.1
      rw [kept.held wf _ le_rfl, claims, standing]
      simp [State.owners, hp, busy]

theorem kept_withEcho (s : State) (e : Canceller) : ClaimsKept s (s.withEcho e) := kept_withCall s _ rfl

theorem kept_callEnteredActive (s : State) : ClaimsKept s s.callEnteredActive := .ite (kept_startCapture _ _ _ _ _) (.refl s)

theorem kept_callEnteredIdle (s : State) : ClaimsKept s s.callEnteredIdle := .ite (kept_resumeReplay _) (.refl s)

theorem keepsClaims_enterCall (s : State) (p : CallPhase) : KeepsClaims s (s.enterCall p) := by
  unfold State.enterCall
  have claimed : KeepsClaims s ((s.withCall { s.call with state := p }).followCallClaim s.call.state p).tableChanged :=
    (State.followCallClaim_keeps rfl).then (kept_tableChanged _)
  refine claimed.then ?_
  dsimp only
  split
  · exact kept_withEcho _ _
  · exact (kept_withEcho _ _).trans (kept_callEnteredActive _)
  · exact kept_withEcho _ _
  · exact (kept_withEcho _ _).trans (kept_callEnteredIdle _)

theorem kept_chooseMic (s : State) : ClaimsKept s s.chooseMic :=
  .ite (.refl s) ((kept_withCall s { s.call with mic := s.micChoice } rfl).trans (kept_resetEcho _))

/-- The CALL claim moves to other zones. -/
theorem kept_callZones (s : State) (zs : ZoneSet) : ClaimsKept s (s.changeClaim callHandle fun c => { c with zones := zs }) :=
  kept_changeClaim s _ fun _ _ fits => ⟨fits, rfl⟩

theorem kept_placeCall (s : State) (p : Placement) : ClaimsKept s (s.placeCall p) := by
  unfold State.placeCall
  refine (kept_withCall s { s.call with placement := p } rfl).trans ?_
  generalize s.withCall { s.call with placement := p } = u
  have claimed : ClaimsKept u (if u.call.state = .idle then u
      else (u.changeClaim callHandle fun c => { c with zones := placementZones p }).tableChanged) :=
    .ite (.refl u) ((kept_callZones u _).trans (kept_tableChanged _))
  exact claimed.trans ((kept_chooseMic _).trans (kept_resetEcho _))

theorem kept_placementFallback (s : State) (st : StationId) : ClaimsKept s (s.placementFallback st) :=
  .ite (kept_placeCall _ _) ((kept_placeCall _ _).trans ((kept_advise _ _ _).trans (kept_advise _ _ _)))

theorem kept_setClass (s : State) (st : StationId) (c : JackClass) : ClaimsKept s (s.setClass st c) := by
  unfold State.setClass
  exact .ite (.refl s) ((kept_setStation s st { s.station st with jack := c }).trans
    (.ite (.refl _) (.ite (kept_placementFallback _ _) (kept_chooseMic _))))

theorem kept_removed (s : State) (st : StationId) : ClaimsKept s (s.removed st) := by
  unfold State.removed
  have opened := (kept_setStation s st { s.station st with inserted := false, measuring := false }).trans
    (kept_setClass _ st .vacant)
  exact .ite (.refl s) (.ite (opened.trans (kept_setGrace _ _ _)) opened)

theorem kept_measured (s : State) (st : StationId) (load1 load2 : Nat) (mic : Bool) :
    ClaimsKept s (s.measured st load1 load2 mic) := by
  unfold State.measured
  exact .ite (.refl s) ((kept_reach s _).trans ((kept_setStation _ _ _).trans (kept_setClass _ _ _)))

theorem kept_windowJudged (s : State) : ClaimsKept s s.windowJudged := .ite (kept_withEcho _ _) (.refl s)

end Sys2Proof.Machine
end

section
namespace Sys2Proof.Machine

/-! ### The voices (R158, R159) -/

/-- A voice changed without entering or leaving IDLE. -/
theorem kept_setVoice (s : State) (n : Nat) (v : Voice) (h : v.busy = (s.voice n).busy) : ClaimsKept s (s.setVoice n v) :=
  kept_withChime s _ (map_set_eq Voice.busy _ _ _ Voice.fresh h)

theorem State.setVoice_owners (s : State) (n : Nat) (v : Voice) :
    (s.setVoice n v).owners = { s.owners with voices := s.owners.voices.set n v.busy } :=
  congrArg (Owners.mk _) List.map_set

theorem kept_postVoice (s : State) (n : Fin 4) : ClaimsKept s (s.postVoice n) := kept_setPosted _ _ _

theorem kept_keepRequest (s : State) (n : Fin 4) : ClaimsKept s (s.keepRequest n) := .ite (.refl s) (kept_setPosted _ _ _)

theorem kept_setEnded (s : State) (l : Link) (e : Ended) : ClaimsKept s (s.setEnded l e) := kept_withChime s _ rfl

theorem kept_chimeEnded (s : State) (l : Link) (e : Ended) : ClaimsKept s (s.chimeEnded l e) :=
  (kept_setEnded _ _ _).trans (kept_notice _ _ _)

theorem kept_requestEnded (s : State) (r : Request) (c : EndCause) : ClaimsKept s (s.requestEnded r c) := kept_chimeEnded _ _ _

theorem kept_withQueue (s : State) (q : List Request) : ClaimsKept s (s.withChime { s.chime with queue := q }) :=
  kept_withChime s _ rfl

/-- The claims agree with the owners where voice `n` has come to sound, or to be IDLE, and its claim with it. -/
theorem claimsFollow_of_voice {s t : State} {n : Fin 4} {b : Bool} (hf : s.claimsFollow)
    (ho : t.owners = { s.owners with voices := s.owners.voices.set n.val b }) (hn : (t.claim (voiceHandle n.val)).isSome = b)
    (hk : ∀ k, callHandle ≤ k → k ≠ voiceHandle n.val → (t.claim k).isSome = (s.claim k).isSome) : t.claimsFollow := by
  obtain ⟨four, call, voices⟩ := (State.claimsFollow_iff s).1 hf
  refine (State.claimsFollow_iff t).2 ⟨by rw [ho]; simpa using four, ?_, fun m => ?_⟩
  · rw [hk _ le_rfl (by simp [voiceHandle, callHandle]; omega), call, ho]
  · rw [ho]
    dsimp only
    rw [getD_set _ _ _ _ _ (by omega)]
    by_cases hm : m = n
    · subst hm; rw [hn, if_pos rfl]
    · have apart : m.val ≠ n.val := fun k => hm (Fin.ext k)
      rw [hk _ (by simp [voiceHandle, callHandle]; omega) (by simp [voiceHandle]; omega), voices m, if_neg apart]

theorem Chime.readyToStart_busy (c : Chime) : c.readyToStart.voices.map Voice.busy = c.voices.map Voice.busy := by
  unfold Chime.readyToStart
  split
  · rfl
  · exact List.ext_getElem (by simp) (by simp [Voice.busy])

/-- A voice that starts has its claim posted (R34). -/
theorem keepsClaims_startVoice (s : State) (n : Fin 4) (r : Request) (d : Descriptor) :
    KeepsClaims s (s.startVoice n r d) := by
  unfold State.startVoice
  dsimp only
  generalize hu : (s.withChime { s.chime.readyToStart with counter := s.chime.readyToStart.counter + 1 }).setVoice n.val _ = u
  refine KeepsClaims.then (t := (u.post (voiceHandle n.val) (voiceClaim n d)).tableChanged) ?_ (kept_postVoice _ _)
  refine KeepsClaims.then (t := u.post (voiceHandle n.val) (voiceClaim n d)) ?_ (kept_tableChanged _)
  intro hw
  have table : u.table = s.table := hu ▸ rfl
  have claims : ∀ k, u.claim k = s.claim k := fun k => by simp only [State.claim, table]
  have owners : u.owners = { s.owners with voices := s.owners.voices.set n.val true } := by
    rw [← hu, State.setVoice_owners]
    exact congrArg (fun x => Owners.mk _ (x.set n.val true)) s.chime.readyToStart_busy
  have wf : u.table.wf := table ▸ hw
  have some : ∀ k, ((u.post (voiceHandle n.val) (voiceClaim n d)).claim k).isSome
      = (decide (k = voiceHandle n.val) || (s.claim k).isSome) := fun k => by
    rw [State.post_isSome _ _ _ (by rw [(ClaimTable.wf_iff.1 wf).1, voiceHandle]; omega), claims]
  refine ⟨State.post_wf wf rfl, fun hf => claimsFollow_of_voice hf ((State.post_owners _ _ _).trans owners) ?_ fun k _ hk => ?_⟩
  · simp [some]
  · simp [some, hk]

/-- A sounding voice goes on sounding. -/
theorem kept_soundOn {s : State} {n : Nat} {v : Voice} (hs : (s.voice n).state ≠ .idle) (hv : v.state ≠ .idle) :
    ClaimsKept s (s.setVoice n v) := kept_setVoice s n v ((Voice.busy_of_ne hv).trans (Voice.busy_of_ne hs).symm)

theorem Voice.not_idle_of_sounding {v : Voice} (h : (v.state = .playing || v.state = .gap) = true) : v.state ≠ .idle := by
  intro k
  simp [k] at h

theorem kept_stopVoice (s : State) (n : Fin 4) (c : EndCause) : ClaimsKept s (s.stopVoice n c) := by
  unfold State.stopVoice
  dsimp only
  split
  · have sounding := Voice.not_idle_of_sounding ‹_›
    refine .trans (t := State.changeClaim _ _ _) ?_ (kept_keepRequest _ _)
    exact .trans (t := s.setVoice n.val { s.voice n.val with state := .stopping, cause := some c, faded := false })
      (kept_soundOn sounding (by simp)) (kept_changeClaim _ _ fun _ _ fits => ⟨fits, rfl⟩)
  · exact .refl s

theorem keepsClaims_takeQueue (n : Fin 4) (rs : List Request) (s : State) : KeepsClaims s (State.takeQueue n rs s) := by
  induction rs generalizing s with
  | nil => exact (ClaimsKept.refl s).keeps
  | cons r rest ih =>
    unfold State.takeQueue
    refine (kept_withQueue s rest).keeps.trans ?_
    dsimp only
    split
    · exact keepsClaims_startVoice _ _ _ _
    · exact (kept_requestEnded _ _ _).keeps.trans (ih _)

theorem keepsClaims_takeNext (s : State) (n : Fin 4) (r : Option Request) : KeepsClaims s (s.takeNext n r) := by
  unfold State.takeNext
  split
  · split
    · exact keepsClaims_startVoice _ _ _ _
    · exact (kept_requestEnded _ _ _).keeps.trans (keepsClaims_takeQueue _ _ _)
  · exact keepsClaims_takeQueue _ _ _

/-- The report of a voice's end. -/
theorem kept_endReport (s : State) (v : Voice) (n : Fin 4) (c : EndCause) : ClaimsKept s
    (match v.starter, v.desc with
      | some l, some d =>
        if v.cause = some EndCause.reset then s.setEnded l ⟨d, some n, c⟩ else s.chimeEnded l ⟨d, some n, c⟩
      | _, _ => s) := by
  split
  · exact .ite (kept_setEnded _ _ _) (kept_chimeEnded _ _ _)
  · exact .refl s

/-- A voice whose claim has been removed becomes IDLE. -/
theorem keepsClaims_idled {s u : State} {n : Fin 4} (hu : ClaimsKept (s.setClaim (voiceHandle n.val) none) u) (v : Voice) :
    KeepsClaims s (u.setVoice n.val v.idled) := fun hw => by
  have wf : (s.setClaim (voiceHandle n.val) none).table.wf := State.setClaim_wf hw fun _ hc => by cases hc
  refine ⟨hu.order wf, fun hf => claimsFollow_of_voice (n := n) (b := false) hf ?_ ?_ fun k hk hn => ?_⟩
  · rw [State.setVoice_owners, hu.owners]
    rfl
  · refine (hu.held wf _ (by simp [voiceHandle, callHandle]; omega)).trans ?_
    rw [State.claim_setClaim_none]
    rfl
  · refine (hu.held wf k hk).trans ?_
    rw [s.setClaim_claim_of_ne none hn]

/-- The end of a voice takes its claim with it (R158). -/
theorem keepsClaims_endVoice (s : State) (n : Fin 4) (c : EndCause) : KeepsClaims s (s.endVoice n c) := by
  unfold State.endVoice
  exact (keepsClaims_idled ((kept_tableChanged _).trans (kept_endReport _ (s.voice n.val) n c)) _).then (kept_keepRequest _ _)

theorem keepsClaims_reachIdle (s : State) (n : Fin 4) : KeepsClaims s (s.reachIdle n) := by
  unfold State.reachIdle
  dsimp only
  split
  · exact (keepsClaims_endVoice _ _ _).trans (keepsClaims_takeNext _ _ _)
  · exact (ClaimsKept.refl s).keeps

theorem Voice.again_not_idle (v : Voice) (length g : Nat) : (v.again length g).state ≠ .idle := by
  unfold Voice.again
  split <;> simp

theorem Voice.restarted_state (v : Voice) (m : RepeatMode) : (v.restarted m).state = v.state := by
  unfold Voice.restarted
  split <;> rfl

theorem kept_chainStep {s : State} {n : Fin 4} (hs : (s.voice n.val).state ≠ .idle) (d : Descriptor) (next : Option Nat) :
    ClaimsKept s (s.chainStep n d next) := by
  unfold State.chainStep
  dsimp only
  split
  · split
    · refine .trans ?_ (kept_tableChanged _)
      exact (kept_soundOn hs (by exact Voice.again_not_idle _ _ _)).trans
        (kept_changeClaim _ _ (by exact fun _ _ fits => ⟨fits, rfl⟩))
    · exact kept_stopVoice _ _ _
  · exact kept_stopVoice _ _ _

/-- What voice `n` reads as once it is written, where the list of voices has its place. -/
theorem State.setVoice_self_not_idle {s : State} {n : Nat} {v : Voice} (hs : (s.voice n).state ≠ .idle) (hv : v.state ≠ .idle) :
    ((s.setVoice n v).voice n).state ≠ .idle := by
  by_cases hl : n < s.chime.voices.length
  · rwa [s.setVoice_voice n n v hl, if_pos rfl]
  · refine absurd ?_ hs
    rw [State.voice, List.getD_eq_default _ _ (not_lt.1 hl)]
    rfl

theorem kept_playEnded (s : State) (n : Fin 4) : ClaimsKept s (s.playEnded n) := by
  unfold State.playEnded
  dsimp only
  split
  · rename_i d _
    split
    · rename_i h
      have sounding : (s.voice n.val).state ≠ .idle := fun k => by simp [k] at h
      have again : ((s.voice n.val).restarted d.mode).state ≠ .idle := by rwa [Voice.restarted_state]
      refine .trans (kept_soundOn sounding again) (.trans ?_ (kept_keepRequest _ n))
      have still := State.setVoice_self_not_idle sounding again
      generalize s.setVoice n.val ((s.voice n.val).restarted d.mode) = u at still ⊢
      split
      · exact kept_soundOn still (Voice.again_not_idle _ _ _)
      · split
        · exact kept_soundOn still (Voice.again_not_idle _ _ _)
        · split
          · exact kept_chainStep still _ _
          · exact kept_stopVoice _ _ _
    · exact .refl s
  · exact .refl s

theorem kept_gapOver (s : State) (n : Fin 4) : ClaimsKept s (s.gapOver n) := by
  unfold State.gapOver
  dsimp only
  split
  · split
    · rename_i h
      exact (kept_soundOn (fun k => by simp [k] at h) (by simp)).trans (kept_postVoice _ _)
    · exact .refl s
  · exact .refl s

theorem kept_deadlinePassed (s : State) (n : Fin 4) : ClaimsKept s (s.deadlinePassed n) := by
  unfold State.deadlinePassed
  dsimp only
  split
  · exact .ite ((kept_reach s _).trans (kept_stopVoice _ _ _)) (.refl s)
  · exact .refl s

theorem keepsClaims_cutVoice (s : State) (n : Fin 4) : KeepsClaims s (s.cutVoice n) := by
  unfold State.cutVoice
  dsimp only
  split
  · exact (ClaimsKept.refl s).keeps
  · split
    · exact (keepsClaims_endVoice _ _ _).then (kept_requestEnded _ _ _)
    · exact keepsClaims_endVoice _ _ _

theorem kept_emptyQueue (s : State) (c : EndCause) : ClaimsKept s (s.emptyQueue c) :=
  (kept_withQueue s []).trans (.foldl _ (fun s r => kept_requestEnded s r c) _ _)

theorem keepsClaims_cutChimes (s : State) : KeepsClaims s s.cutChimes :=
  (KeepsClaims.foldl _ keepsClaims_cutVoice _ _).then (kept_emptyQueue _ _)

theorem kept_cancelSuccessor (s : State) (p : Request → Bool) (n : Fin 4) : ClaimsKept s (s.cancelSuccessor p n) := by
  unfold State.cancelSuccessor
  split
  · exact .ite ((kept_setVoice s n.val { s.voice n.val with successor := none } rfl).trans (kept_requestEnded _ _ _)) (.refl s)
  · exact .refl s

theorem kept_withdrawQueued (s : State) (p : Request → Bool) : ClaimsKept s (s.withdrawQueued p) :=
  (kept_withQueue s _).trans (.foldl _ (fun s r => kept_requestEnded s r _) _ _)

theorem kept_stopWhere (s : State) (v : Voice → Bool) (r : Request → Bool) (c : EndCause) : ClaimsKept s (s.stopWhere v r c) := by
  unfold State.stopWhere
  exact (ClaimsKept.foldl _ (fun s n => .ite (kept_stopVoice s n c) (.refl s)) _ s).trans
    ((kept_withdrawQueued _ _).trans (.foldl _ (fun s n => kept_cancelSuccessor s r n) _ _))

theorem kept_preempt (s : State) (n : Fin 4) (r : Request) : ClaimsKept s (s.preempt n r) := by
  unfold State.preempt
  have stopped : ClaimsKept s ((s.stopVoice n .preempted).setVoice n.val
      { (s.stopVoice n .preempted).voice n.val with successor := some r }) :=
    (kept_stopVoice _ _ _).trans (kept_setVoice _ _ _ rfl)
  dsimp only
  split
  · exact stopped.trans (kept_advise _ _ _)
  · exact stopped

/-- A change of every voice that leaves it IDLE or not. -/
theorem kept_mapVoices (s : State) (f : Voice → Voice) (hf : ∀ v, (f v).state = v.state) :
    ClaimsKept s (s.withChime { s.chime with voices := s.chime.voices.map f }) :=
  kept_withChime s _ (by simp [Function.comp_def, fun v => Voice.busy_congr (hf v)])

theorem kept_restart (s : State) (d : Nat) (m : RepeatMode) (now : Time) :
    ClaimsKept s (s.withChime (s.chime.restart d m now)) := kept_mapVoices s _ fun v => by split <;> rfl

theorem kept_renew (s : State) (d : Nat) (t : Option Time) : ClaimsKept s (s.withChime (s.chime.renew d t)) :=
  kept_mapVoices s _ fun v => by split <;> rfl

theorem kept_joinQueue (s : State) (r : Request) (p : Nat) : ClaimsKept s (s.joinQueue r p) := kept_withQueue s _

theorem keepsClaims_requestChime (s : State) (l : Link) (d : Nat) (x : Descriptor) :
    KeepsClaims s (s.requestChime l d x).2 := by
  unfold State.requestChime
  repeat' split
  · exact (kept_restart _ _ _ _).keeps
  · exact (ClaimsKept.refl s).keeps
  · exact keepsClaims_startVoice _ _ _ _
  · exact (kept_preempt _ _ _).keeps
  · exact (kept_joinQueue _ _ _).keeps
  · exact (ClaimsKept.refl s).keeps

end Sys2Proof.Machine
end

section
namespace Sys2Proof.Machine

/-! ### The store and the frame event -/

theorem kept_setSlot (s : State) (l : Link) (x : Slot) : ClaimsKept s (s.setSlot l x) := kept_setLink _ _ _
theorem kept_shiftOut (s : State) (l : Link) (n : Nat) (r : Reply) : ClaimsKept s (s.shiftOut l n r) := kept_setLink _ _ _
theorem kept_setChannel (s : State) (l : Link) (c : Option Channel) : ClaimsKept s (s.setChannel l c) := kept_withStore _ _
theorem kept_setWaiting (s : State) (l : Link) (x : Option Transfer) : ClaimsKept s (s.setWaiting l x) := kept_withStore _ _

theorem kept_deliver (s : State) (l : Link) (ws : List Word) : ClaimsKept s (s.deliver l ws) := by
  unfold State.deliver
  split
  · exact kept_setSlot _ _ _
  · exact .refl s

theorem kept_burst (s : State) (l : Link) (c : Channel) (x : Transfer) : ClaimsKept s (s.burst l c x) := by
  unfold State.burst
  dsimp only
  generalize hu : State.setWaiting _ l _ = u
  have moved : ClaimsKept s u := hu ▸ (kept_withStore s _).trans ((kept_setChannel _ _ _).trans (kept_setWaiting _ _ _))
  have delivered : ∀ (b : Bool) (ws : List Word), ClaimsKept s (if b then u.deliver l ws else u) := fun b ws =>
    .ite (moved.trans (kept_deliver _ _ _)) moved
  exact .ite ((delivered _ _).trans (kept_notice _ _ _)) (delivered _ _)

theorem kept_bulkTurn (s : State) : ClaimsKept s s.bulkTurn := by
  unfold State.bulkTurn
  split
  · exact .refl s
  · split
    · exact kept_burst _ _ _ _
    · exact kept_setWaiting _ _ _

theorem kept_moveAll (s : State) (l : Link) : ClaimsKept s (s.moveAll l) := by
  have turns : ∀ (n : Nat) (s : State), ClaimsKept s (State.bulkTurns l n s) := by
    intro n
    induction n with
    | zero => exact .refl
    | succ n ih => exact fun s => .ite ((kept_bulkTurn s).trans (ih _)) (.refl s)
  exact turns _ s

theorem kept_finishTransfers (s : State) : ClaimsKept s s.finishTransfers := .foldl _ (fun s l => kept_moveAll s l) _ _

theorem kept_replyReady (s : State) (l : Link) : ClaimsKept s (s.replyReady l) := by
  unfold State.replyReady
  refine .trans (kept_moveAll s l) ?_
  dsimp only
  split
  · exact .refl _
  · exact kept_setSlot _ _ _

theorem kept_withDescs (s : State) (x : List (Option Descriptor)) : ClaimsKept s (s.withChime { s.chime with descs := x }) :=
  kept_withChime s _ rfl

theorem kept_moveBounds (s : State) (u0 u1 : Nat) : ClaimsKept s (s.moveBounds u0 u1).2 := by
  unfold State.moveBounds
  dsimp only
  generalize hu : List.foldl _ _ Link.every = u
  have told : ClaimsKept s u := by
    rw [← hu]
    exact (kept_withStore s _).trans ((kept_withDescs _ _).trans
      (.foldl _ (fun t l => by exact .ite (.refl t) (kept_advise _ _ _)) _ _))
  exact .ite (told.trans (kept_discard _ _)) told

theorem kept_settled {f : State → State} (s : State) (h : ClaimsKept s (f s)) : ClaimsKept s (settled f s) :=
  h.trans (kept_offerEdges _ _)

theorem keepsClaims_settleDue (s : State) : KeepsClaims s s.settleDue := by
  unfold State.settleDue
  have sinks : ∀ (s : State) (k : Nat), ClaimsKept s
      (settled (fun s => s.fadeInEnd k) (settled (fun s => s.fadeOutEnd k) (settled (fun s => s.releaseGuard k) s))) :=
    fun s k => (kept_settled s (kept_releaseGuard s k)).trans
      ((kept_settled _ (kept_fadeOutEnd _ k)).trans (kept_settled _ (kept_fadeInEnd _ k)))
  have plays : ∀ (s : State) (n : Fin 4), ClaimsKept s (settled (fun s => s.gapOver n) (settled (fun s => s.playEnded n) s)) :=
    fun s n => (kept_settled s (kept_playEnded s n)).trans (kept_settled _ (kept_gapOver _ n))
  have ends : ∀ (s : State) (n : Fin 4), KeepsClaims s (settled (fun s => s.reachIdle n) s) :=
    fun s n => (keepsClaims_reachIdle s n).then (kept_offerEdges _ _)
  exact ((kept_settled s (kept_windowJudged s)).trans ((ClaimsKept.foldl _ sinks _ _).trans
    ((kept_settled _ (kept_replayDrained _)).trans ((kept_settled _ (kept_memoReplayEnded _)).trans
      (ClaimsKept.foldl _ plays _ _))))).keeps.trans (KeepsClaims.foldl _ ends _ _)

theorem kept_cancel (s : State) (x : FrameInput) : ClaimsKept s (s.cancel x) := by
  unfold State.cancel
  dsimp only
  split <;> exact kept_withCall s _ (by rfl)

theorem kept_conference (s : State) (x : FrameInput) : ClaimsKept s (s.conference x) := by
  unfold State.conference
  dsimp only
  refine .ite (.refl s) (.trans ?_ (kept_withCall _ _ (by rfl)))
  refine kept_withCall s _ ?_
  split <;> rfl

theorem Voice.framed_state (v : Voice) (b : Bool) : (v.framed b).state = v.state := by
  cases h : v.state <;> simp [Voice.framed, h]

theorem kept_frameVoices (s : State) : ClaimsKept s s.frameVoices :=
  kept_withChime s _ (List.ext_getElem (by simp) (by simp [Voice.busy, Voice.framed_state]))

theorem kept_frame (s : State) (x : FrameInput) : ClaimsKept s (s.frame x) := by
  unfold State.frame
  have mixed : ClaimsKept s (s.mixFrame (s.offers x)) := .of_happens (happens_mixFrame s _) (by simp [beside])
  have replayed : ∀ u : State, ClaimsKept u u.afterReplay := fun u => .of_happens (happens_afterReplay u) (by simp [beside])
  have captured : ∀ u : State, ClaimsKept u (u.capture (s.offers x)) := fun u =>
    .of_happens (happens_capture u _) (by simp [beside])
  have handed : ∀ u : State, ClaimsKept u u.handUplink := fun u => .of_happens (happens_handUplink u) (by simp [beside])
  have sampled : ∀ u : State, ClaimsKept u u.startSampling := fun u => .of_happens (happens_startSampling u) (by simp [beside])
  have posted : ∀ u : State, ClaimsKept u u.postStreams := fun u => .of_happens (happens_postStreams u) (by simp [beside])
  have moved : ∀ u : State, ClaimsKept u u.nextFrame := fun u => .of_happens (happens_nextFrame u) (by simp [beside])
  exact mixed.trans ((replayed _).trans ((captured _).trans ((kept_withCall _ _ (by rfl)).trans ((kept_cancel _ x).trans
    ((handed _).trans ((kept_conference _ x).trans ((sampled _).trans ((kept_frameVoices _).trans
      ((posted _).trans (moved _))))))))))

theorem keepsClaims_frameEvent (s : State) (x : FrameInput) : KeepsClaims s (s.frameEvent x) := by
  unfold State.frameEvent
  split
  · exact (ClaimsKept.refl s).keeps
  · exact (keepsClaims_settleDue s).then ((kept_reach _ _).trans (kept_frame _ x))

/-! ### Power Control -/

theorem kept_dropHolder (s : State) : ClaimsKept s s.dropHolder := (kept_withTunB s _).trans (kept_withStations _ _)

theorem kept_clearFast (s : State) : ClaimsKept s s.clearFast := (kept_withTunA s _).trans (kept_withTunB _ _)

theorem kept_endFrames (s : State) : ClaimsKept s s.endFrames :=
  .trans (kept_withCall s _ (by rfl)) ((kept_withStations _ _).trans ((kept_withStore _ _).trans (kept_clearFast _)))

theorem kept_startTimer (s : State) : ClaimsKept s s.startTimer := kept_withPower s _
theorem kept_stopTimer (s : State) : ClaimsKept s s.stopTimer := kept_withPower s _

theorem kept_parkTuners (s : State) : ClaimsKept s s.parkTuners :=
  (kept_withTunA s _).trans ((kept_dropHolder _).trans ((kept_enterB _ _ _).trans (kept_withPorts _ _)))

theorem keepsClaims_leaveRun (s : State) (st : PowerState) : KeepsClaims s (s.leaveRun st) := by
  rw [State.leaveRun_eq]
  have stopped : KeepsClaims s (s.stopRun st) :=
    ((kept_withPower s _).trans (kept_withMix _ _)).keeps.trans ((keepsClaims_cutChimes _).then
      ((kept_discard _ _).trans ((kept_parkTuners _).trans (kept_endFrames _))))
  exact stopped.then ((ClaimsKept.ite (kept_startTimer _) (kept_stopTimer _)).trans (kept_reassess _))

theorem kept_moveParked (s : State) (st : PowerState) : ClaimsKept s (s.moveParked st) := by
  unfold State.moveParked
  exact .ite ((kept_withPower s _).trans (kept_startTimer _)) ((kept_withPower s _).trans
    ((ClaimsKept.ite (kept_enterB _ _ _) (.refl _)).trans ((kept_stopTimer _).trans (kept_reassess _))))

theorem keepsClaims_moveTo (s : State) (st : PowerState) : KeepsClaims s (s.moveTo st) := by
  unfold State.moveTo
  split
  · exact (kept_enterRun _ _).keeps
  · split
    · exact keepsClaims_leaveRun _ _
    · exact (kept_moveParked _ _).keeps

theorem kept_filled (s : State) : ClaimsKept s s.filled :=
  .ite ((kept_reach s _).trans ((kept_withStore _ _).trans ((kept_withPower _ _).trans (kept_wake _ _ _)))) (.refl s)

theorem kept_ignitionRose (s : State) : ClaimsKept s s.ignitionRose := (kept_withPower s _).trans (kept_wake _ _ _)

theorem kept_refreshDue (s : State) : ClaimsKept s s.refreshDue := by
  unfold State.refreshDue
  split
  · exact .ite (((kept_reach s _).trans (kept_stopTimer _)).trans (.ite (.refl _) (kept_startSweep _ _))) (.refl s)
  · exact .refl s

/-! ### The two resets (R192, R193) -/

theorem ClaimTable.claimAt_without (t : ClaimTable) (l : Link) (h : Nat) :
    (t.without l).claimAt h = (t.claimAt h).filter fun c => c.claimant ≠ .link l := by
  simp only [ClaimTable.claimAt, ClaimTable.without, List.getD_eq_getElem?_getD, List.getElem?_map]
  cases t.entries[h]? with
  | none => rfl
  | some e =>
    cases e with
    | none => rfl
    | some c => by_cases hc : c.claimant = .link l <;> simp [Option.filter, hc]

/-- The claims that a link's reset removes are none of the hub's own (R38). -/
theorem kept_withoutLink (s : State) (l : Link) : ClaimsKept s (s.withTable (s.table.without l)) where
  order ht := by
    obtain ⟨len, room, bounds, inj⟩ := ClaimTable.wf_iff.1 ht
    have was : ∀ h c, (s.table.without l).claimAt h = some c → s.table.claimAt h = some c := fun h c hc => by
      rw [ClaimTable.claimAt_without, Option.filter_eq_some_iff] at hc
      exact hc.1
    exact ClaimTable.wf_iff.2 ⟨by simpa [ClaimTable.without] using len, room, fun h c hc => bounds h c (was h c hc),
      fun j k c d hc hd => inj j k c d (was j c hc) (was k d hd)⟩
  held ht h hh := by
    show ((s.table.without l).claimAt h).isSome = (s.table.claimAt h).isSome
    rw [ClaimTable.claimAt_without]
    cases hc : s.table.claimAt h with
    | none => rfl
    | some c =>
      have fits := ((ClaimTable.wf_iff.1 ht).2.2.1 h c hc).1
      have own : c.claimant ≠ .link l := fun k => by
        rw [k] at fits
        simp only [fitsHandle, callHandle] at fits hh
        omega
      simp [Option.filter, own]
  owners := rfl

theorem kept_unmuteAll (s : State) (l : Link) : ClaimsKept s (s.unmuteAll l) := (kept_withMix s _).trans (kept_withCall _ _ (by rfl))

theorem keepsClaims_resetOwn (s : State) (l : Link) : KeepsClaims s (s.resetOwn l) := by
  match l with
  | .telephony =>
    show KeepsClaims s (if s.call.state = .idle then s else s.enterCall .idle)
    split
    · exact (ClaimsKept.refl s).keeps
    · exact keepsClaims_enterCall _ _
  | .rear => exact (kept_endHolding s).keeps
  | .cockpit => exact (ClaimsKept.refl s).keeps
  | .body => exact (ClaimsKept.refl s).keeps

theorem keepsClaims_resetLink (s : State) (l : Link) : KeepsClaims s (s.resetLink l) := by
  unfold State.resetLink
  exact ((kept_setLink s l _).trans ((kept_withoutLink _ l).trans ((kept_tableChanged _).trans ((kept_unmuteAll _ _).trans
    ((kept_setChannel _ _ _).trans (kept_stopWhere _ _ _ _)))))).keeps.trans (keepsClaims_resetOwn _ _)

theorem kept_resetTuners (s : State) : ClaimsKept s s.resetTuners := by
  unfold State.resetTuners
  exact (kept_withRadio s _).trans ((kept_withTunA _ _).trans ((kept_setHolder _ _).trans (.ite (.refl _) (kept_enterB _ _ _))))

theorem kept_restartTuners (s : State) : ClaimsKept s s.restartTuners := .ite (kept_retuneA _ _ _) (kept_reassess s)

/-- No claim is held, the call is IDLE and so is every voice. -/
theorem claimsFollow_of_empty {s : State} (hc : ∀ h, s.claim h = none) (four : s.owners.voices.length = 4)
    (hi : s.call.state = .idle) (hv : ∀ b ∈ s.owners.voices, b = false) : s.claimsFollow := by
  refine (State.claimsFollow_iff s).2 ⟨four, by simp [hc, State.owners, hi], fun n => ?_⟩
  rw [hc, List.getD_eq_getElem _ _ (by omega), hv _ (List.getElem_mem _)]
  rfl

theorem ClaimTable.claimAt_empty (n h : Nat) : ClaimTable.claimAt { entries := List.replicate 16 none, counter := n } h = none := by
  rw [ClaimTable.claimAt, List.getD_eq_getElem?_getD, List.getElem?_replicate]
  split <;> rfl

theorem ClaimTable.empty_wf {n : Nat} (h : n ≤ seqMax) : ClaimTable.wf { entries := List.replicate 16 none, counter := n } :=
  wf_iff.2 ⟨by simp, h, fun k c hc => absurd ((claimAt_empty n k).symm.trans hc) (by simp),
    fun j k c d hc => absurd ((claimAt_empty n j).symm.trans hc) (by simp)⟩

/-- HUB_RESET empties the table, the call and the voices together; nothing that follows is more than a change beside them. -/
theorem keepsClaims_resetHub (s : State) : KeepsClaims s s.resetHub := by
  unfold State.resetHub
  dsimp only
  refine (kept_finishTransfers s).keeps.trans ?_
  generalize s.finishTransfers = u
  refine KeepsClaims.then ?_ ((kept_resetTuners _).trans (kept_restartTuners _))
  refine fun hw => ⟨ClaimTable.empty_wf (ClaimTable.wf_iff.1 hw).2.1, fun hf => ?_⟩
  refine claimsFollow_of_empty (ClaimTable.claimAt_empty _) ?_ rfl ?_
  · simpa [State.owners, Chime.cleared] using ((State.claimsFollow_iff u).1 hf).1
  · simp [State.owners, Chime.cleared, Voice.idled, Voice.busy]

end Sys2Proof.Machine
end

section
namespace Sys2Proof.Machine

/-! ### The orders -/

/-- An order that is refused, or that changes nothing. -/
theorem kept_answer (st : Status) (s : State) : ClaimsKept s (answer st s).2 := .refl s

/-- An order that is answered after what it does. -/
theorem ClaimsKept.answered {s t : State} (h : ClaimsKept s t) (st : Status) : ClaimsKept s (answer st t).2 := h

theorem KeepsClaims.answered {s t : State} (h : KeepsClaims s t) (st : Status) : KeepsClaims s (answer st t).2 := h

/-- Every answer of an order keeps the claims. -/
def BodyKeeps (body : List Byte → State → Reply × State) : Prop := ∀ b s, ClaimsKept s (body b s).2

theorem keepsClaims_setProgramBody : BodyKeeps setProgramBody := fun b s => by
  unfold setProgramBody
  repeat' split
  any_goals with_reducible exact kept_answer _ s
  exact .ite ((kept_withMix s _).trans (kept_discard _ _)) (kept_withMix s _)

theorem keepsClaims_setVolumeBody : BodyKeeps setVolumeBody := fun b s => by
  unfold setVolumeBody
  repeat' split
  all_goals exact .of_same rfl rfl

theorem keepsClaims_setTrimBody : BodyKeeps setTrimBody := fun b s => by
  unfold setTrimBody
  dsimp only
  repeat' split
  all_goals exact .of_same rfl rfl

theorem keepsClaims_setDelayBody : BodyKeeps setDelayBody := fun b s => by
  unfold setDelayBody
  dsimp only
  repeat' split
  all_goals exact .of_same rfl rfl

theorem keepsClaims_setSpeedCurveBody : BodyKeeps setSpeedCurveBody := fun b s => by
  unfold setSpeedCurveBody
  repeat' split
  all_goals exact .of_same rfl rfl

theorem keepsClaims_speedBody : BodyKeeps speedBody := fun _ _ => .of_same rfl rfl

theorem keepsClaims_muteBody (l : Link) (g : LinkSet → LinkSet) : BodyKeeps (muteBody l g) := fun b s => by
  unfold muteBody
  repeat' split
  all_goals exact .of_same rfl rfl

theorem keepsClaims_tuneABody : BodyKeeps tuneABody := fun b s => by
  unfold tuneABody
  repeat' split
  any_goals with_reducible exact kept_answer _ s
  exact kept_retuneA _ _ _

theorem keepsClaims_seekABody : BodyKeeps seekABody := fun b s => by
  unfold seekABody
  repeat' split
  any_goals with_reducible exact kept_answer _ s
  exact kept_seek _ _

theorem keepsClaims_presetStoreBody : BodyKeeps presetStoreBody := fun b s => by
  unfold presetStoreBody
  dsimp only
  repeat' split
  any_goals with_reducible exact kept_answer _ s
  all_goals exact (kept_withRadio _ _).trans (kept_reassess _)

theorem keepsClaims_presetRecallBody : BodyKeeps presetRecallBody := fun b s => by
  unfold presetRecallBody
  dsimp only
  repeat' split
  any_goals with_reducible exact kept_answer _ s
  exact kept_retuneA _ _ _

theorem keepsClaims_scanPolicyBody : BodyKeeps scanPolicyBody := fun b s => by
  unfold scanPolicyBody
  repeat' split
  any_goals with_reducible exact kept_answer _ s
  exact (kept_withRadio _ _).trans (kept_reassess _)

theorem keepsClaims_afPolicyBody : BodyKeeps afPolicyBody := fun b s => by
  unfold afPolicyBody
  dsimp only
  repeat' split
  all_goals exact .of_same rfl rfl

theorem keepsClaims_listReadBody : BodyKeeps listReadBody := fun b s => by
  unfold listReadBody
  dsimp only
  split <;> exact .refl s

theorem keepsClaims_trafficModeBody : BodyKeeps trafficModeBody := fun b s => by
  unfold trafficModeBody
  repeat' split
  any_goals with_reducible exact kept_answer _ s
  exact kept_setTraffic _ _ _

theorem keepsClaims_pauseBody : BodyKeeps pauseBody := fun b s => by
  unfold pauseBody
  repeat' split
  any_goals with_reducible exact kept_answer _ s
  · exact kept_pauseReplay _
  · exact kept_startCapture _ _ _ _ _

theorem keepsClaims_resumeBody : BodyKeeps resumeBody := fun b s => by
  unfold resumeBody
  split
  · exact kept_resumeReplay _
  · exact .refl s

theorem keepsClaims_goLiveBody : BodyKeeps goLiveBody := fun b s => by
  unfold goLiveBody
  split
  · exact kept_shiftOff _
  · exact .refl s

theorem keepsClaims_shiftPolicyBody : BodyKeeps shiftPolicyBody := fun b s => by
  unfold shiftPolicyBody
  repeat' split
  all_goals exact .of_same rfl rfl

theorem keepsClaims_callStateBody (b : List Byte) (s : State) : KeepsClaims s (callStateBody b s).2 := by
  unfold callStateBody
  split
  · exact (kept_answer _ s).keeps
  · split
    · exact (kept_answer _ s).keeps
    · exact ((keepsClaims_enterCall s _).then (ClaimsKept.ite (kept_wake _ _ _) (.refl _))).answered _

theorem keepsClaims_callPlaceBody : BodyKeeps callPlaceBody := fun b s => by
  unfold callPlaceBody
  repeat' split
  any_goals with_reducible exact kept_answer _ s
  exact kept_placeCall _ _

theorem keepsClaims_micSelectBody : BodyKeeps micSelectBody := fun b s => by
  unfold micSelectBody
  dsimp only
  repeat' split
  any_goals with_reducible exact kept_answer _ s
  all_goals exact (kept_withCall s _ (by rfl)).trans (kept_chooseMic _)

theorem keepsClaims_micMuteBody (g : LinkSet → LinkSet) : BodyKeeps (micMuteBody g) := fun _ s => kept_withCall s _ (by rfl)

theorem keepsClaims_callVolumeBody : BodyKeeps callVolumeBody := fun _ s => kept_withCall s _ (by rfl)

theorem keepsClaims_stationSourceBody (l : Link) : BodyKeeps (stationSourceBody l) := fun b s => by
  unfold stationSourceBody
  repeat' split
  any_goals with_reducible exact kept_answer _ s
  exact kept_setSource _ _ _

theorem keepsClaims_stationTuneBody (l : Link) : BodyKeeps (stationTuneBody l) := fun b s => by
  unfold stationTuneBody
  repeat' split
  any_goals with_reducible exact kept_answer _ s
  exact kept_lend _ _ _

theorem keepsClaims_stationVolumeBody (l : Link) : BodyKeeps (stationVolumeBody l) := fun b s => by
  unfold stationVolumeBody
  repeat' split
  any_goals with_reducible exact kept_answer _ s
  exact kept_setStation _ _ _

theorem keepsClaims_stationSwapBody (l : Link) : BodyKeeps (stationSwapBody l) := fun b s => by
  unfold stationSwapBody
  repeat' split
  any_goals with_reducible exact kept_answer _ s
  exact kept_setStation _ _ _

theorem keepsClaims_jackMeasureBody (l : Link) : BodyKeeps (jackMeasureBody l) := fun b s => by
  unfold jackMeasureBody
  repeat' split
  any_goals with_reducible exact kept_answer _ s
  exact kept_setStation _ _ _

theorem keepsClaims_stationCapBody : BodyKeeps stationCapBody := fun _ _ => .of_same rfl rfl

theorem keepsClaims_rearLockBody : BodyKeeps rearLockBody := fun b s => by
  unfold rearLockBody
  repeat' split
  all_goals exact .of_same rfl rfl

theorem keepsClaims_chimeDefineBody (l : Link) : BodyKeeps (chimeDefineBody l) := fun b s => by
  unfold chimeDefineBody
  dsimp only
  repeat' split
  all_goals exact .of_same rfl rfl

theorem keepsClaims_chimeStartBody (l : Link) (b : List Byte) (s : State) : KeepsClaims s (chimeStartBody l b s).2 := by
  unfold chimeStartBody
  dsimp only
  repeat' split
  any_goals with_reducible exact (kept_answer _ s).keeps
  exact (kept_wake _ _ _).keeps.trans (keepsClaims_requestChime _ _ _ _)

theorem keepsClaims_chimeStopBody : BodyKeeps chimeStopBody := fun b s => by
  unfold chimeStopBody
  dsimp only
  repeat' split
  any_goals with_reducible exact kept_answer _ s
  exact (kept_stopWhere _ _ _ _).answered _

theorem keepsClaims_chimeStopAllBody : BodyKeeps chimeStopAllBody := fun _ s =>
  (kept_stopWhere s _ _ _).answered _

theorem keepsClaims_chimeRenewBody : BodyKeeps chimeRenewBody := fun b s => by
  unfold chimeRenewBody
  dsimp only
  repeat' split
  any_goals with_reducible exact kept_answer _ s
  exact kept_renew _ _ _

theorem keepsClaims_chimeReadBody : BodyKeeps chimeReadBody := fun b s => by
  unfold chimeReadBody
  repeat' split
  all_goals exact .refl s

theorem keepsClaims_regionSetBody : BodyKeeps regionSetBody := fun b s => by
  unfold regionSetBody
  dsimp only
  repeat' split
  any_goals with_reducible exact kept_answer _ s
  exact kept_moveBounds _ _ _

theorem keepsClaims_rightsSetBody : BodyKeeps rightsSetBody := fun b s => by
  unfold rightsSetBody
  repeat' split
  all_goals exact .of_same rfl rfl

theorem keepsClaims_storeOpenBody (l : Link) : BodyKeeps (storeOpenBody l) := fun b s => by
  unfold storeOpenBody
  dsimp only
  repeat' split
  all_goals exact .of_same rfl rfl

theorem keepsClaims_storeDataBody (l : Link) (x : DataForm) (s : State) : ClaimsKept s (storeDataBody l x s).2 := by
  unfold storeDataBody
  have waits : ∀ ws n, ClaimsKept s (s.awaitWords l ws n).2 := fun _ _ => .ite (.refl s) (kept_setWaiting _ _ _)
  repeat' split
  any_goals with_reducible exact kept_answer _ s
  all_goals exact waits _ _

theorem keepsClaims_storeCloseBody (l : Link) : BodyKeeps (storeCloseBody l) := fun b s => by
  unfold storeCloseBody
  repeat' split
  all_goals exact .of_same rfl rfl

theorem keepsClaims_watchSetBody (l : Link) : BodyKeeps (watchSetBody l) := fun _ s => kept_setLink s l _

theorem keepsClaims_watchClearBody (l : Link) : BodyKeeps (watchClearBody l) := fun _ s => kept_setLink s l _

theorem keepsClaims_eventsReadBody (l : Link) : BodyKeeps (eventsReadBody l) := fun _ s => kept_setLink s l _

theorem keepsClaims_powerBody (b : List Byte) (s : State) : KeepsClaims s (powerBody b s).2 := by
  unfold powerBody
  repeat' split
  any_goals with_reducible exact (kept_answer _ s).keeps
  exact keepsClaims_moveTo _ _

theorem keepsClaims_wakeSetBody : BodyKeeps wakeSetBody := fun b s => by
  unfold wakeSetBody
  repeat' split
  all_goals exact .of_same rfl rfl

/-! ### The claim orders (R28 to R31) -/

theorem ClaimTable.freeGeneral_lt {t : ClaimTable} {h : Nat} (hf : t.freeGeneral = some h) : h < 10 :=
  List.mem_range.1 (List.mem_of_find?_eq_some hf)

theorem keepsClaims_claimBody (l : Link) : BodyKeeps (claimBody l) := fun b s => by
  unfold claimBody
  repeat' split
  any_goals with_reducible exact kept_answer _ s
  have general := ClaimTable.freeGeneral_lt ‹_›
  exact (kept_post s (general.trans (by decide)) (by exact general)).trans (kept_tableChanged _)

/-- A link's claim stands in a general entry (R19). -/
theorem ClaimTable.wf.general {t : ClaimTable} (ht : t.wf) {h : Nat} {c : Claim} {l : Link} (hc : t.claimAt h = some c)
    (hl : c.claimant = .link l) : h < 10 := by
  have fits := ((wf_iff.1 ht).2.2.1 h c hc).1
  rwa [hl] at fits

/-- A write of a link's own entry, which an invariant of the table makes a general one. -/
theorem kept_ownEntry {s : State} {h : Nat} {c : Claim} {l : Link} {x : Option Claim} (hc : s.claim h = some c)
    (hl : c.claimant = .link l) (hx : ∀ d, x = some d → d.claimant = c.claimant ∧ d.seq = c.seq) : ClaimsKept s (s.setClaim h x) where
  order ht := State.setClaim_wf ht fun d hd => by
    obtain ⟨same, number⟩ := hx d hd
    exact ht.allows_change hc (same ▸ ((ClaimTable.wf_iff.1 ht).2.2.1 h c hc).1) number
  held ht k hk := by
    have general := ht.general hc hl
    rw [s.setClaim_claim_of_ne x (by simp only [callHandle] at hk; omega)]
  owners := rfl

theorem keepsClaims_releaseBody (l : Link) : BodyKeeps (releaseBody l) := fun b s => by
  unfold releaseBody
  dsimp only
  repeat' split
  any_goals with_reducible exact kept_answer _ s
  exact (kept_ownEntry ‹_› ‹_› fun _ hd => by cases hd).trans (kept_tableChanged _)

theorem keepsClaims_amendBody (l : Link) : BodyKeeps (amendBody l) := fun b s => by
  unfold amendBody
  dsimp only
  repeat' split
  any_goals with_reducible exact kept_answer _ s
  refine (kept_ownEntry ‹_› (not_not.1 ‹_›) fun d hd => ?_).trans (kept_tableChanged _)
  cases hd
  exact ⟨rfl, rfl⟩

/-! ### Commands -/

theorem keepsClaims_order {α : Type} {l : Link} {f : Frame} {links : List Link} {ops : Option α} {body : α → State → Reply × State}
    {s t : State} (hb : ∀ b u, KeepsClaims u (body b u).2) (h : order l f links ops body s = .next t) : KeepsClaims s t := by
  obtain rfl := Host.Outcome.next.inj h
  have checks : ∀ u, KeepsClaims u (checked l links ops body u).2 := by
    intro u
    unfold checked
    repeat' split
    · exact (ClaimsKept.refl u).keeps
    · exact hb _ u
    · exact (ClaimsKept.refl u).keeps
  unfold takeOrder
  split
  · exact (kept_shiftOut s _ _ _).keeps
  · exact (kept_shiftOut s _ _ _).keeps.trans ((checks _).then ((kept_offerEdges _ _).trans (kept_setSlot _ _ _)))

theorem keepsClaims_order_of_kept {α : Type} {l : Link} {f : Frame} {links : List Link} {ops : Option α}
    {body : α → State → Reply × State} {s t : State} (hb : ∀ b u, ClaimsKept u (body b u).2)
    (h : order l f links ops body s = .next t) : KeepsClaims s t := keepsClaims_order (fun b u => (hb b u).keeps) h

theorem keepsClaims_event {f : State → State} {s t : State} (hf : ∀ u, KeepsClaims u (f u)) (h : event f s = .next t) :
    KeepsClaims s t := by
  obtain rfl := Host.Outcome.next.inj h
  exact (hf s).then (kept_offerEdges _ _)

theorem keepsClaims_event_of_kept {f : State → State} {s t : State} (hf : ∀ u, ClaimsKept u (f u)) (h : event f s = .next t) :
    KeepsClaims s t := keepsClaims_event (fun u => (hf u).keeps) h

theorem keepsClaims_tunerEvent {f : State → State} {s t : State} (hf : ∀ u, ClaimsKept u (f u)) (h : tunerEvent f s = .next t) :
    KeepsClaims s t := keepsClaims_event_of_kept (fun u => (hf u).trans (kept_reassess _)) h

theorem keepsClaims_nullFrame {p : SelectPeriod} {s t : State} (h : execNullFrame p s = .next t) : KeepsClaims s t := by
  unfold execNullFrame at h
  split at h <;> obtain rfl := Host.Outcome.next.inj h <;> exact (kept_shiftOut s _ _ _).keeps

theorem keepsClaims_wait {p : SelectPeriod} {s t : State} (h : execWait p s = .next t) : KeepsClaims s t := by
  unfold execWait at h
  split at h <;> obtain rfl := Host.Outcome.next.inj h
  · exact (ClaimsKept.refl s).keeps
  · exact (kept_shiftOut s _ _ _).keeps

theorem keepsClaims_unknownOrder {l : Link} {c : Byte} {f : Frame} {s t : State} (h : execUnknownOrder l c f s = .next t) :
    KeepsClaims s t := by
  obtain rfl := Host.Outcome.next.inj h
  unfold takeOrder
  split
  · exact (kept_shiftOut s _ _ _).keeps
  · dsimp only
    rw [unknownBody_state]
    exact ((kept_shiftOut s _ _ _).trans ((kept_offerEdges _ _).trans (kept_setSlot _ _ _))).keeps

theorem keepsClaims_statusRead {l : Link} {f : Frame} {s t : State} (h : execStatusRead l f s = .next t) : KeepsClaims s t :=
  keepsClaims_order_of_kept (fun b u => by rw [statusReadBody_state]; exact .refl u) h

theorem keepsClaims_tunerMeasurement {x : TunerId} {m : Meas} {s t : State} (h : execTunerMeasurement x m s = .next t) :
    KeepsClaims s t := by
  cases x
  · exact keepsClaims_tunerEvent (fun u => kept_measuredA u m) h
  · exact keepsClaims_tunerEvent (fun u => kept_measuredB u m) h

theorem keepsClaims_settleEnd {x : TunerId} {m : Meas} {s t : State} (h : execSettleEnd x m s = .next t) : KeepsClaims s t := by
  cases x
  · exact keepsClaims_tunerEvent (fun u => kept_settledA u m) h
  · exact keepsClaims_tunerEvent (fun u => kept_settledB u m) h

theorem keepsClaims_dataGroup {x : TunerId} {g : DataGroup} {s t : State} (h : execDataGroup x g s = .next t) :
    KeepsClaims s t := by
  cases x
  · exact keepsClaims_tunerEvent (fun u => kept_groupA u g) h
  · exact keepsClaims_tunerEvent (fun u => kept_groupB u g) h

/-- At power-on the table is empty, the call IDLE and every voice too. -/
theorem keepsClaims_powerOn (ignition jack1 jack2 : Bool) (s : State) (cs : List Instr) :
    KeepsClaims s ((State.powerOn ignition jack1 jack2).withPending cs) := fun _ =>
  ⟨ClaimTable.empty_wf (Nat.zero_le _), fun _ => claimsFollow_of_empty (ClaimTable.claimAt_empty _) rfl rfl
    (by simp [State.owners, State.powerOn, Chime.fresh, Voice.fresh, Voice.busy])⟩

/-- The orders' own bodies and the events' own steps, put together: one arm for each command. -/
theorem keepsClaims_exec (c : Instr) {s t : State} (h : exec c s = .next t) : KeepsClaims s t := by
  cases c with
  | claim l f => exact keepsClaims_order_of_kept (keepsClaims_claimBody l) h
  | release l f => exact keepsClaims_order_of_kept (keepsClaims_releaseBody l) h
  | amend l f => exact keepsClaims_order_of_kept (keepsClaims_amendBody l) h
  | setProgram l f => exact keepsClaims_order_of_kept keepsClaims_setProgramBody h
  | setVolume l f => exact keepsClaims_order_of_kept keepsClaims_setVolumeBody h
  | setTrim l f => exact keepsClaims_order_of_kept keepsClaims_setTrimBody h
  | setDelay l f => exact keepsClaims_order_of_kept keepsClaims_setDelayBody h
  | setSpeedCurve l f => exact keepsClaims_order_of_kept keepsClaims_setSpeedCurveBody h
  | speed l f => exact keepsClaims_order_of_kept keepsClaims_speedBody h
  | muteSet l f => exact keepsClaims_order_of_kept (keepsClaims_muteBody l _) h
  | muteClear l f => exact keepsClaims_order_of_kept (keepsClaims_muteBody l _) h
  | tuneA l f => exact keepsClaims_order_of_kept keepsClaims_tuneABody h
  | seekA l f => exact keepsClaims_order_of_kept keepsClaims_seekABody h
  | presetStore l f => exact keepsClaims_order_of_kept keepsClaims_presetStoreBody h
  | presetRecall l f => exact keepsClaims_order_of_kept keepsClaims_presetRecallBody h
  | scanPolicy l f => exact keepsClaims_order_of_kept keepsClaims_scanPolicyBody h
  | afPolicy l f => exact keepsClaims_order_of_kept keepsClaims_afPolicyBody h
  | listRead l f => exact keepsClaims_order_of_kept keepsClaims_listReadBody h
  | trafficMode l f => exact keepsClaims_order_of_kept keepsClaims_trafficModeBody h
  | pause l f => exact keepsClaims_order_of_kept keepsClaims_pauseBody h
  | resume l f => exact keepsClaims_order_of_kept keepsClaims_resumeBody h
  | goLive l f => exact keepsClaims_order_of_kept keepsClaims_goLiveBody h
  | shiftPolicy l f => exact keepsClaims_order_of_kept keepsClaims_shiftPolicyBody h
  | callState l f => exact keepsClaims_order keepsClaims_callStateBody h
  | callPlace l f => exact keepsClaims_order_of_kept keepsClaims_callPlaceBody h
  | micSelect l f => exact keepsClaims_order_of_kept keepsClaims_micSelectBody h
  | micMuteSet l f => exact keepsClaims_order_of_kept (keepsClaims_micMuteBody _) h
  | micMuteClear l f => exact keepsClaims_order_of_kept (keepsClaims_micMuteBody _) h
  | callVolume l f => exact keepsClaims_order_of_kept keepsClaims_callVolumeBody h
  | stationSource l f => exact keepsClaims_order_of_kept (keepsClaims_stationSourceBody l) h
  | stationTune l f => exact keepsClaims_order_of_kept (keepsClaims_stationTuneBody l) h
  | stationVolume l f => exact keepsClaims_order_of_kept (keepsClaims_stationVolumeBody l) h
  | stationSwap l f => exact keepsClaims_order_of_kept (keepsClaims_stationSwapBody l) h
  | jackMeasure l f => exact keepsClaims_order_of_kept (keepsClaims_jackMeasureBody l) h
  | stationCap l f => exact keepsClaims_order_of_kept keepsClaims_stationCapBody h
  | rearLock l f => exact keepsClaims_order_of_kept keepsClaims_rearLockBody h
  | chimeDefine l f => exact keepsClaims_order_of_kept (keepsClaims_chimeDefineBody l) h
  | chimeStart l f => exact keepsClaims_order (keepsClaims_chimeStartBody l) h
  | chimeStop l f => exact keepsClaims_order_of_kept keepsClaims_chimeStopBody h
  | chimeRenew l f => exact keepsClaims_order_of_kept keepsClaims_chimeRenewBody h
  | chimeStopAll l f => exact keepsClaims_order_of_kept keepsClaims_chimeStopAllBody h
  | chimeRead l f => exact keepsClaims_order_of_kept keepsClaims_chimeReadBody h
  | storeOpen l f => exact keepsClaims_order_of_kept (keepsClaims_storeOpenBody l) h
  | storeData l f => exact keepsClaims_order_of_kept (keepsClaims_storeDataBody l) h
  | storeClose l f => exact keepsClaims_order_of_kept (keepsClaims_storeCloseBody l) h
  | regionSet l f => exact keepsClaims_order_of_kept keepsClaims_regionSetBody h
  | rightsSet l f => exact keepsClaims_order_of_kept keepsClaims_rightsSetBody h
  | watchSet l f => exact keepsClaims_order_of_kept (keepsClaims_watchSetBody l) h
  | watchClear l f => exact keepsClaims_order_of_kept (keepsClaims_watchClearBody l) h
  | eventsRead l f => exact keepsClaims_order_of_kept (keepsClaims_eventsReadBody l) h
  | statusRead l f => exact keepsClaims_statusRead h
  | power l f => exact keepsClaims_order keepsClaims_powerBody h
  | wakeSet l f => exact keepsClaims_order_of_kept keepsClaims_wakeSetBody h
  | linkReset l f => exact keepsClaims_order (fun _ u => (keepsClaims_resetLink u l).answered _) h
  | hubReset l f => exact keepsClaims_order (fun _ u => (keepsClaims_resetHub u).answered _) h
  | unknownOrder l code f => exact keepsClaims_unknownOrder (c := code) h
  | nullFrame p => exact keepsClaims_nullFrame h
  | wait p => exact keepsClaims_wait h
  | replyReady l => exact Host.Outcome.next.inj h ▸ (kept_replyReady s l).keeps
  | powerOn ignition jack1 jack2 => exact Host.Outcome.next.inj h ▸ keepsClaims_powerOn ignition jack1 jack2 s _
  | storeReady => exact keepsClaims_event_of_kept kept_filled h
  | ignitionRise => exact keepsClaims_event_of_kept kept_ignitionRose h
  | refreshTimerExpiry => exact keepsClaims_event_of_kept kept_refreshDue h
  | frameEvent x => exact keepsClaims_event (fun u => keepsClaims_frameEvent u x) h
  | frameSync gap set => exact keepsClaims_event_of_kept (fun u => kept_takeSync u gap set) h
  | overdueSlip p => exact keepsClaims_event_of_kept (fun u => kept_takeOverdue u p) h
  | acquireGiveUp p => exact keepsClaims_event_of_kept (fun u => kept_takeGiveUp u p) h
  | holdoverTimeout p => exact keepsClaims_event_of_kept (fun u => kept_takeHoldoverTimeout u p) h
  | clipGuardRelease sink => exact keepsClaims_event_of_kept (fun u => kept_releaseGuard u sink.val) h
  | delayFadeOutEnd sink => exact keepsClaims_event_of_kept (fun u => kept_fadeOutEnd u sink.val) h
  | delayFadeInEnd sink => exact keepsClaims_event_of_kept (fun u => kept_fadeInEnd u sink.val) h
  | speedStale => exact keepsClaims_event_of_kept kept_speedGrowsStale h
  | tunerMeasurement x m => exact keepsClaims_tunerMeasurement h
  | settleEnd x m => exact keepsClaims_settleEnd h
  | seekChannelEnd m => exact keepsClaims_tunerEvent (fun u => kept_seekChannelEnd u m) h
  | afPrefadeEnd => exact keepsClaims_tunerEvent kept_prefadeEnd h
  | afCheckMeasurement m => exact keepsClaims_tunerEvent (fun u => kept_checkMeasured u m) h
  | afGapEnd => exact keepsClaims_tunerEvent kept_gapEnded h
  | afVerifyTimeout => exact keepsClaims_tunerEvent kept_verifyTimedOut h
  | dataGroup x g => exact keepsClaims_dataGroup h
  | dataTimeout x => exact keepsClaims_tunerEvent (fun u => kept_dataLapsed u x) h
  | sweepChannelEnd m => exact keepsClaims_tunerEvent (fun u => kept_sweepChannelEnd u m) h
  | rejectionTick => exact keepsClaims_event_of_kept kept_countRejections h
  | aEligibleExpiry => exact keepsClaims_event_of_kept kept_eligibleExpired h
  | replayDrained => exact keepsClaims_event_of_kept kept_replayDrained h
  | memoReplayEnd => exact keepsClaims_event_of_kept kept_memoReplayEnded h
  | windowJudged => exact keepsClaims_event_of_kept kept_windowJudged h
  | jackInsertion st => exact keepsClaims_event_of_kept (fun u => kept_inserted u st) h
  | jackRemoval st => exact keepsClaims_event_of_kept (fun u => kept_removed u st) h
  | measurementComplete st load1 load2 mic => exact keepsClaims_event_of_kept (fun u => kept_measured u st load1 load2 mic) h
  | graceExpiry st => exact keepsClaims_event_of_kept (fun u => kept_graceExpired u st) h
  | voicePlayEnd v => exact keepsClaims_event_of_kept (fun u => kept_playEnded u v) h
  | gapEnd v => exact keepsClaims_event_of_kept (fun u => kept_gapOver u v) h
  | deadlineExpiry v => exact keepsClaims_event_of_kept (fun u => kept_deadlinePassed u v) h
  | voiceIdle v => exact keepsClaims_event (fun u => keepsClaims_reachIdle u v) h

theorem kept_withPending (s : State) (cs : List Instr) : ClaimsKept s (s.withPending cs) := .of_same rfl rfl

theorem step_keepsClaims {s t : State} (h : step s = .next t) : KeepsClaims s t := by
  unfold step at h
  split at h
  · obtain rfl := Host.Outcome.next.inj h
    exact (kept_reach s _).keeps
  · exact (kept_withPending s _).keeps.trans (keepsClaims_exec _ h)

/-- Settles O9: posting takes a number above every other, renumbering keeps the order of those there are, and every other
change of an entry leaves its claimant and number. -/
theorem stepKeepsClaimTable : Obligations.StepKeepsClaimTable := by
  unfold Obligations.StepKeepsClaimTable
  exact fun s t hw h => (step_keepsClaims h hw).1

/-- Settles O10: the call and the voices leave and enter IDLE together with the posting and removal of their claims, and no
other change of the table reaches those entries. -/
theorem stepKeepsInternalClaims : Obligations.StepKeepsInternalClaims := by
  unfold Obligations.StepKeepsInternalClaims
  exact fun s t hw hf h => (step_keepsClaims h hw).2 hf

end Sys2Proof.Machine
end

section
namespace Sys2Proof.Machine

/-! ### The arbiter (R23, R24) -/

theorem Tier.rank_inj {a b : Tier} (h : a.rank = b.rank) : a = b := by
  cases a <;> cases b <;> simp [Tier.rank] at h ⊢

/-- Not to be outranked: a lower tier, or the same one and no newer number. -/
theorem Claim.not_outranks_iff (a b : Claim) :
    a.outranks b = false ↔ a.tier.rank < b.tier.rank ∨ (a.tier = b.tier ∧ a.seq ≤ b.seq) := by
  have same : a.tier = b.tier ↔ a.tier.rank = b.tier.rank := ⟨congrArg _, Tier.rank_inj⟩
  simp only [Claim.outranks, Bool.or_eq_false_iff, Bool.and_eq_false_iff, decide_eq_false_iff_not, beq_eq_false_iff_ne, same]
  omega

/-- The claim chosen is one of the list and outranked by none of it. -/
def IsTop (x : Nat × Claim) (cs : List (Nat × Claim)) : Prop := x ∈ cs ∧ ∀ y ∈ cs, y.2.outranks x.2 = false

theorem Claim.outranks_irrefl (a : Claim) : a.outranks a = false := (a.not_outranks_iff a).2 (.inr ⟨rfl, le_rfl⟩)

theorem Claim.not_outranks_trans {a b c : Claim} (h : a.outranks b = false) (k : b.outranks c = false) : a.outranks c = false := by
  rw [Claim.not_outranks_iff] at *
  rcases h with h | ⟨h, h'⟩ <;> rcases k with k | ⟨k, k'⟩
  · exact .inl (h.trans k)
  · exact .inl (k ▸ h)
  · exact .inl (h ▸ k)
  · exact .inr ⟨h.trans k, h'.trans k'⟩

theorem Claim.not_outranks_of_outranks {a b : Claim} (h : a.outranks b = true) : b.outranks a = false := by
  simp only [Claim.outranks, Bool.or_eq_true, Bool.and_eq_true, decide_eq_true_eq, beq_iff_eq, Bool.or_eq_false_iff,
    Bool.and_eq_false_iff, decide_eq_false_iff_not, beq_eq_false_iff_ne] at h ⊢
  omega

theorem topClaim_cons (b : Nat × Claim) (cs : List (Nat × Claim)) : ∃ x, topClaim (b :: cs) = some x ∧ IsTop x (b :: cs) := by
  show ∃ x, cs.foldl _ (some b) = some x ∧ _
  induction cs generalizing b with
  | nil => exact ⟨b, rfl, by simp [IsTop, Claim.outranks_irrefl]⟩
  | cons c cs ih =>
    simp only [List.foldl_cons]
    by_cases h : c.2.outranks b.2 = true
    · obtain ⟨x, hx, hm, ht⟩ := ih c
      refine ⟨x, by simpa [h] using hx, .tail _ hm, fun y hy => ?_⟩
      obtain rfl | hy := List.mem_cons.1 hy
      · exact Claim.not_outranks_trans (Claim.not_outranks_of_outranks h) (ht c (.head _))
      · exact ht y hy
    · obtain ⟨x, hx, hm, ht⟩ := ih b
      have hf : c.2.outranks b.2 = false := by simpa using h
      refine ⟨x, by simpa [hf] using hx, ?_, fun y hy => ?_⟩
      · obtain rfl | hm := List.mem_cons.1 hm
        · exact .head _
        · exact .tail _ (.tail _ hm)
      · obtain rfl | hy := List.mem_cons.1 hy
        · exact ht _ (.head _)
        · obtain rfl | hy := List.mem_cons.1 hy
          · exact Claim.not_outranks_trans hf (ht b (.head _))
          · exact ht y (.tail _ hy)

theorem topClaim_eq_none {cs : List (Nat × Claim)} : topClaim cs = none ↔ cs = [] := by
  cases cs with
  | nil => simp [topClaim]
  | cons b cs =>
    obtain ⟨x, hx, -⟩ := topClaim_cons b cs
    simp [hx]

theorem topClaim_isTop {cs : List (Nat × Claim)} {x : Nat × Claim} (h : topClaim cs = some x) : IsTop x cs := by
  cases cs with
  | nil => simp [topClaim] at h
  | cons b cs =>
    obtain ⟨y, hy, top⟩ := topClaim_cons b cs
    obtain rfl := Option.some.inj (hy.symm.trans h)
    exact top

theorem ClaimTable.mem_exclusives {t : ClaimTable} {z : Zone} {h : Nat} {c : Claim} :
    (h, c) ∈ t.exclusives z ↔ t.claimAt h = some c ∧ c.kind = .exclusive ∧ hasZone c.zones z = true := by
  simp [ClaimTable.exclusives, mem_held, Claim.covers]

theorem ClaimTable.mem_overlays {t : ClaimTable} {z : Zone} {h : Nat} {c : Claim} :
    (h, c) ∈ t.overlays z ↔ t.claimAt h = some c ∧ c.kind = .overlay ∧ hasZone c.zones z = true := by
  simp [ClaimTable.overlays, mem_held, Claim.covers]

theorem ClaimTable.base_eq_none {t : ClaimTable} {z : Zone} :
    t.base z = none ↔ ∀ h c, t.claimAt h = some c → ¬(c.kind = .exclusive ∧ hasZone c.zones z = true) := by
  rw [ClaimTable.base, topClaim_eq_none, List.eq_nil_iff_forall_not_mem]
  refine ⟨fun hn h c hc hx => hn (h, c) (mem_exclusives.2 ⟨hc, hx⟩), fun hn x hx => ?_⟩
  obtain ⟨hc, hx⟩ := mem_exclusives.1 hx
  exact hn _ _ hc hx

/-- What the base of a zone is: an EXCLUSIVE claim that covers it and is outranked by none (R23). -/
theorem ClaimTable.base_eq_some {t : ClaimTable} {z : Zone} {h : Nat} {c : Claim} (hb : t.base z = some (h, c)) :
    t.claimAt h = some c ∧ c.kind = .exclusive ∧ hasZone c.zones z = true
      ∧ ∀ k d, t.claimAt k = some d → d.kind = .exclusive → hasZone d.zones z = true → d.outranks c = false := by
  obtain ⟨hm, top⟩ := topClaim_isTop hb
  obtain ⟨hc, hk, hz⟩ := mem_exclusives.1 hm
  exact ⟨hc, hk, hz, fun k d hd hk hz => top (k, d) (mem_exclusives.2 ⟨hd, hk, hz⟩)⟩

theorem ClaimTable.mem_mixed {t : ClaimTable} {z : Zone} {h : Nat} {c : Claim} : (h, c) ∈ t.mixed z ↔
    t.claimAt h = some c ∧ c.kind = .overlay ∧ hasZone c.zones z = true ∧ t.baseRank z ≤ c.tier.rank := by
  simp [ClaimTable.mixed, mem_overlays, and_assoc]

theorem ClaimTable.mem_suppressed {t : ClaimTable} {z : Zone} {h : Nat} {c : Claim} : (h, c) ∈ t.suppressed z ↔
    t.claimAt h = some c ∧ c.kind = .overlay ∧ hasZone c.zones z = true ∧ c.tier.rank < t.baseRank z := by
  simp [ClaimTable.suppressed, mem_overlays, and_assoc]

/-! ### What a zone plays (R41) -/

theorem State.playing_of_capture {s : State} (hp : s.shift.purpose = some .pause) (hs : s.shift.state = .capture) :
    s.playing = .silence := by simp only [State.playing, hp, hs]

theorem State.playing_of_replay {s : State} (hp : s.shift.purpose = some .pause) (hs : s.shift.state = .replay) :
    s.playing = .shift := by simp only [State.playing, hp, hs]

theorem State.playing_of_program {s : State}
    (h : ¬(s.shift.purpose = some .pause ∧ (s.shift.state = .capture ∨ s.shift.state = .replay))) :
    s.playing = s.mix.selected := by
  unfold State.playing
  split
  · exact absurd ⟨‹_›, .inl ‹_›⟩ h
  · exact absurd ⟨‹_›, .inr ‹_›⟩ h
  · rfl

theorem State.wantedBase_of_none {s : State} {z : Zone} (h : s.table.base z = none) :
    s.wantedBase z = ⟨.program, s.programSource z, none, .medium⟩ := by simp only [State.wantedBase, h]

theorem State.wantedBase_of_some {s : State} {z : Zone} {h : Nat} {c : Claim} (hb : s.table.base z = some (h, c)) :
    s.wantedBase z = ⟨.handle h, c.source, some .exclusive, c.ramp⟩ := by
  simp only [State.wantedBase, hb, Claim.wanted, (ClaimTable.base_eq_some hb).2.1]

theorem ClaimTable.baseRank_of_none {t : ClaimTable} {z : Zone} (h : t.base z = none) : t.baseRank z = 0 := by
  simp only [ClaimTable.baseRank, h]

theorem ClaimTable.baseRank_of_some {t : ClaimTable} {z : Zone} {h : Nat} {c : Claim} (hb : t.base z = some (h, c)) :
    t.baseRank z = c.tier.rank := by simp only [ClaimTable.baseRank, hb]

/-- Settles O16: the base is the fold of the covering EXCLUSIVE claims by an order that tier and number give; the rest are the
definitions read by membership. -/
theorem resolution : Obligations.Resolution := by
  unfold Obligations.Resolution
  rintro s t z rfl
  refine ⟨⟨State.playing_of_capture, State.playing_of_replay, State.playing_of_program⟩, ?_, ?_, fun h c hb => ?_,
    ClaimTable.baseRank_of_none, fun _ _ => ClaimTable.baseRank_of_some, fun h c => ?_⟩
  · simpa only [ClaimTable.claimAt_eq_some] using ClaimTable.base_eq_none (t := s.table) (z := z)
  · exact fun hn => (State.wantedBase_of_none hn).trans (by cases z <;> rfl)
  · obtain ⟨hc, exclusive, covers, top⟩ := ClaimTable.base_eq_some hb
    refine ⟨State.wantedBase_of_some hb, ClaimTable.claimAt_eq_some.1 hc, exclusive, covers, fun k d hd hk hz => ?_⟩
    exact (d.not_outranks_iff c).1 (top k d (ClaimTable.claimAt_eq_some.2 hd) hk hz)
  · simp only [← ClaimTable.claimAt_eq_some]
    exact ⟨ClaimTable.mem_mixed, ClaimTable.mem_suppressed⟩

end Sys2Proof.Machine
end

section
namespace Sys2Proof.Machine

/-! ### What a change of the Claim Table brings (R26, R100, R109, R110) -/

theorem State.tableChanged_of_memoCapture {s : State} (h : s.shift.state = .memoCapture) :
    s.tableChanged = if s.traffic.announcing && s.radioIsBase then s.replayMemo else s := by
  simp only [State.tableChanged, h]

/-- A held memo replayed: its claim is posted afresh. -/
def State.replayHeld (s : State) : State :=
  let t := (s.withShift { s.shift with state := .memoReplay, running := false }).post radioHandle (radioClaim .shift)
  (t.withTraffic { t.traffic with retained := none }).postReplay

theorem State.tableChanged_of_memoHeld {s : State} {q : Nat} (h : s.shift.state = .memoHeld) (hq : s.traffic.retained = some q) :
    s.tableChanged = if s.table.wouldBeBase q then s.replayHeld else s := by
  simp only [State.tableChanged, h, hq]
  rfl

theorem State.tableChanged_of_none {s : State} (h : s.shift.state = .memoHeld) (hq : s.traffic.retained = none) :
    s.tableChanged = s := by simp only [State.tableChanged, h, hq]

theorem State.tableChanged_of_memoReplay {s : State} (h : s.shift.state = .memoReplay) : s.tableChanged = s := by
  simp only [State.tableChanged, h]

/-- No memo is captured, held or replayed. -/
def State.memoless (s : State) : Prop := s.shift.state = .off ∨ s.shift.state = .capture ∨ s.shift.state = .replay

theorem State.tableChanged_of_memoless {s : State} (h : s.memoless) :
    s.tableChanged = match s.unheard with | some v => s.considerMemo v | none => s := by
  rcases h with h | h | h <;> simp only [State.tableChanged, h] <;> rfl

theorem State.considerMemo_table (s : State) (v : TunerId) : (s.considerMemo v).table = s.table :=
  (happens_considerMemo s v).blocks.2 .table (by decide)

theorem State.replayMemo_claim_of_ne (s : State) {k : Nat} (hk : k ≠ radioHandle) : s.replayMemo.claim k = s.claim k :=
  State.setClaim_claim_of_ne _ _ hk

theorem State.changeClaim_claim {s : State} {h : Nat} {c : Claim} (f : Claim → Claim) (hc : s.claim h = some c) :
    (s.changeClaim h f).claim h = some (f c) := by
  rw [State.changeClaim, s.setClaim_claim h h _ (ClaimTable.claimAt_lt hc), if_pos rfl, hc]
  rfl

theorem State.post_claim_of_lt {s : State} {h k : Nat} (c : Claim) (hs : s.table.counter < seqMax) (hk : k ≠ h) :
    (s.post h c).claim k = s.claim k := by
  unfold State.post
  rw [State.readyToPost_of_lt hs]
  exact State.setClaim_claim_of_ne s _ hk

/-- Of the other entries only the RADIO claim's changes, where no renumbering comes in between (R26). -/
theorem State.tableChanged_claim {s : State} {k : Nat} (hk : k ≠ radioHandle)
    (hs : s.table.counter < seqMax ∨ s.shift.state ≠ .memoHeld) : s.tableChanged.claim k = s.claim k := by
  have quiet : s.memoless → s.tableChanged.claim k = s.claim k := fun h => by
    rw [State.tableChanged_of_memoless h]
    split
    · rw [State.claim, State.considerMemo_table]; rfl
    · rfl
  cases h : s.shift.state with
  | off => exact quiet (.inl h)
  | capture => exact quiet (.inr (.inl h))
  | replay => exact quiet (.inr (.inr h))
  | memoCapture =>
    rw [State.tableChanged_of_memoCapture h]
    split
    · exact s.replayMemo_claim_of_ne hk
    · rfl
  | memoReplay => rw [State.tableChanged_of_memoReplay h]
  | memoHeld =>
    cases hq : s.traffic.retained with
    | none => rw [State.tableChanged_of_none h hq]
    | some q =>
      rw [State.tableChanged_of_memoHeld h hq]
      split
      · exact State.post_claim_of_lt (s := s.withShift _) _ (hs.resolve_right (not_not.2 h)) hk
      · rfl

/-- Who is unheard: the tuner of an announcement whose outcome is NONE and whose claim, on a tuner, is the base of no sink. -/
theorem State.unheard_eq {s : State} {v : TunerId} {d : Claim} (hv : s.traffic.source = .tuner v) (hd : s.claim radioHandle = some d)
    (ha : s.traffic.announcing = true) (ho : s.traffic.outcome = some .none) (hx : d.source ≠ .shift) :
    s.unheard = if s.table.basedZones radioHandle = 0 then some v else none := by
  by_cases hb : s.table.basedZones radioHandle = 0 <;> simp [State.unheard, State.radioIsBase, hv, hd, ha, ho, hx, hb]

/-! ### The state after an order -/

/-- `t` is `u` with its edges offered and its answer waiting: the claims, the Traffic and Shift Unit and the advisories are those of
`u`, and no member has left a latch. -/
structure Closes (u t : State) : Prop where
  table : t.table = u.table
  traffic : t.traffic = u.traffic
  shift : t.shift = u.shift
  advisories : ∀ k, (t.link k).advisories = (u.link k).advisories
  latched : ∀ k c, (u.link k).riseLatch.getLsbD c = true → (t.link k).riseLatch.getLsbD c = true

theorem Closes.claim {u t : State} (h : Closes u t) (k : Nat) : t.claim k = u.claim k := by rw [State.claim, h.table]; rfl

theorem closes_offered (s u : State) (l : Link) (x : Slot) : Closes u ((State.offerEdges s u).setSlot l x) := by
  have stands := (happens_offerEdges s u).blocks.2
  refine ⟨stands .table (by decide), stands .traffic (by decide), stands .shift (by decide), fun k => ?_, fun k c hc => ?_⟩
  · rw [State.setSlot_link, State.offerEdges_link, State.offerEdges_link]
    split
    · next hk => rw [hk]; rfl
    · rfl
  · have offered : ∀ (y : LinkState) (p : BitVec 16), y.riseLatch.getLsbD c = true →
        (y.riseLatch ||| (p &&& y.riseEnable)).getLsbD c = true := fun y p hy => by simp [hy]
    rw [State.setSlot_link, State.offerEdges_link, State.offerEdges_link]
    split
    · next hk => exact offered _ _ (hk ▸ hc)
    · exact offered _ _ hc

/-- An order that passes the Link Block's checks and stays within `bs`, with what its closing leaves of its work. -/
theorem order_closes {α : Type} {l : Link} {f : Frame} {links : List Link} {ops : Option α} {body : α → State → Reply × State}
    {s u : State} {b : α} {r a : Reply} {bs : List Block} (hr : s.holds l r) (ho : ops = some b) (hl : links.contains l = true)
    (hb : body b (s.shiftOut l (clocked f) r) = (a, u)) (hu : Happens bs (s.shiftOut l (clocked f) r) u) :
    ∃ t, order l f links ops body s = .next t ∧ Taken l f r a bs s t ∧ Closes u t := by
  have next := order_next (f := f) (body := body) hr ho hl
  rw [hb] at next
  exact ⟨_, next, taken_of_happens hu, closes_offered _ _ _ _⟩

/-! ### A memo considered (R100) -/

section
variable {s : State} {v : TunerId} (memo : s.traffic.memo = true)
include memo

theorem State.considerMemo_of_room (off : s.shift.state = .off) (room : s.store.shiftSize ≠ 0) : s.considerMemo v =
    (s.withTraffic { s.traffic with outcome := some .captured }).startCapture .memoCapture .memo none v := by
  simp [State.considerMemo, memo, off, room]

theorem State.considerMemo_of_noRegion (off : s.shift.state = .off) (full : s.store.shiftSize = 0) : s.considerMemo v =
    (s.withTraffic { s.traffic with outcome := some .missed }).advise .cockpit (.taMissed .noRegion (.tuner v)) := by
  simp [State.considerMemo, memo, off, full]

theorem State.considerMemo_of_busy (busy : s.shift.state = .capture ∨ s.shift.state = .replay) : s.considerMemo v =
    (s.withTraffic { s.traffic with outcome := some .missed }).advise .cockpit (.taMissed .busy (.tuner v)) := by
  rcases busy with busy | busy <;> simp [State.considerMemo, memo, busy]

end

theorem State.riseAll_latched (s : State) {k : Link} (h : (s.link k).riseEnable.getLsbD 3 = true) :
    ((s.riseAll 3).link k).riseLatch.getLsbD 3 = true := by
  simp [State.riseAll, LinkState.offer, conditionBit, h]

/-- The consideration, told of a state `s` that differs beside the Shift Buffer and the store alone. -/
theorem memoConsidered_of_closes {s u t : State} {v : TunerId} (hshift : u.shift = s.shift) (hstore : u.store = s.store)
    (henable : ∀ k, (u.link k).riseEnable = (s.link k).riseEnable)
    (hadv : (u.link .cockpit).advisories = (s.link .cockpit).advisories)
    (memo : u.traffic.memo = true) (ht : Closes (u.considerMemo v) t) : MemoConsidered v s t := by
  have told : ∀ a, u.considerMemo v = (u.withTraffic { u.traffic with outcome := some .missed }).advise .cockpit a →
      t.traffic.outcome = some .missed ∧ t.shift = s.shift
        ∧ (t.link .cockpit).advisories = joinAdvisory (s.link .cockpit).advisories a := fun a ha => by
    rw [ht.traffic, ht.shift, ht.advisories, ha, State.advise_advisories, if_pos rfl, ← hadv, ← hshift]
    exact ⟨rfl, rfl, rfl⟩
  refine ⟨fun off room => ?_, fun off full => told _ (State.considerMemo_of_noRegion memo (hshift ▸ off) (hstore ▸ full)),
    fun busy => told _ (State.considerMemo_of_busy memo (hshift ▸ busy))⟩
  have captured := State.considerMemo_of_room (v := v) memo (hshift ▸ off) (hstore ▸ room)
  refine ⟨?_, fun k hk => ht.latched k 3 ?_, ?_⟩
  · rw [ht.traffic, captured]
    rfl
  · rw [captured]
    exact State.riseAll_latched (State.withShift _ _) (henable k ▸ hk)
  · rw [ht.shift, captured, ← hstore]
    rfl

/-! ### CLAIM (R28, R29) -/

theorem ClaimTable.freeGeneral_eq {t : ClaimTable} {h : Nat} (hh : h < 10) (free : t.claimAt h = none)
    (taken : ∀ k, k < h → (t.claimAt k).isSome) : t.freeGeneral = some h := by
  rw [ClaimTable.freeGeneral, List.find?_range_eq_some]
  refine ⟨by simpa [ClaimTable.claimAt] using free, List.mem_range.2 hh, fun k hk => ?_⟩
  have := taken k hk
  rw [ClaimTable.claimAt] at this
  simpa [Option.isSome_iff_ne_none] using this

/-- The number that a claim brings to its posting is written over. -/
theorem State.post_reseq (s : State) (h n : Nat) (c : Claim) : s.post h { c with seq := n } = s.post h c := rfl

theorem State.renumber_shiftOut (s : State) (l : Link) (n : Nat) (r : Reply) :
    (s.shiftOut l n r).renumber = s.renumber.shiftOut l n r := rfl

/-- Posting neither reads nor writes a link. -/
theorem State.post_shiftOut (s : State) (l : Link) (n h : Nat) (r : Reply) (c : Claim) :
    (s.shiftOut l n r).post h c = (s.post h c).shiftOut l n r := by
  have ready : (s.shiftOut l n r).readyToPost = s.readyToPost.shiftOut l n r := by
    by_cases hc : s.table.counter < seqMax
    · rw [State.readyToPost_of_lt hc, State.readyToPost_of_lt (s := s.shiftOut l n r) hc]
    · rw [State.readyToPost_of_full (s := s) (Nat.not_lt.1 hc), State.readyToPost_of_full (s := s.shiftOut l n r) (Nat.not_lt.1 hc),
        State.renumber_shiftOut]
  unfold State.post
  rw [ready]
  rfl

theorem State.post_memo (s : State) (h : Nat) (c : Claim) :
    (s.post h c).traffic = { s.traffic with retained := (s.post h c).traffic.retained } := by
  rw [s.post_traffic]
  unfold State.readyToPost
  split <;> rfl

end Sys2Proof.Machine
end

section
namespace Sys2Proof.Machine

/-! ### What a posting does to the table (R20, R21) -/

theorem State.post_claim_self (s : State) (h : Nat) (c : Claim) (hl : h < s.table.entries.length) :
    (s.post h c).claim h = some { c with seq := (s.post h c).table.counter } := by
  rw [s.post_claim h h c hl, if_pos rfl]

theorem State.post_links (s : State) (h : Nat) (c : Claim) : (s.post h c).links = s.links := by
  unfold State.post State.readyToPost
  split <;> rfl

theorem State.post_unreported (s : State) (h : Nat) (c : Claim) : Unreported s (s.post h c) := fun k => by
  rw [State.link, s.post_links]
  exact ⟨rfl, rfl, rfl⟩

/-- At the largest number, the claims but the one posted over, and a retained number, are numbered afresh in their order (R21). -/
theorem State.post_renumbered {s : State} {h : Nat} (c : Claim) (full : seqMax ≤ s.table.counter)
    (hl : h < s.table.entries.length) : Renumbered h s (s.post h c) := by
  have others : ∀ k, k ≠ h → (s.post h c).claim k = (s.claim k).map fun d => { d with seq := rankAmong s.numbers d.seq } :=
    fun k hk => by rw [s.post_claim h k c hl, if_neg hk, State.readyToPost_of_full full, s.renumber_claim]
  have retained : (s.post h c).traffic.retained = s.traffic.retained.map (rankAmong s.numbers) := by
    rw [s.post_traffic, State.readyToPost_of_full full, s.renumber_eq]
    rfl
  have renewed : ∀ k d d', k ≠ h → s.claim k = some d → (s.post h c).claim k = some d' →
      d.seq ∈ s.numbers ∧ d'.seq = rankAmong s.numbers d.seq := fun k d d' hk hd hd' => by
    rw [others k hk, hd] at hd'
    obtain rfl := Option.some.inj hd'
    exact ⟨State.mem_numbers_of_claim hd, rfl⟩
  have within : ∀ {n}, n ∈ s.numbers → 1 ≤ rankAmong s.numbers n ∧ rankAmong s.numbers n ≤ s.numbered := fun hn =>
    ⟨rankAmong_pos _ _, s.numbers_length ▸ rankAmong_le hn⟩
  refine ⟨fun k hk hn => ?_, fun k d hk hd => ?_, fun j k d e d' e' hj hk hd he hd' he' => ?_, fun hn => ?_, fun q hq => ?_⟩
  · rw [others k hk, hn]
    rfl
  · exact ⟨_, by rw [others k hk, hd]; rfl, within (State.mem_numbers_of_claim hd)⟩
  · obtain ⟨hdn, hds⟩ := renewed j d d' hj hd hd'
    obtain ⟨hen, hes⟩ := renewed k e e' hk he he'
    rw [hds, hes]
    exact (rankAmong_lt_iff hdn hen).symm
  · rw [retained, hn]
    rfl
  · have hqn := State.mem_numbers_of_retained hq
    refine ⟨_, by rw [retained, hq]; rfl, (within hqn).1, (within hqn).2, fun k d d' hk hd hd' => ?_⟩
    obtain ⟨hdn, hds⟩ := renewed k d d' hk hd hd'
    rw [hds]
    exact ⟨(rankAmong_lt_iff hdn hqn).symm, (rankAmong_lt_iff hqn hdn).symm⟩

/-- Every posting takes the number after the counter's, with the renumbering that may come first. -/
theorem State.post_posts {s : State} {h : Nat} (c : Claim) (hl : h < s.table.entries.length) :
    (s.post h c).claim h = some { c with seq := (s.post h c).table.counter } ∧ Happens [.table, .traffic] s (s.post h c)
      ∧ Unreported s (s.post h c) ∧ (s.post h c).table.entries.length = s.table.entries.length
      ∧ (s.table.counter < seqMax → (s.post h c).table.counter = s.table.counter + 1 ∧ (s.post h c).traffic = s.traffic
          ∧ ∀ k, k ≠ h → (s.post h c).claim k = s.claim k)
      ∧ (seqMax ≤ s.table.counter → (s.post h c).table.counter = s.numbered + 1 ∧ Renumbered h s (s.post h c)
          ∧ (s.post h c).traffic = { s.traffic with retained := (s.post h c).traffic.retained }) := by
  refine ⟨s.post_claim_self h c hl, happens_post _ _ _, s.post_unreported h c, s.post_length h c, fun room => ⟨?_, ?_, fun k hk =>
    State.post_claim_of_lt c room hk⟩, fun full => ⟨?_, State.post_renumbered c full hl, s.post_memo h c⟩⟩
  · rw [s.post_counter, State.readyToPost_of_lt room]
  · rw [s.post_traffic, State.readyToPost_of_lt room]
  · rw [s.post_counter, State.readyToPost_of_full full, s.renumber_counter]

end Sys2Proof.Machine
end

section
namespace Sys2Proof.Machine

/-! ### CLAIM (R28, R29) -/

/-- A level or duck operand, read back from its two bytes. -/
theorem s16_half {bs : List Byte} {i : Nat} {x : Half} (h0 : bs.getD i 0 = x.extractLsb' 8 8) (h1 : bs.getD (i + 1) 0 = x.extractLsb' 0 8) :
    s16 bs i = x.toInt := by
  rw [s16, u16, u8, u8, h0, h1, half_signed]

/-- The lock stops REAR alone (R28, R31). -/
theorem rear_unlocked {l : Link} {lock : Bool} (h : l = .rear → lock = false) : (decide (l = .rear) && lock) = false := by
  by_cases hl : l = .rear
  · simp [h hl]
  · simp [hl]

/-- A CLAIM that passes the checks of R28 is posted. -/
theorem claimBody_posts {l : Link} {s : State} {a b z x q : Byte} {lv dk : Half} {tier : Tier} {kind : Kind} {zs : ZoneSet}
    {src : Source} {ramp : Ramp} {h : Nat} (htier : tierOf a.toNat = some tier) (hkind : kindOf b.toNat = some kind)
    (hzones : zoneSetOf z.toNat = some zs) (hz : zs ≠ 0) (hsrc : sourceOf x.toNat = some src) (hramp : rampOf q.toNat = some ramp)
    (hs : src.claimable = true) (may : mayClaim l tier zs = true) (hlock : l = .rear → s.stations.lock = false)
    (free : s.table.freeGeneral = some h) :
    claimBody l ([a, b, z, x] ++ half lv ++ half dk ++ [q]) s =
      postLinkClaim h (linkClaim l tier kind zs src lv.toInt dk.toInt ramp) s := by
  have level : s16 ([a, b, z, x] ++ half lv ++ half dk ++ [q]) 4 = lv.toInt := s16_half rfl rfl
  have duck : s16 ([a, b, z, x] ++ half lv ++ half dk ++ [q]) 6 = dk.toInt := s16_half rfl rfl
  rw [claimBody, level, duck]
  show (match tierOf a.toNat, kindOf b.toNat, zoneSetOf z.toNat, sourceOf x.toNat, rampOf q.toNat with
    | some _, some _, some _, some _, some _ => _
    | _, _, _, _, _ => _) = _
  simp only [htier, hkind, hzones, hsrc, hramp, hz, hs, may, free, rear_unlocked hlock]
  rfl

/-- R22: an authority that the statement names. -/
theorem mayClaim_of_authority {l : Link} {tier : Tier} {zs : ZoneSet} {lock : Bool}
    (h : (l = .cockpit ∧ tier = .normal) ∨ (l = .body ∧ tier ≠ .call ∧ within zs speakerZones = true)
      ∨ (l = .rear ∧ tier = .normal ∧ within zs stationZones = true ∧ lock = false)) :
    byCockpitRearBody.contains l = true ∧ mayClaim l tier zs = true ∧ (l = .rear → lock = false) := by
  rcases h with ⟨rfl, rfl⟩ | ⟨rfl, ht, hz⟩ | ⟨rfl, rfl, hz, hl⟩
  · exact ⟨rfl, rfl, fun h => by cases h⟩
  · exact ⟨rfl, by simp [mayClaim, ht, hz], fun h => by cases h⟩
  · exact ⟨rfl, by simp [mayClaim, hz], fun _ => hl⟩

/-- What a change of the table brings to an announcement not yet considered, while no memo is kept (R100). -/
theorem closes_tableChanged_of_unconsidered {w t : State} {v : TunerId} {d : Claim} (ht : Closes w.tableChanged t) (quiet : w.memoless)
    (ha : w.traffic.announcing = true) (hv : w.traffic.source = .tuner v) (ho : w.traffic.outcome = some .none)
    (hd : w.claim radioHandle = some d) (hx : d.source ≠ .shift) :
    t.claim radioHandle = some d ∧ (w.table.basedZones radioHandle = 0 → Closes (w.considerMemo v) t)
      ∧ (w.table.basedZones radioHandle ≠ 0 ∨ w.traffic.memo = false → t.traffic = w.traffic ∧ t.shift = w.shift) := by
  have unheard := State.unheard_eq hv hd ha ho hx
  have changed : w.tableChanged = if w.table.basedZones radioHandle = 0 then w.considerMemo v else w := by
    rw [State.tableChanged_of_memoless quiet, unheard]
    by_cases hb : w.table.basedZones radioHandle = 0 <;> simp only [hb, if_true, if_false]
  by_cases hb : w.table.basedZones radioHandle = 0
  · rw [changed, if_pos hb] at ht
    refine ⟨?_, fun _ => ht, fun h => ?_⟩
    · rw [ht.claim, State.claim, State.considerMemo_table]
      exact hd
    · have off : w.considerMemo v = w := by simp [State.considerMemo, h.resolve_left (not_not.2 hb)]
      rw [ht.traffic, ht.shift, off]
      exact ⟨rfl, rfl⟩
  · rw [changed, if_neg hb] at ht
    exact ⟨by rw [ht.claim]; exact hd, fun h => absurd h hb, fun _ => ⟨ht.traffic, ht.shift⟩⟩

/-- A select period writes no enable and no advisory. -/
theorem State.shiftOut_watch (s : State) (l : Link) (n : Nat) (r : Reply) (k : Link) :
    ((s.shiftOut l n r).link k).riseEnable = (s.link k).riseEnable
      ∧ ((s.shiftOut l n r).link k).advisories = (s.link k).advisories := by
  rw [State.shiftOut_link]
  split
  · next hk => exact hk ▸ ⟨rfl, rfl⟩
  · exact ⟨rfl, rfl⟩

/-- Settles O21: the work of the order is a posting, of which `State.post_posts` says all, and the change of the table that follows. -/
theorem claimPosts : Obligations.ClaimPosts := by
  refine ⟨?_, fun s u h c hu hl => hu ▸ State.post_posts c hl⟩
  intro f s u r l a b z x q lv dk tier kind zs src ramp h c hr hf htier hkind hzones hz hsrc hramp hs hauth hlen hh free taken hc hu
    hroom
  obtain ⟨named, may, hlock⟩ := mayClaim_of_authority hauth
  have hne : h ≠ radioHandle := by simp only [radioHandle]; omega
  have claimable : src.claimable = true := by rcases hs with rfl | rfl | rfl | rfl | rfl | rfl <;> rfl
  have posted : u = s.post h (linkClaim l tier kind zs src lv.toInt dk.toInt ramp) := by
    rw [hu, hc, ← State.post_reseq s h u.table.counter (linkClaim _ _ _ _ _ _ _ _)]
    cases kind <;> rfl
  have shiftKept : u.shift = s.shift := posted ▸ (happens_post s h _).blocks.2 .shift (by decide)
  have storeKept : u.store = s.store := posted ▸ (happens_post s h _).blocks.2 .store (by decide)
  obtain ⟨announcing, source, outcome, memo⟩ : u.traffic.announcing = s.traffic.announcing ∧ u.traffic.source = s.traffic.source
      ∧ u.traffic.outcome = s.traffic.outcome ∧ u.traffic.memo = s.traffic.memo := by
    rw [posted, State.post_memo]
    exact ⟨rfl, rfl, rfl, rfl⟩
  have body : claimBody l ([a, b, z, x] ++ half lv ++ half dk ++ [q]) (s.shiftOut l (clocked f) r) =
      (.answer ([byteOf h] ++ be4 u.table.counter
        ++ [byteOf (match kind with | .exclusive => u.table.basedZones h | .overlay => u.table.mixedZones h).toNat]),
        (u.shiftOut l (clocked f) r).tableChanged) := by
    rw [claimBody_posts (s := s.shiftOut l (clocked f) r) htier hkind hzones hz hsrc hramp claimable may hlock
      (ClaimTable.freeGeneral_eq hh free taken), postLinkClaim,
      State.post_shiftOut, ← posted]
    cases kind <;> rfl
  have happens : Happens tableFollowers (s.shiftOut l (clocked f) r) (u.shiftOut l (clocked f) r).tableChanged := by
    rw [posted, ← State.post_shiftOut]
    exact ((happens_post _ _ _).mono (by decide)).trans ((happens_tableChanged _).mono (by decide))
  obtain ⟨t, next, done, closes⟩ := order_closes hr (operands_carries hf) named body happens
  have room : u.table.counter < seqMax ∨ u.shift.state ≠ .memoHeld := shiftKept ▸ hroom
  have kept : ∀ k, k ≠ radioHandle → t.claim k = u.claim k := fun k hk =>
    (closes.claim k).trans (State.tableChanged_claim (s := u.shiftOut l (clocked f) r) hk room)
  refine ⟨t, next, done, ?_, fun k _ hk => kept k hk, fun v d ha hv ho hd hx quiet => ?_⟩
  · rw [kept h hne, hu, State.post_claim_self s h c (by omega), ← hu, hc]
  · have unheard : u.memoless := by rwa [State.memoless, shiftKept]
    obtain ⟨claim, considered, otherwise⟩ := closes_tableChanged_of_unconsidered (w := u.shiftOut l (clocked f) r) closes unheard
      (announcing.trans ha) (source.trans hv) (outcome.trans ho) hd hx
    have watch : ∀ k, ((u.shiftOut l (clocked f) r).link k).riseEnable = (s.link k).riseEnable
        ∧ ((u.shiftOut l (clocked f) r).link k).advisories = (s.link k).advisories := fun k => by
      have link : u.link k = s.link k := by rw [State.link, hu, s.post_links]; rfl
      exact link ▸ u.shiftOut_watch l (clocked f) r k
    refine ⟨claim, fun hb hm => ?_, fun h => (otherwise (h.imp_right memo.trans)).imp_right (·.trans shiftKept)⟩
    exact memoConsidered_of_closes (u := u.shiftOut l (clocked f) r) shiftKept storeKept (fun k => (watch k).1) (watch .cockpit).2
      (memo.trans hm) (considered hb)

end Sys2Proof.Machine
end

section
namespace Sys2Proof.Machine

/-! ### What the arbiter reads of a claim (R23) -/

/-- `f` keeps what the arbiter reads of a claim. -/
structure KeepsRank (f : Claim → Claim) : Prop where
  kind : ∀ c, (f c).kind = c.kind
  tier : ∀ c, (f c).tier = c.tier
  zones : ∀ c, (f c).zones = c.zones
  seq : ∀ c, (f c).seq = c.seq

/-- A change of the claims by handle, on the pairs of handle and claim. -/
def changeHeld (f : Nat → Claim → Claim) (x : Nat × Claim) : Nat × Claim := (x.1, f x.1 x.2)

theorem topClaim_map {g : Nat × Claim → Nat × Claim} (hg : ∀ x y, (g x).2.outranks (g y).2 = x.2.outranks y.2)
    (cs : List (Nat × Claim)) : topClaim (cs.map g) = (topClaim cs).map g := by
  unfold topClaim
  rw [List.foldl_map]
  refine List.foldl_hom (init := none) (Option.map g) fun best c => ?_
  cases best with
  | none => rfl
  | some b =>
    simp only [Option.map_some, hg]
    split <;> rfl

/-- The claims held, read handle by handle. -/
theorem ClaimTable.held_eq_range (t : ClaimTable) :
    t.held = (List.range t.entries.length).filterMap fun h => (t.claimAt h).map fun c => (h, c) := by
  have indexed : t.entries.zipIdx = (List.range t.entries.length).map fun h => (t.claimAt h, h) :=
    List.ext_getElem (by simp) fun i hi _ => by
      have : i < t.entries.length := by simpa using hi
      simp [ClaimTable.claimAt, List.getElem?_eq_getElem this]
  rw [ClaimTable.held, indexed, List.filterMap_map]
  rfl

/-- A table whose claims differ in what the arbiter does not read has the same bases. -/
theorem ClaimTable.basedZones_congr {t u : ClaimTable} {f : Nat → Claim → Claim} (hlen : u.entries.length = t.entries.length)
    (hu : ∀ k, u.claimAt k = (t.claimAt k).map (f k)) (hf : ∀ k, KeepsRank (f k)) (h : Nat) : u.basedZones h = t.basedZones h := by
  have held : u.held = t.held.map (changeHeld f) := by
    rw [held_eq_range, held_eq_range, hlen, List.map_filterMap]
    refine congrArg (List.filterMap · _) (funext fun k => ?_)
    rw [hu, Option.map_map, Option.map_map]
    rfl
  have outranks : ∀ x y, (changeHeld f x).2.outranks (changeHeld f y).2 = x.2.outranks y.2 := fun x y => by
    simp only [changeHeld, Claim.outranks, (hf _).tier, (hf _).seq]
  have handle : ∀ z, u.baseHandle z = t.baseHandle z := fun z => by
    have exclusives : u.exclusives z = (t.exclusives z).map (changeHeld f) := by
      rw [ClaimTable.exclusives, held, List.filter_map]
      refine congrArg (List.map (changeHeld f)) (congrArg (List.filter · _) (funext fun x => ?_))
      simp only [changeHeld, Function.comp, Claim.covers, (hf _).kind, (hf _).zones]
    rw [ClaimTable.baseHandle, ClaimTable.base, exclusives, topClaim_map outranks, Option.map_map]
    rfl
  simp only [ClaimTable.basedZones, handle]

theorem State.changeClaim_basedZones {s : State} {h : Nat} {f : Claim → Claim} (hf : KeepsRank f) (k : Nat) :
    (s.changeClaim h f).table.basedZones k = s.table.basedZones k := by
  have self : KeepsRank id := ⟨fun _ => rfl, fun _ => rfl, fun _ => rfl, fun _ => rfl⟩
  refine ClaimTable.basedZones_congr (f := fun k => if k = h then f else id) ?_ (fun j => ?_) (fun j => ?_) k
  · exact List.length_set
  · by_cases hj : j = h
    · subst hj
      cases hc : s.claim j with
      | some c => simpa [hc] using State.changeClaim_claim f hc
      | none => simpa [hc, State.changeClaim] using s.claim_setClaim_none j
    · simpa [hj, State.changeClaim] using s.setClaim_claim_of_ne _ hj
  · split <;> assumption

end Sys2Proof.Machine
end

section
namespace Sys2Proof.Machine

/-! ### RELEASE and AMEND (R30, R31) -/

section
variable {l : Link} {s : State} {h : Byte} {c : Claim} (hh : h.toNat < 10) (hc : s.claim h.toNat = some c) (own : c.claimant = .link l)
include hh hc own

/-- A RELEASE of the issuing link's entry empties it. -/
theorem releaseBody_frees : releaseBody l [h] s = (.plain .done, (s.setClaim h.toNat none).tableChanged) := by
  show (if 15 < h.toNat then _ else match s.claim h.toNat with | none => _ | some c => _) = _
  rw [if_neg (by omega), hc]
  exact if_pos own

/-- An AMEND of the issuing link's entry writes the new level, duck and ramp class. -/
theorem amendBody_amends {lv dk : Half} {q : Byte} {ramp : Ramp} (hq : rampOf q.toNat = some ramp)
    (hlock : l = .rear → s.stations.lock = false) :
    amendBody l ([h] ++ half lv ++ half dk ++ [q]) s =
      (.plain .done, (s.setClaim h.toNat (some (c.amended lv.toInt dk.toInt ramp))).tableChanged) := by
  have level : s16 ([h] ++ half lv ++ half dk ++ [q]) 1 = lv.toInt := s16_half rfl rfl
  have duck : s16 ([h] ++ half lv ++ half dk ++ [q]) 3 = dk.toInt := s16_half rfl rfl
  rw [amendBody, level, duck]
  show (match rampOf q.toNat with
    | none => _
    | some ramp => if 15 < h.toNat then _ else match s.claim h.toNat with | none => _ | some c => _) = _
  simp only [hq, hc, if_neg (show ¬15 < h.toNat by omega), own, rear_unlocked hlock, ne_eq, not_true_eq_false, if_false,
    Bool.false_eq_true]
  rfl

end

theorem Claim.amended_eq (c : Claim) (level duck : Int) (ramp : Ramp) : c.amended level duck ramp =
    { c with level := some (clampInt (-24) 359 level), duck := if c.kind = .overlay then some (clampInt 0 120 duck) else c.duck,
             ramp := ramp } := by
  unfold Claim.amended
  cases c.kind <;> rfl

/-! ### The memo after a release (R109, R110) -/

theorem ClaimTable.wouldBeBase_iff {t : ClaimTable} {q : Nat} : t.wouldBeBase q = true ↔
    ∃ z ∈ memoZones, ∀ k d, t.claimAt k = some d → d.kind = .exclusive → hasZone d.zones z = true →
      d.tier = .normal ∧ d.seq ≤ q := by
  simp only [ClaimTable.wouldBeBase, List.any_eq_true, List.all_eq_true, Prod.forall, ClaimTable.mem_exclusives, and_imp,
    Bool.and_eq_true, decide_eq_true_eq]
  rfl

/-- With one entry emptied, the claims are those of the others. -/
theorem State.setClaim_none_eq_some {s : State} {h k : Nat} {d : Claim} :
    (s.setClaim h none).claim k = some d ↔ k ≠ h ∧ s.claim k = some d := by
  by_cases hk : k = h
  · simp [hk, s.claim_setClaim_none]
  · simp [hk, s.setClaim_claim_of_ne none hk]

/-- With the entry of handle `h` empty, a memo that retains `q` would sound. -/
theorem State.wouldBeBase_setClaim_none {s : State} {h q : Nat} :
    (s.setClaim h none).table.wouldBeBase q = true ↔ s.wouldSound q (· = h) := by
  simp only [ClaimTable.wouldBeBase_iff, State.table_claimAt, State.setClaim_none_eq_some, and_imp]
  rfl

theorem State.replayMemo_shift (s : State) : s.replayMemo.shift = { s.shift with state := .memoReplay } := rfl

theorem State.replayMemo_claim {s : State} {d : Claim} (hd : s.claim radioHandle = some d) :
    s.replayMemo.claim radioHandle = some { d with source := .shift } :=
  State.changeClaim_claim (s := s.withShift { s.shift with state := .memoReplay }) _ hd

/-- The RADIO claim keeps its place as its source changes (R35). -/
theorem State.replayMemo_basedZones (s : State) (k : Nat) : s.replayMemo.table.basedZones k = s.table.basedZones k := by
  have keeps : KeepsRank fun c => { c with source := .shift } := ⟨fun _ => rfl, fun _ => rfl, fun _ => rfl, fun _ => rfl⟩
  have table : s.replayMemo.table = (s.changeClaim radioHandle fun c => { c with source := .shift }).table := rfl
  exact (congrArg (ClaimTable.basedZones · k) table).trans (State.changeClaim_basedZones keeps k)

/-- A memo being captured is replayed from its beginning where its claim is the base of a sink (R109). -/
theorem State.tableChanged_captures {s : State} {d : Claim} (hs : s.shift.state = .memoCapture) (ha : s.traffic.announcing = true)
    (hd : s.claim radioHandle = some d) :
    (s.tableChanged.table.basedZones radioHandle = 0 → s.tableChanged.claim radioHandle = some d ∧ s.tableChanged.shift = s.shift)
      ∧ (s.tableChanged.table.basedZones radioHandle ≠ 0 →
          s.tableChanged.claim radioHandle = some { d with source := .shift }
            ∧ s.tableChanged.shift = { s.shift with state := .memoReplay }) := by
  have changed : s.tableChanged = if s.table.basedZones radioHandle = 0 then s else s.replayMemo := by
    rw [State.tableChanged_of_memoCapture hs, ha, Bool.true_and, State.radioIsBase]
    by_cases hb : s.table.basedZones radioHandle = 0 <;> simp [hb]
  rw [changed]
  split
  · next hb => exact ⟨fun _ => ⟨hd, rfl⟩, fun h => absurd hb h⟩
  · next hb =>
    exact ⟨fun h => absurd (s.replayMemo_basedZones _ ▸ h) hb, fun _ => ⟨State.replayMemo_claim hd, s.replayMemo_shift⟩⟩

/-- The claim of a held memo is posted afresh, and its number is retained no longer (R110). -/
theorem State.replayHeld_posts {s : State} (room : s.table.counter < seqMax) (hlen : s.table.entries.length = 16) :
    s.replayHeld.claim radioHandle = some { radioClaim .shift with seq := s.table.counter + 1 }
      ∧ s.replayHeld.traffic = { s.traffic with retained := none }
      ∧ s.replayHeld.shift = { s.shift with state := .memoReplay, running := false } := by
  obtain ⟨claim, happens, -, -, given, -⟩ := State.post_posts
    (s := s.withShift { s.shift with state := .memoReplay, running := false }) (h := radioHandle) (radioClaim .shift)
    (show 10 < s.table.entries.length by omega)
  obtain ⟨counter, traffic, -⟩ := given room
  refine ⟨?_, ?_, happens.blocks.2 .shift (by decide)⟩
  · exact claim.trans (by rw [counter]; rfl)
  · show Traffic.mk _ _ _ _ _ _ _ _ _ _ _ = _
    rw [traffic]
    rfl

/-- A held memo is replayed where its claim would be the base of a sink, and is left as it is elsewhere (R110). -/
theorem State.tableChanged_holds {s : State} {q : Nat} (hs : s.shift.state = .memoHeld) (hq : s.traffic.retained = some q) :
    (s.table.wouldBeBase q = true → s.tableChanged = s.replayHeld) ∧ (¬s.table.wouldBeBase q = true → s.tableChanged = s) := by
  rw [State.tableChanged_of_memoHeld hs hq]
  exact ⟨fun h => if_pos h, fun h => if_neg h⟩

/-- Settles O22: both orders write one entry, after which the claims beside the RADIO claim stand (`State.tableChanged_claim`); the RADIO
claim and the memo follow by the state of the Shift Buffer. -/
theorem releaseAndAmend : Obligations.ReleaseAndAmend := by
  intro f s r l h c hr room hh hc own
  have hne : h.toNat ≠ radioHandle := by simp only [radioHandle]; omega
  have named : byAll.contains l = true := by cases l <;> rfl
  have length : h.toNat < s.table.entries.length := ClaimTable.claimAt_lt hc
  have happens : ∀ x, Happens tableFollowers (s.shiftOut l (clocked f) r)
      ((s.shiftOut l (clocked f) r).setClaim h.toNat x).tableChanged :=
    fun x => ((happens_setClaim _ _ _).mono (by decide)).trans ((happens_tableChanged _).mono (by decide))
  have kept : ∀ x k, k ≠ radioHandle → ((s.shiftOut l (clocked f) r).setClaim h.toNat x).tableChanged.claim k =
      (s.setClaim h.toNat x).claim k := fun x k hk => State.tableChanged_claim hk (.inl room)
  refine ⟨fun hf => ?_, fun lv dk q ramp hf hq hlock => ?_⟩
  · obtain ⟨t, next, taken, closes⟩ := order_closes hr (operands_carries hf) named
      (releaseBody_frees (s := s.shiftOut l (clocked f) r) hh hc own) (happens none)
    have others : ∀ k, k ≠ h.toNat → (s.setClaim h.toNat none).claim k = s.claim k := fun k hk => s.setClaim_claim_of_ne none hk
    refine ⟨t, next, taken, ?_, fun k hk hk' => ?_, fun d hs ha hd => ?_, fun q hs hq hlen => ?_⟩
    · rw [closes.claim, kept none _ hne, s.claim_setClaim_none]
    · rw [closes.claim, kept none k hk', others k hk]
    · rw [closes.claim, closes.table, closes.shift]
      exact State.tableChanged_captures (s := (s.shiftOut l (clocked f) r).setClaim h.toNat none) hs ha
        ((others _ hne.symm).trans hd)
    · obtain ⟨sounds, silent⟩ := State.tableChanged_holds (s := (s.shiftOut l (clocked f) r).setClaim h.toNat none) hs hq
      rw [closes.claim, closes.traffic, closes.shift]
      refine ⟨fun hw => ?_, fun hw => ?_⟩
      · obtain ⟨claim, traffic, shift⟩ := State.replayHeld_posts (s := (s.shiftOut l (clocked f) r).setClaim h.toNat none) room
          (List.length_set.trans hlen)
        rw [sounds (State.wouldBeBase_setClaim_none.2 hw)]
        exact ⟨claim, by rw [traffic], by rw [traffic]; rfl, shift⟩
      · rw [silent fun hb => hw (State.wouldBeBase_setClaim_none.1 hb)]
        exact ⟨others _ hne.symm, rfl, rfl⟩
  · obtain ⟨t, next, taken, closes⟩ := order_closes hr (operands_carries hf) named
      (amendBody_amends (s := s.shiftOut l (clocked f) r) hh hc own hq hlock) (happens _)
    refine ⟨t, next, taken, ?_, fun k hk hk' => ?_⟩
    · rw [closes.claim, kept _ _ hne, s.setClaim_claim _ _ _ length, if_pos rfl, c.amended_eq]
    · rw [closes.claim, kept _ k hk', s.setClaim_claim_of_ne _ hk]

end Sys2Proof.Machine
end

section
namespace Sys2Proof.Machine

/-! ### The gain law (R56) -/

theorem mantissas_bounds : ∀ m ∈ mantissas, 16864 ≤ m ∧ m ≤ 32768 := by decide

theorem mantissas_some {k : Nat} (hk : k < 24) : ∃ m, mantissas[k]? = some m :=
  ⟨mantissas[k]'hk, List.getElem?_eq_getElem hk⟩

/-- The gain law, by the quotient and the remainder of an attenuation at 24 steps to the octave. -/
theorem gain_eq {a q m : Int} {k : Nat} (ha : a = 24 * q + k) (hk : k < 24) (hm : mantissas[k]? = some m) (hn : a ≠ 360) :
    gain a = if q < 0 then 2 * m else if q = 0 then m else (m + 2 ^ (q.toNat - 1)) / 2 ^ q.toNat := by
  have hq : a / 24 = q := by omega
  have hr : (a - 24 * q).toNat = k := by omega
  rw [gain, if_neg hn]
  dsimp only
  rw [hq, hr, List.getD_eq_getElem?_getD, hm, Option.getD_some]

/-- Halving and rounding does not raise a multiplier. -/
theorem shifted_mantissa_bounds {m : Int} (hm : 1 ≤ m) (n : Nat) :
    0 ≤ (m + 2 ^ n) / 2 ^ (n + 1) ∧ (m + 2 ^ n) / 2 ^ (n + 1) ≤ m := by
  have hp : (1 : Int) ≤ 2 ^ n := one_le_pow₀ (by norm_num)
  rw [pow_succ]
  generalize (2 : Int) ^ n = p at hp
  exact ⟨Int.ediv_nonneg (by omega) (by omega), Int.ediv_le_of_le_mul (by omega) (by nlinarith)⟩

theorem gain_bounds {a : Int} (hl : -24 ≤ a) (hu : a ≤ 360) :
    0 ≤ gain a ∧ gain a ≤ 65536 ∧ (0 ≤ a → gain a ≤ 32768) := by
  by_cases hn : a = 360
  · rw [gain, if_pos hn]
    omega
  · obtain ⟨m, hm⟩ := mantissas_some (k := (a % 24).toNat) (by omega)
    obtain ⟨low, high⟩ := mantissas_bounds m (List.mem_of_getElem? hm)
    rw [gain_eq (q := a / 24) (by omega) (by omega) hm hn]
    split
    · omega
    · split
      · omega
      · have hs : (a / 24).toNat = (a / 24).toNat - 1 + 1 := by omega
        obtain ⟨nonneg, le⟩ := shifted_mantissa_bounds (m := m) (by omega) ((a / 24).toNat - 1)
        rw [← hs] at nonneg le
        omega

/-- The mantissas are the nearest integers to 32,768 × 2^(-k/24), told by their 24th powers. -/
theorem mantissas_nearest : ∀ k : Fin 24, ∀ m ∈ mantissas[k.val]?,
    (2 * m - 1) ^ 24 * 2 ^ k.val < 2 ^ 192 * 2 ^ 192 ∧ (2 : Int) ^ 192 * 2 ^ 192 < (2 * m + 1) ^ 24 * 2 ^ k.val := by decide

/-- Settles O17: an attenuation's quotient by 24 shifts the mantissa that its remainder names. -/
theorem gainLaw : Obligations.GainLaw := by
  unfold Obligations.GainLaw
  refine ⟨rfl, fun a hl hu => ?_, fun k m hm => ?_⟩
  · obtain ⟨m, hm⟩ := mantissas_some (k := (a % 24).toNat) (by omega)
    have hg := gain_eq (a := a) (q := a / 24) (by omega) (by omega) hm (by omega)
    obtain ⟨nonneg, le, -⟩ := gain_bounds hl (by omega)
    refine ⟨a / 24, (a % 24).toNat, m, by omega, by omega, hm, nonneg, le, fun h => ?_, fun h => ?_, fun h => ?_⟩
    · rw [hg, if_pos (by omega)]
    · rw [hg, if_neg (by omega), if_pos h]
    · rw [hg, if_neg (by omega), if_neg (by omega)]
  · have hk : k < 24 := (List.getElem?_eq_some_iff.1 hm).1
    rw [show 384 = 192 + 192 from rfl, pow_add]
    exact mantissas_nearest ⟨k, hk⟩ m hm

end Sys2Proof.Machine
end

section
namespace Sys2Proof.Machine

/-! ### What a sink is asked to keep -/

theorem clampInt_bounds {lo hi : Int} (h : lo ≤ hi) (x : Int) : lo ≤ clampInt lo hi x ∧ clampInt lo hi x ≤ hi := by
  unfold clampInt
  omega

theorem inSample_zero : inSample 0 := ⟨by decide, by decide⟩

theorem inSample_sat24 (x : Int) : inSample (sat24 x) := clampInt_bounds (by decide) x

/-- A multiplier of an attenuation of 0 or more takes no sample out of 24 bits (R57). -/
theorem inSample_product {x g : Int} (hx : inSample x) (h0 : 0 ≤ g) (h1 : g ≤ 32768) : inSample (product x g) := by
  obtain ⟨low, high⟩ := hx
  have lower : -8388608 * 32768 ≤ x * g := by nlinarith
  have upper : x * g ≤ 8388607 * 32768 := by nlinarith
  constructor <;> unfold product <;> omega

theorem inSample_silence (n : Nat) : ∀ y ∈ List.replicate n (0 : Int), inSample y := fun _ hy =>
  List.eq_of_mem_replicate hy ▸ inSample_zero

theorem inSample_silentFrame : ∀ y ∈ silentFrame, inSample y := inSample_silence 48

theorem silentFrame_length : silentFrame.length = 48 := List.length_replicate (n := 48)

/-- The line has its 960 places, and the delay and the pending one lie in it (R62, R63). -/
structure Sink.Sized (x : Sink) : Prop where
  line : x.line.length = 960
  delay : x.delay ≤ 960
  pending : ∀ d, x.pendingDelay = some d → d ≤ 960

/-- Sink `y`, made of sink `x`, keeps the bounds of its contributions, its samples and its sizes. -/
structure SinkKept (x y : Sink) : Prop where
  bounded : x.bounded → y.bounded
  inRange : x.inRange → y.inRange
  sized : x.Sized → y.Sized

theorem SinkKept.refl (x : Sink) : SinkKept x x := ⟨id, id, id⟩

theorem SinkKept.trans {x y z : Sink} (h : SinkKept x y) (k : SinkKept y z) : SinkKept x z :=
  ⟨k.bounded ∘ h.bounded, k.inRange ∘ h.inRange, k.sized ∘ h.sized⟩

theorem Sink.fresh_bounded : Sink.fresh.bounded := ⟨Nat.zero_le _, List.forall_mem_nil _⟩

theorem Sink.fresh_inRange : Sink.fresh.inRange := by
  simp only [Sink.inRange, Sink.fresh]
  exact ⟨inSample_silence 960, inSample_silentFrame, inSample_silentFrame, by decide⟩

theorem Sink.fresh_sized : Sink.fresh.Sized := ⟨List.length_replicate (n := 960), by decide, nofun⟩

theorem sinkKept_stopped (x : Sink) : SinkKept x x.stopped where
  bounded _ := ⟨Nat.zero_le _, List.forall_mem_nil _⟩
  inRange _ := by
    simp only [Sink.inRange, Sink.stopped]
    exact ⟨inSample_silence 960, inSample_silentFrame, inSample_silentFrame, Nat.zero_le _⟩
  sized h := by
    refine ⟨List.length_replicate (n := 960), ?_, nofun⟩
    show x.pendingDelay.getD x.delay ≤ 960
    cases hp : x.pendingDelay with
    | none => exact h.delay
    | some d => exact h.pending d hp

/-! ### The contribution list (R47 to R50) -/

/-- R47, of a list that may stand on a sink. -/
def BoundedList (xs : List Contribution) : Prop := xs.length ≤ 6 ∧ ∀ c ∈ xs, -24 ≤ c.applied ∧ c.applied ≤ 360

theorem BoundedList.map {xs : List Contribution} (h : BoundedList xs) {f : Contribution → Contribution}
    (hf : ∀ c, -24 ≤ c.applied ∧ c.applied ≤ 360 → -24 ≤ (f c).applied ∧ (f c).applied ≤ 360) : BoundedList (xs.map f) := by
  refine ⟨by simpa using h.1, fun c hc => ?_⟩
  obtain ⟨y, hy, rfl⟩ := List.mem_map.1 hc
  exact hf y (h.2 y hy)

theorem BoundedList.filter {xs : List Contribution} (h : BoundedList xs) (p : Contribution → Bool) : BoundedList (xs.filter p) :=
  ⟨(List.length_filter_le p xs).trans h.1, fun c hc => h.2 c (List.mem_filter.1 hc).1⟩

/-- The departures, with the view's question written out by role (R49). -/
theorem departures_eq (xs : List Contribution) (base : Wanted) (mixed : List (Nat × Claim)) :
    departures xs base mixed = xs.filter (fun c => c.role = .base && c.isOf base) ++ xs.filter (fun c => c.role = .tail)
      ++ (xs.filter fun c => (c.role = .base && !c.isOf base)
          || (c.role = .overlay && mixed.all fun m => !c.isOf (m.2.wanted m.1))).map Contribution.depart
      ++ xs.filter (fun c => c.role = .overlay && mixed.any fun m => c.isOf (m.2.wanted m.1)) := by
  simp only [departures, bases, tails, overlays, List.filter_filter]
  congr 3
  · refine List.filter_congr fun c _ => ?_
    cases hr : c.role <;> simp [Contribution.placed, hr]
  · refine List.filter_congr fun c _ => ?_
    cases hr : c.role <;> simp [Contribution.placed, hr, List.all_eq_not_any_not]
  · funext c
    cases hr : c.role <;> simp [Contribution.placed, hr]

/-- No contribution is lost or made by the departures (R49). -/
theorem departures_length (xs : List Contribution) (base : Wanted) (mixed : List (Nat × Claim)) :
    (departures xs base mixed).length = xs.length := by
  rw [departures_eq]
  simp only [List.length_append, List.length_map, List.all_eq_not_any_not, Bool.not_not]
  induction xs with
  | nil => rfl
  | cons x xs ih =>
    cases hr : x.role with
    | tail =>
      simp [hr]
      omega
    | base => cases hp : x.isOf base <;> simp [hr, hp] <;> omega
    | overlay => cases hp : mixed.any fun m => x.isOf (m.2.wanted m.1) <;> simp [hr, hp] <;> omega

/-- A contribution after the departures is one before them, or that one as a tail. -/
theorem mem_departures {xs : List Contribution} {base : Wanted} {mixed : List (Nat × Claim)} {c : Contribution}
    (h : c ∈ departures xs base mixed) : c ∈ xs ∨ ∃ y ∈ xs, c = y.depart := by
  simp only [departures, bases, tails, overlays, List.mem_append, List.mem_filter, List.mem_map] at h
  obtain ((⟨⟨h, -⟩, -⟩ | ⟨h, -⟩) | ⟨y, ⟨h, -⟩, rfl⟩) | ⟨⟨h, -⟩, -⟩ := h
  · exact .inl h
  · exact .inl h
  · exact .inr ⟨y, h, rfl⟩
  · exact .inl h

theorem BoundedList.departures {xs : List Contribution} (h : BoundedList xs) (base : Wanted) (mixed : List (Nat × Claim)) :
    BoundedList (departures xs base mixed) := by
  refine ⟨(departures_length xs base mixed).trans_le h.1, fun c hc => ?_⟩
  obtain hc | ⟨y, hy, rfl⟩ := mem_departures hc
  · exact h.2 c hc
  · exact h.2 y hy

theorem takeNewest_eq_none {α : Type} {p : α → Bool} {xs : List α} (h : ∀ x ∈ xs, p x = false) : takeNewest p xs = none := by
  induction xs with
  | nil => rfl
  | cons x xs ih =>
    obtain ⟨hx, hxs⟩ := List.forall_mem_cons.1 h
    simp [takeNewest, ih hxs, hx]

theorem takeNewest_append {α : Type} {p : α → Bool} (a : List α) {y : α} {b : List α} (hy : p y = true)
    (hb : ∀ z ∈ b, p z = false) : takeNewest p (a ++ y :: b) = some (y, a ++ b) := by
  induction a with
  | nil => simp [takeNewest, takeNewest_eq_none hb, hy]
  | cons x a ih => simp [takeNewest, ih]

/-- A list holds no member of a kind, or a newest one. -/
theorem newest_or_none {α : Type} (p : α → Bool) (xs : List α) :
    (∀ x ∈ xs, p x = false) ∨ ∃ a y b, xs = a ++ y :: b ∧ p y = true ∧ ∀ z ∈ b, p z = false := by
  induction xs with
  | nil => exact .inl (List.forall_mem_nil _)
  | cons x xs ih =>
    obtain none | ⟨a, y, b, rfl, hy, hb⟩ := ih
    · cases hx : p x with
      | false => exact .inl (List.forall_mem_cons.2 ⟨hx, none⟩)
      | true => exact .inr ⟨[], x, xs, rfl, hx, none⟩
    · exact .inr ⟨x :: a, y, b, rfl, hy, hb⟩

theorem dropOldestTail_eq_none {xs : List Contribution} (h : ∀ x ∈ xs, x.role ≠ .tail) : dropOldestTail xs = none := by
  induction xs with
  | nil => rfl
  | cons x xs ih =>
    obtain ⟨hx, hxs⟩ := List.forall_mem_cons.1 h
    simp [dropOldestTail, ih hxs, hx]

theorem dropOldestTail_append {a : List Contribution} {c : Contribution} (b : List Contribution) (hc : c.role = .tail)
    (ha : ∀ y ∈ a, y.role ≠ .tail) : dropOldestTail (a ++ c :: b) = some (a ++ b) := by
  induction a with
  | nil => simp [dropOldestTail, hc]
  | cons x a ih =>
    obtain ⟨hx, hxs⟩ := List.forall_mem_cons.1 ha
    simp [dropOldestTail, hx, ih hxs]

/-- A list holds no tail, or an oldest one. -/
theorem oldest_tail_or_none (xs : List Contribution) :
    (∀ x ∈ xs, x.role ≠ .tail) ∨ ∃ a c b, xs = a ++ c :: b ∧ c.role = .tail ∧ ∀ y ∈ a, y.role ≠ .tail := by
  induction xs with
  | nil => exact .inl (List.forall_mem_nil _)
  | cons x xs ih =>
    by_cases hx : x.role = .tail
    · exact .inr ⟨[], x, xs, rfl, hx, List.forall_mem_nil _⟩
    · obtain none | ⟨a, c, b, rfl, hc, ha⟩ := ih
      · exact .inl (List.forall_mem_cons.2 ⟨hx, none⟩)
      · exact .inr ⟨x :: a, c, b, rfl, hc, List.forall_mem_cons.2 ⟨hx, ha⟩⟩

/-- The newest tail of the same kind takes its role again (R50). -/
theorem arrive_again {r : Role} {w : Wanted} (a : List Contribution) {c : Contribution} {b : List Contribution}
    (hc : c.role = .tail) (hw : c.isOf w = true) (hb : ∀ y ∈ b, ¬(y.role = .tail ∧ y.isOf w = true)) :
    arrive r w (a ++ c :: b) = some (place r c (a ++ b)) := by
  rw [arrive, takeNewest_append a (by simp [hc, hw]) (by simpa using hb)]

/-- Without such a tail a new contribution enters a list with room, or takes the place of the oldest tail, or waits (R50). -/
theorem arrive_new {r : Role} {w : Wanted} {xs : List Contribution} (h : ∀ y ∈ xs, ¬(y.role = .tail ∧ y.isOf w = true)) :
    arrive r w xs = if xs.length < 6 then some (place r (w.fresh r) xs) else (dropOldestTail xs).map (place r (w.fresh r)) := by
  rw [arrive, takeNewest_eq_none (by simpa using h)]

/-- All that an arrival that finds room can do. -/
theorem arrive_cases {r : Role} {w : Wanted} {xs ys : List Contribution} (h : arrive r w xs = some ys) :
    (∃ a c b, xs = a ++ c :: b ∧ c.role = .tail ∧ (ys = place r c (a ++ b) ∨ ys = place r (w.fresh r) (a ++ b)))
      ∨ (xs.length < 6 ∧ ys = place r (w.fresh r) xs) := by
  obtain none | ⟨a, c, b, rfl, hc, hb⟩ := newest_or_none (fun x : Contribution => x.role = .tail && x.isOf w) xs
  · rw [arrive_new (by simpa using none)] at h
    split at h
    · exact .inr ⟨‹_›, (Option.some.inj h).symm⟩
    · obtain no | ⟨a, c, b, rfl, hc, ha⟩ := oldest_tail_or_none xs
      · rw [dropOldestTail_eq_none no] at h
        cases h
      · rw [dropOldestTail_append b hc ha] at h
        exact .inl ⟨a, c, b, rfl, hc, .inr (Option.some.inj h).symm⟩
  · obtain ⟨tail, of⟩ : c.role = .tail ∧ c.isOf w = true := by simpa using hc
    rw [arrive_again a tail of (by simpa using hb)] at h
    exact .inl ⟨a, c, b, rfl, tail, .inl (Option.some.inj h).symm⟩

theorem place_length (r : Role) (c : Contribution) (xs : List Contribution) : (place r c xs).length = xs.length + 1 := by
  unfold place
  split <;> simp

theorem mem_place {r : Role} {c d : Contribution} {xs : List Contribution} (h : d ∈ place r c xs) :
    d = { c with role := r } ∨ d ∈ xs := by
  unfold place at h
  split at h <;> simp at h <;> tauto

theorem BoundedList.place {xs : List Contribution} (h : BoundedList xs) (hl : xs.length < 6) {c : Contribution}
    (hc : -24 ≤ c.applied ∧ c.applied ≤ 360) (r : Role) : BoundedList (place r c xs) := by
  refine ⟨by rw [place_length]; omega, fun d hd => ?_⟩
  obtain rfl | hd := mem_place hd
  · exact hc
  · exact h.2 d hd

theorem Wanted.fresh_applied (w : Wanted) {r : Role} : -24 ≤ (w.fresh r).applied ∧ (w.fresh r).applied ≤ 360 :=
  (by decide : -24 ≤ (360 : Int) ∧ (360 : Int) ≤ 360)

theorem BoundedList.arrive {xs ys : List Contribution} (h : BoundedList xs) {r : Role} {w : Wanted}
    (ha : arrive r w xs = some ys) : BoundedList ys := by
  obtain ⟨a, c, b, rfl, -, put⟩ | ⟨room, rfl⟩ := arrive_cases ha
  · have len : (a ++ b).length < 6 := by
      have := h.1
      simp only [List.length_append, List.length_cons] at this ⊢
      omega
    have rest : BoundedList (a ++ b) := ⟨len.le, fun d hd => h.2 d (by simp at hd ⊢; tauto)⟩
    obtain rfl | rfl := put
    · exact rest.place len (h.2 c (by simp)) r
    · exact rest.place len w.fresh_applied r
  · exact h.place room w.fresh_applied r

theorem BoundedList.arriveAll {ps : List (Nat × Claim)} {xs : List Contribution} (h : BoundedList xs) :
    BoundedList (arriveAll ps xs).1 := by
  induction ps generalizing xs with
  | nil => exact h
  | cons p ps ih =>
    unfold Sys2Proof.Machine.arriveAll
    split
    · exact ih (h.arrive ‹_›)
    · exact ih h

theorem BoundedList.align {xs : List Contribution} (h : BoundedList xs) (waiting : List Nat) (base : Wanted)
    (mixed : List (Nat × Claim)) : BoundedList (align xs waiting base mixed).1 := by
  have gone := h.departures base mixed
  refine BoundedList.arriveAll ?_
  unfold arriveBase
  split
  · cases ha : Sys2Proof.Machine.arrive .base base (Sys2Proof.Machine.departures xs base mixed) with
    | none => exact gone
    | some ys => exact gone.arrive ha
  · exact gone

/-! ### Ramps (R52, R54) -/

theorem State.target_bounds (s : State) (z : Zone) (duck guard trim : Int) (c : Contribution) :
    -24 ≤ s.target z duck guard trim c ∧ s.target z duck guard trim c ≤ 360 := by
  unfold State.target
  repeat' split
  · decide
  · exact clampInt_bounds (by decide) _
  · decide
  · exact clampInt_bounds (by decide) _

theorem Ramp.rate_pos (r : Ramp) : 0 < r.rate := by cases r <;> decide

/-- What moves toward a target within bounds stays within them. -/
theorem approach_bounds {rate target a lo hi : Int} (hr : 0 ≤ rate) (ht : lo ≤ target ∧ target ≤ hi) (ha : lo ≤ a ∧ a ≤ hi) :
    lo ≤ approach rate target a ∧ approach rate target a ≤ hi := by
  unfold approach clampInt
  omega

theorem State.moveContribution_bounds (s : State) (z : Zone) (duck guard trim : Int) {c : Contribution}
    (h : -24 ≤ c.applied ∧ c.applied ≤ 360) : -24 ≤ (s.moveContribution z duck guard trim c).applied
      ∧ (s.moveContribution z duck guard trim c).applied ≤ 360 := by
  refine approach_bounds ?_ (s.target_bounds z duck guard trim c) h
  split <;> exact (Ramp.rate_pos _).le

theorem State.markFast_applied (s : State) (c : Contribution) : (s.markFast c).applied = c.applied := by
  unfold State.markFast
  split <;> rfl

/-! ### A sink's frame (R48, R61, R62) -/

theorem State.sums_length (s : State) (k : Nat) (o : Offers) (xs : List Contribution) : (s.sums k o xs).length = 48 := by
  have kept : ∀ (xs : List Contribution) (acc : List Int), acc.length = 48 → (xs.foldl (fun acc x =>
      List.zipWith (fun a p => a + product ((s.sideOf k).pick p) (gain (s.used (Zone.ofSink k) x.applied))) acc
        (fit 48 (0, 0) (o x.source))) acc).length = 48 := by
    intro xs
    induction xs with
    | nil => exact fun _ h => h
    | cons x xs ih => exact fun acc h => ih _ (by simp [h, fit])
  exact kept xs _ silentFrame_length

theorem Sink.fadeNow_le {x : Sink} (h : x.fade ≤ 360) : x.fadeNow ≤ 360 := by
  unfold Sink.fadeNow
  split <;> omega

theorem sinkKept_takeClip (x : Sink) (clip : Bool) : SinkKept x (x.takeClip clip) := by
  unfold Sink.takeClip
  split <;> exact ⟨id, id, fun h => ⟨h.line, h.delay, h.pending⟩⟩

theorem sinkKept_send (x : Sink) {sums : List Int} (hs : ∀ y ∈ sums, inSample y) (silent : Bool) :
    SinkKept x (x.send sums silent) where
  bounded := id
  inRange h := by
    obtain ⟨line, computed, -, fade⟩ := h
    have all : ∀ y ∈ sums.reverse ++ x.line, inSample y := fun y hy => by
      obtain hy | hy := List.mem_append.1 hy
      · exact hs y (List.mem_reverse.1 hy)
      · exact line y hy
    have low := Sink.fadeNow_le fade
    obtain ⟨nonneg, -, le⟩ := gain_bounds (a := x.fadeNow) (by omega) (by omega)
    refine ⟨fun y hy => all y (List.mem_of_mem_take hy), fun y hy => ?_, computed, low⟩
    simp only [Sink.send] at hy
    split at hy
    · exact inSample_silentFrame y hy
    · obtain ⟨z, hz, rfl⟩ := List.mem_map.1 hy
      exact inSample_product (all z (List.mem_of_mem_drop (List.mem_of_mem_take (List.mem_reverse.1 hz)))) nonneg (le (by omega))
  sized h := ⟨by simp [Sink.send, h.line], h.delay, h.pending⟩

theorem sinkKept_mixSink (s : State) (o : Offers) (k : Nat) (x : Sink) : SinkKept x (s.mixSink o k x) := by
  unfold State.mixSink
  dsimp only
  refine .trans ?_ ((sinkKept_takeClip _ _).trans (sinkKept_send _ ?_ _))
  · refine ⟨fun h => ?_, id, fun h => ⟨h.line, h.delay, h.pending⟩⟩
    have marked : BoundedList (x.list.map s.markFast) := BoundedList.map h fun c hc => by rwa [s.markFast_applied]
    exact ((marked.align _ _ _).map fun c hc => s.moveContribution_bounds _ _ _ _ hc).filter _
  · intro y hy
    obtain ⟨z, -, rfl⟩ := List.mem_map.1 hy
    exact inSample_sat24 z

end Sys2Proof.Machine
end

section
namespace Sys2Proof.Machine

/-! ### What every step keeps of the Mix Engine and the Call Processor -/

/-- The Mix Engine's part of `State.sizesWf`. -/
structure Mix.Sized (m : Mix) : Prop where
  sinks : m.sinks.length = 20
  volumes : m.volumes.length = 5
  mutes : m.mutes.length = 7
  each : ∀ x ∈ m.sinks, x.Sized

/-- The canceller's part of `State.sizesWf`. -/
def Canceller.Sized (e : Canceller) : Prop := e.coeffs.length = 2048 ∧ e.history.length = 2048

/-- The Call Processor's part of `State.sizesWf`. -/
def Call.Sized (c : Call) : Prop := c.echo.Sized ∧ c.recent.length = 4

/-- The headphone cap lies in its range (R141). -/
def Stations.Capped (x : Stations) : Prop := 0 ≤ x.cap ∧ x.cap ≤ 120

theorem State.sizesWf_iff (s : State) : s.sizesWf ↔ s.mix.Sized ∧ s.stations.Capped ∧ s.call.Sized := by
  refine ⟨?_, ?_⟩
  · rintro ⟨sinks, volumes, mutes, each, low, high, coeffs, history, recent⟩
    exact ⟨⟨sinks, volumes, mutes, fun x hx => ⟨(each x hx).1, (each x hx).2.1, (each x hx).2.2⟩⟩, ⟨low, high⟩,
      ⟨coeffs, history⟩, recent⟩
  · rintro ⟨⟨sinks, volumes, mutes, each⟩, ⟨low, high⟩, ⟨coeffs, history⟩, recent⟩
    exact ⟨sinks, volumes, mutes, fun x hx => ⟨(each x hx).line, (each x hx).delay, (each x hx).pending⟩, low, high, coeffs,
      history, recent⟩

/-- State `t`, made of state `s`, keeps the bounds of the contributions and samples, and the sizes. -/
structure MixKept (s t : State) : Prop where
  bounded : s.mix.bounded → t.mix.bounded
  inRange : s.mix.inRange → t.mix.inRange
  sized : s.mix.Sized → t.mix.Sized
  capped : s.stations.Capped → t.stations.Capped
  call : s.call.Sized → t.call.Sized

theorem MixKept.refl (s : State) : MixKept s s := ⟨id, id, id, id, id⟩

theorem MixKept.trans {s t u : State} (h : MixKept s t) (k : MixKept t u) : MixKept s u :=
  ⟨k.bounded ∘ h.bounded, k.inRange ∘ h.inRange, k.sized ∘ h.sized, k.capped ∘ h.capped, k.call ∘ h.call⟩

theorem MixKept.ite {s t u : State} {c : Prop} [Decidable c] (h : MixKept s t) (k : MixKept s u) :
    MixKept s (if c then t else u) := by split <;> assumption

theorem MixKept.foldl {α : Type} (f : State → α → State) (hf : ∀ s a, MixKept s (f s a)) (xs : List α) (s : State) :
    MixKept s (xs.foldl f s) := by
  induction xs generalizing s with
  | nil => exact .refl s
  | cons a xs ih => exact (hf s a).trans (ih _)

theorem MixKept.of_same {s t : State} (hm : t.mix = s.mix) (hs : t.stations.cap = s.stations.cap) (hc : t.call = s.call) :
    MixKept s t := by
  refine ⟨?_, ?_, ?_, ?_, ?_⟩ <;> simp [hm, hc, Stations.Capped, hs]

/-- The blocks that none of this reads. -/
def unmixed : List Block := [.clock, .ports, .table, .tunA, .tunB, .radio, .traffic, .shift, .chime, .store, .power]

theorem MixKept.of_happens {bs : List Block} {s t : State} (h : Happens bs s t) (hs : bs ⊆ unmixed) : MixKept s t := by
  have same : ∀ b, b ∉ Block.links :: unmixed → s.sameBlock t b := fun b hb =>
    h.blocks.2 b fun k => hb (List.cons_subset_cons _ hs k)
  have mix : t.mix = s.mix := same .mix (by decide)
  have stations : t.stations = s.stations := same .stations (by decide)
  exact .of_same mix (stations ▸ rfl) (same .call (by decide))

/-! ### One update -/

theorem mixKept_withTraffic (s : State) (x : Traffic) : MixKept s (s.withTraffic x) := .of_same rfl rfl rfl
theorem mixKept_withShift (s : State) (x : ShiftBuffer) : MixKept s (s.withShift x) := .of_same rfl rfl rfl
theorem mixKept_withTunA (s : State) (x : TunerA) : MixKept s (s.withTunA x) := .of_same rfl rfl rfl
theorem mixKept_withTunB (s : State) (x : TunerB) : MixKept s (s.withTunB x) := .of_same rfl rfl rfl
theorem mixKept_withRadio (s : State) (x : Radio) : MixKept s (s.withRadio x) := .of_same rfl rfl rfl
theorem mixKept_withChime (s : State) (x : Chime) : MixKept s (s.withChime x) := .of_same rfl rfl rfl
theorem mixKept_withStore (s : State) (x : Store) : MixKept s (s.withStore x) := .of_same rfl rfl rfl
theorem mixKept_withPower (s : State) (x : Power) : MixKept s (s.withPower x) := .of_same rfl rfl rfl
theorem mixKept_withPorts (s : State) (x : Ports) : MixKept s (s.withPorts x) := .of_same rfl rfl rfl
theorem mixKept_withTable (s : State) (x : ClaimTable) : MixKept s (s.withTable x) := .of_same rfl rfl rfl
theorem mixKept_withLinks (s : State) (x : PerLink LinkState) : MixKept s (s.withLinks x) := .of_same rfl rfl rfl
theorem mixKept_setLink (s : State) (l : Link) (x : LinkState) : MixKept s (s.setLink l x) := .of_same rfl rfl rfl
theorem mixKept_setSlot (s : State) (l : Link) (x : Slot) : MixKept s (s.setSlot l x) := .of_same rfl rfl rfl
theorem mixKept_shiftOut (s : State) (l : Link) (n : Nat) (r : Reply) : MixKept s (s.shiftOut l n r) := .of_same rfl rfl rfl
theorem mixKept_setPosted (s : State) (r : Nat) (x : Bool) : MixKept s (s.setPosted r x) := .of_same rfl rfl rfl
theorem mixKept_setClaim (s : State) (h : Nat) (c : Option Claim) : MixKept s (s.setClaim h c) := .of_same rfl rfl rfl
theorem mixKept_changeClaim (s : State) (h : Nat) (f : Claim → Claim) : MixKept s (s.changeClaim h f) := .of_same rfl rfl rfl
theorem mixKept_notice (s : State) (l : Link) (c : Nat) : MixKept s (s.notice l c) := .of_same rfl rfl rfl
theorem mixKept_advise (s : State) (l : Link) (a : Advisory) : MixKept s (s.advise l a) := .of_same rfl rfl rfl
theorem mixKept_riseAll (s : State) (c : Nat) : MixKept s (s.riseAll c) := .of_happens (happens_riseAll s c) (by simp)
theorem mixKept_offerEdges (b s : State) : MixKept s (State.offerEdges b s) := .of_happens (happens_offerEdges b s) (by simp)

theorem mixKept_withStations (s : State) (x : Stations) (h : s.stations.Capped → x.Capped) : MixKept s (s.withStations x) :=
  ⟨id, id, id, h, id⟩

theorem mixKept_setStation (s : State) (st : StationId) (x : Station) : MixKept s (s.setStation st x) := by
  cases st <;> exact .of_same rfl rfl rfl

theorem mixKept_withCall (s : State) (c : Call) (h : s.call.Sized → c.Sized) : MixKept s (s.withCall c) :=
  ⟨id, id, id, id, h⟩

/-- A call changed in other fields than the canceller and the conference's samples. -/
theorem mixKept_setCall (s : State) (c : Call) (he : c.echo = s.call.echo) (hr : c.recent = s.call.recent) :
    MixKept s (s.withCall c) := mixKept_withCall s c fun h => by rwa [Call.Sized, he, hr]

theorem mixKept_withEcho (s : State) (e : Canceller) (h : s.call.echo.Sized → e.Sized) : MixKept s (s.withEcho e) :=
  mixKept_withCall s _ fun k => ⟨h k.1, k.2⟩

/-- A Mix Engine changed in other lists than the sinks, these of the same length. -/
theorem mixKept_withMix (s : State) (x : Mix) (hs : x.sinks = s.mix.sinks) (hv : x.volumes.length = s.mix.volumes.length)
    (hm : x.mutes.length = s.mix.mutes.length) : MixKept s (s.withMix x) :=
  ⟨fun h => by simpa [Mix.bounded, hs] using h, fun h => by simpa [Mix.inRange, hs] using h,
    fun h => ⟨hs ▸ h.sinks, hv.trans h.volumes, hm.trans h.mutes, hs ▸ h.each⟩, id, id⟩

/-- Every sink is replaced by one that is kept of it. -/
theorem mixKept_mapSinks (s : State) (xs : List Sink) (hl : xs.length = s.mix.sinks.length)
    (hx : ∀ y ∈ xs, ∃ x ∈ s.mix.sinks, SinkKept x y) : MixKept s (s.withMix { s.mix with sinks := xs }) where
  bounded h y hy := by
    obtain ⟨x, hx, k⟩ := hx y hy
    exact k.bounded (h x hx)
  inRange h y hy := by
    obtain ⟨x, hx, k⟩ := hx y hy
    exact k.inRange (h x hx)
  sized h := ⟨hl.trans h.sinks, h.volumes, h.mutes, fun y hy => by
    obtain ⟨x, hx, k⟩ := hx y hy
    exact k.sized (h.each x hx)⟩
  capped := id
  call := id

theorem mixKept_setSink (s : State) (k : Nat) (x : Sink) (h : SinkKept (s.sink k) x) : MixKept s (s.setSink k x) := by
  refine mixKept_mapSinks s _ List.length_set fun y hy => ?_
  by_cases hk : k < s.mix.sinks.length
  · obtain hy | rfl := List.mem_or_eq_of_mem_set hy
    · exact ⟨y, hy, .refl y⟩
    · refine ⟨s.mix.sinks[k], List.getElem_mem hk, ?_⟩
      rwa [State.sink, List.getD_eq_getElem _ _ hk] at h
  · rw [List.set_eq_of_length_le (not_lt.1 hk)] at hy
    exact ⟨y, hy, .refl y⟩

theorem mixKept_mixFrame (s : State) (o : Offers) : MixKept s (s.mixFrame o) := by
  refine mixKept_mapSinks s _ (by simp) fun y hy => ?_
  obtain ⟨⟨x, k⟩, hx, rfl⟩ := List.mem_map.1 hy
  exact ⟨x, (List.mem_zipIdx' hx).2 ▸ List.getElem_mem _, sinkKept_mixSink s o k x⟩

/-! ### What the frames of the shared operations give -/

theorem mixKept_reach (s : State) (t : Time) : MixKept s (s.reach t) := .of_happens (happens_reach s t) (by decide)
theorem mixKept_post (s : State) (h : Nat) (c : Claim) : MixKept s (s.post h c) := .of_happens (happens_post s h c) (by decide)
theorem mixKept_tableChanged (s : State) : MixKept s s.tableChanged := .of_happens (happens_tableChanged s) (by decide)
theorem mixKept_considerMemo (s : State) (t : TunerId) : MixKept s (s.considerMemo t) :=
  .of_happens (happens_considerMemo s t) (by decide)
theorem mixKept_startCapture (s : State) (st : ShiftState) (p : Purpose) (c : Option PauseCause) (t : TunerId) :
    MixKept s (s.startCapture st p c t) := .of_happens (happens_startCapture s st p c t) (by decide)
theorem mixKept_shiftOff (s : State) : MixKept s s.shiftOff := .of_happens (happens_shiftOff s) (by decide)
theorem mixKept_discard (s : State) (c : DiscardCause) : MixKept s (s.discard c) := .of_happens (happens_discard s c) (by decide)
theorem mixKept_retuned (s : State) (t : TunerId) : MixKept s (s.retuned t) := .of_happens (happens_retuned s t) (by decide)
theorem mixKept_tuneDone (s : State) (r : TuneCause × TuneResult) : MixKept s (s.tuneDone r) :=
  .of_happens (happens_tuneDone s r) (by decide)
theorem mixKept_enterB (s : State) (st : BState) (f : Option Freq) : MixKept s (s.enterB st f) :=
  .of_happens (happens_enterB s st f) (by decide)
theorem mixKept_startSweep (s : State) (st : BState) : MixKept s (s.startSweep st) :=
  .of_happens (happens_startSweep s st) (by decide)
theorem mixKept_reassess (s : State) : MixKept s s.reassess := .of_happens (happens_reassess s) (by decide)
theorem mixKept_retuneA (s : State) (f : Freq) (r : TuneCause × TuneResult) : MixKept s (s.retuneA f r) :=
  .of_happens (happens_retuneA s f r) (by decide)
theorem mixKept_enterRun (s : State) (c : EntryCause) : MixKept s (s.enterRun c) := .of_happens (happens_enterRun s c) (by decide)
theorem mixKept_wake (s : State) (on : Bool) (c : EntryCause) : MixKept s (s.wake on c) :=
  .of_happens (happens_wake s on c) (by decide)

end Sys2Proof.Machine
end

section
namespace Sys2Proof.Machine

/-! ### The events of the ports and the tuners -/

theorem mixKept_withTracker (s : State) (p : Port) (t : Tracker) : MixKept s (s.withTracker p t) :=
  .of_happens (happens_withTracker s p t) (by decide)

theorem mixKept_takeSync (s : State) (gap : Time) (set : PortFrame) : MixKept s (s.takeSync gap set) := by
  unfold State.takeSync
  have sent : ∀ u : State, MixKept u (match PortFrame.port set with | .p2 => u.withPorts u.ports.sendUplink | .p0 | .p1 => u) :=
    fun u => by cases PortFrame.port set <;> exact .of_same rfl rfl rfl
  exact .ite (.refl s) ((mixKept_reach s _).trans ((mixKept_withTracker _ _ _).trans (sent _)))

theorem mixKept_takeOverdue (s : State) (p : Port) : MixKept s (s.takeOverdue p) := by
  unfold State.takeOverdue
  have slipped : ∀ t p x, MixKept s ((s.reach t).withTracker p x) := fun t p x =>
    (mixKept_reach s t).trans (mixKept_withTracker _ p x)
  refine .ite (.refl s) ?_
  split
  · exact .refl s
  · exact .ite (.refl s) (slipped _ _ _)
  all_goals exact slipped _ _ _

theorem mixKept_takeGiveUp (s : State) (p : Port) : MixKept s (s.takeGiveUp p) :=
  .ite ((mixKept_reach s _).trans (mixKept_withTracker _ _ _)) (.refl s)

theorem mixKept_takeHoldoverTimeout (s : State) (p : Port) : MixKept s (s.takeHoldoverTimeout p) := by
  unfold State.takeHoldoverTimeout
  exact .ite ((mixKept_reach s _).trans ((mixKept_withTracker _ _ _).trans
    (.foldl _ (fun s l => mixKept_advise s l _) _ _))) (.refl s)

theorem mixKept_seek (s : State) (d : Direction) : MixKept s (s.seek d) := by
  unfold State.seek
  dsimp only
  split
  · exact mixKept_retuneA _ _ _
  · exact ((mixKept_withTunA s _).trans (mixKept_retuned _ _)).trans (mixKept_reassess _)

theorem mixKept_walkMeasured (s : State) (m : Meas) : MixKept s (s.walkMeasured m) :=
  .trans (mixKept_withTunA s _) (.ite (mixKept_retuneA _ _ _) (.refl _))

theorem mixKept_walkOn (s : State) : MixKept s s.walkOn := by
  unfold State.walkOn
  split
  · exact .ite (mixKept_retuneA _ _ _) (mixKept_withTunA _ _)
  · exact .refl s

theorem mixKept_seekChannelEnd (s : State) (m : Option Meas) : MixKept s (s.seekChannelEnd m) := by
  unfold State.seekChannelEnd
  refine .ite (.refl s) (.trans (mixKept_reach s (s.tunA.rx.since + milliseconds 8)) ?_)
  cases m with
  | none => exact .ite (mixKept_walkOn _) (.refl _)
  | some m => exact (mixKept_walkMeasured _ m).trans (.ite (mixKept_walkOn _) (.refl _))

theorem mixKept_considerSwitch (s : State) : MixKept s s.considerSwitch := by
  unfold State.considerSwitch
  refine .ite (.refl s) (.ite ?_ ?_)
  all_goals split <;> exact mixKept_withTunA _ _

theorem mixKept_measuredA (s : State) (m : Meas) : MixKept s (s.measuredA m) := by
  unfold State.measuredA
  split
  · exact (mixKept_reach s _).trans (.trans (mixKept_withTunA _ _)
      (.trans (mixKept_withTunA _ _) (.ite (mixKept_considerSwitch _) (.refl _))))
  · exact .ite ((mixKept_reach s _).trans (mixKept_withTunA _ _)) (.refl s)
  · exact .ite ((mixKept_reach s _).trans (mixKept_withTunA _ _)) (.refl s)
  · exact (mixKept_reach s _).trans (mixKept_walkMeasured _ _)
  all_goals exact .refl s

theorem mixKept_measuredB (s : State) (m : Meas) : MixKept s (s.measuredB m) :=
  .ite ((mixKept_reach s _).trans (mixKept_withTunB _ _)) (.ite ((mixKept_reach s _).trans (mixKept_withTunB _ _)) (.refl s))

theorem mixKept_settledA (s : State) (m : Meas) : MixKept s (s.settledA m) := by
  unfold State.settledA
  split
  · refine .trans (mixKept_reach s (s.tunA.rx.since + milliseconds 12)) ?_
    dsimp only
    split
    · exact (mixKept_withTunA _ _).trans (mixKept_tuneDone _ _)
    · exact mixKept_withTunA _ _
  · exact .ite (.refl s) ((mixKept_reach s _).trans (mixKept_withTunA _ _))
  all_goals exact .refl s

theorem mixKept_settledB (s : State) (m : Meas) : MixKept s (s.settledB m) :=
  .ite ((mixKept_reach s _).trans (mixKept_withTunB _ _)) (.refl s)

theorem mixKept_failVerify (s : State) : MixKept s s.failVerify := by
  have rejected : MixKept s s.rejectCandidate := by
    unfold State.rejectCandidate
    refine .ite (mixKept_withRadio _ _) ?_
    split
    · exact mixKept_withRadio _ _
    · exact .refl s
  exact rejected.trans (.of_same rfl rfl rfl)

theorem mixKept_judgeIdentity (s : State) : MixKept s s.judgeIdentity := by
  unfold State.judgeIdentity
  split
  · exact .ite ((mixKept_withTunA s _).trans (mixKept_tuneDone _ _)) (mixKept_failVerify _)
  · exact .refl s

theorem mixKept_prefadeEnd (s : State) : MixKept s s.prefadeEnd := by
  unfold State.prefadeEnd
  exact .ite (.refl s) ((mixKept_reach s _).trans (.ite (mixKept_withTunA _ _) (mixKept_withTunA _ _)))

theorem mixKept_checkMeasured (s : State) (m : Meas) : MixKept s (s.checkMeasured m) := by
  unfold State.checkMeasured
  exact .ite ((mixKept_reach s _).trans
    (.ite ((mixKept_withTunA _ _).trans (mixKept_judgeIdentity _)) (mixKept_withTunA _ _))) (.refl s)

theorem mixKept_gapEnded (s : State) : MixKept s s.gapEnded :=
  .ite ((mixKept_reach s _).trans (mixKept_withTunA _ _)) (.refl s)

theorem mixKept_verifyTimedOut (s : State) : MixKept s s.verifyTimedOut :=
  .ite ((mixKept_reach s _).trans (mixKept_failVerify _)) (.refl s)

theorem mixKept_groupA (s : State) (g : DataGroup) : MixKept s (s.groupA g) :=
  .ite ((mixKept_withTunA s _).trans (mixKept_judgeIdentity _)) (.refl s)

theorem mixKept_groupB (s : State) (g : DataGroup) : MixKept s (s.groupB g) := .ite (mixKept_withTunB _ _) (.refl s)

theorem mixKept_dataLapsed (s : State) (t : TunerId) : MixKept s (s.dataLapsed t) := by
  have lapsed : ∀ (u : State) (r : Receiver), MixKept u (u.setReceiver t r) := fun u r => by
    cases t <;> exact .of_same rfl rfl rfl
  exact .ite (.refl s) ((mixKept_reach s _).trans (lapsed _ _))

theorem mixKept_changedList (s : State) (xs : List Entry) : MixKept s (s.changedList xs) := .of_same rfl rfl rfl

theorem mixKept_updateChannel (s : State) : MixKept s s.updateChannel := by
  unfold State.updateChannel
  dsimp only
  split
  · exact .ite (.ite (mixKept_changedList _ _) (mixKept_withRadio _ _)) (mixKept_withRadio _ _)
  · refine .ite ?_ (.refl s)
    split
    · exact mixKept_changedList _ _
    · exact .refl s

theorem mixKept_endSweep (s : State) : MixKept s s.endSweep := by
  unfold State.endSweep
  dsimp only
  generalize hu : (if (_ || s.tunB.changed) = true then _ else _) = u
  have told : MixKept s u := hu ▸ .ite ((mixKept_withRadio _ _).trans (mixKept_riseAll _ _)) (mixKept_withRadio _ _)
  exact told.trans (.ite (mixKept_startSweep _ _) ((mixKept_enterB u .off none).trans (.ite (mixKept_withPower _ _) (.refl _))))

theorem mixKept_sweepOn (s : State) : MixKept s s.sweepOn := by
  unfold State.sweepOn
  split
  · exact mixKept_withTunB _ _
  · exact mixKept_endSweep s

theorem mixKept_sweepChannelEnd (s : State) (m : Option Meas) : MixKept s (s.sweepChannelEnd m) := by
  unfold State.sweepChannelEnd
  refine .ite (.refl s) (.trans (mixKept_reach s (s.tunB.rx.since + milliseconds (if s.tunB.dwell then 400 else 8))) ?_)
  generalize s.reach (s.tunB.rx.since + milliseconds (if s.tunB.dwell then 400 else 8)) = u
  have measured : MixKept u
      (match m with | some m => u.withTunB { u.tunB with rx := u.tunB.rx.measure m u.clock.now } | none => u) := by
    cases m <;> exact .of_same rfl rfl rfl
  exact measured.trans (.ite (mixKept_withTunB _ _) ((mixKept_updateChannel _).trans (mixKept_sweepOn _)))

theorem mixKept_countRejections (s : State) : MixKept s s.countRejections := (mixKept_reach s _).trans (mixKept_withRadio _ _)

/-! ### The Traffic and Shift Unit -/

theorem mixKept_memoTurnedOn (s : State) : MixKept s s.memoTurnedOn := by
  unfold State.memoTurnedOn
  split
  · exact mixKept_considerMemo _ _
  · exact .refl s

theorem mixKept_setTraffic (s : State) (on memo : Bool) : MixKept s (s.setTraffic on memo) := by
  unfold State.setTraffic
  dsimp only
  have assessed : MixKept s (s.withTraffic { s.traffic with on := on, memo := memo }).reassess :=
    (mixKept_withTraffic s _).trans (mixKept_reassess _)
  generalize (s.withTraffic { s.traffic with on := on, memo := memo }).reassess = u at assessed ⊢
  have dropped : MixKept s
      (if s.traffic.on && !on && u.shift.purpose = some .memo then u.discard .trafficOff else u) :=
    .ite (assessed.trans (mixKept_discard _ _)) assessed
  exact .ite (dropped.trans (mixKept_memoTurnedOn _)) dropped

theorem mixKept_resumeReplay (s : State) : MixKept s s.resumeReplay := .of_same rfl rfl rfl

theorem mixKept_eligibleExpired (s : State) : MixKept s s.eligibleExpired := by
  unfold State.eligibleExpired
  split
  · exact (mixKept_reach s _).trans ((mixKept_withTraffic _ _).trans (mixKept_reassess _))
  · exact .refl s

theorem mixKept_replayDrained (s : State) : MixKept s s.replayDrained := .ite (mixKept_shiftOff s) (.refl s)

theorem mixKept_memoReplayEnded (s : State) : MixKept s s.memoReplayEnded :=
  .ite ((mixKept_shiftOff s).trans ((mixKept_setClaim _ _ _).trans (mixKept_tableChanged _))) (.refl s)

/-! ### The rear stations -/

theorem mixKept_setHolder (s : State) (h : Option StationId) : MixKept s (s.setHolder h) := mixKept_withTunB _ _

theorem mixKept_setGrace (s : State) (st : StationId) (g : Option Time) : MixKept s (s.setGrace st g) := mixKept_setStation _ _ _

theorem mixKept_endHolding (s : State) : MixKept s s.endHolding := by
  unfold State.endHolding
  split
  · exact .refl s
  · exact (mixKept_setGrace s _ none).trans (.ite ((mixKept_setHolder _ _).trans (mixKept_setGrace _ _ _))
      ((mixKept_setHolder _ _).trans (mixKept_reassess _)))

theorem mixKept_lend (s : State) (st : StationId) (f : Freq) : MixKept s (s.lend st f) := by
  unfold State.lend
  have lent : MixKept s (if s.tunB.holder = some st then s else (s.setHolder (some st)).setGrace st (s.graceOf st)) :=
    .ite (.refl s) ((mixKept_setHolder _ _).trans (mixKept_setGrace _ _ _))
  exact lent.trans ((mixKept_enterB _ _ _).trans (mixKept_reassess _))

theorem mixKept_setSource (s : State) (st : StationId) (src : Source) : MixKept s (s.setSource st src) :=
  .ite ((mixKept_setStation s st _).trans (mixKept_endHolding _)) (mixKept_setStation s st _)

theorem mixKept_inserted (s : State) (st : StationId) : MixKept s (s.inserted st) :=
  .ite (.refl s) ((mixKept_setStation _ _ _).trans ((mixKept_setStation _ _ _).trans (mixKept_wake _ _ _)))

theorem mixKept_graceExpired (s : State) (st : StationId) : MixKept s (s.graceExpired st) := by
  unfold State.graceExpired
  split
  · exact .ite ((mixKept_reach s _).trans (mixKept_endHolding _)) (.refl s)
  · exact .refl s

end Sys2Proof.Machine
end

section
namespace Sys2Proof.Machine

/-! ### The echo canceller's sizes (R128) -/

theorem noCoeffs_length : noCoeffs.length = 2048 := List.length_replicate (n := 2048)

theorem Canceller.stop_sized (e : Canceller) : e.stop.Sized := ⟨noCoeffs_length, List.length_replicate (n := 2048)⟩

theorem Canceller.Sized.engage {e : Canceller} (h : e.Sized) : e.engage.Sized := by
  unfold Canceller.engage
  split
  · exact ⟨noCoeffs_length, h.2⟩
  · exact h

theorem Canceller.Sized.reset {e : Canceller} (h : e.Sized) : e.reset.Sized := by
  unfold Canceller.reset
  split
  · exact h
  · exact ⟨noCoeffs_length, h.2⟩

theorem Canceller.Sized.judge {e : Canceller} (h : e.Sized) : e.judge.Sized := by
  unfold Canceller.judge
  dsimp only
  repeat' split
  any_goals exact h
  all_goals exact ⟨noCoeffs_length, h.2⟩

theorem Canceller.Sized.sample {e : Canceller} (h : e.Sized) (muted : Bool) (x m : Int) : (e.sample muted x m).2.Sized := by
  obtain ⟨coeffs, history⟩ := h
  have moved : (x :: e.history.dropLast).length = 2048 := by simp [history]
  unfold Canceller.sample
  dsimp only
  split
  · refine ⟨?_, moved⟩
    simp only [Canceller.adapt, List.length_zipWith, coeffs, moved, Nat.min_self]
  · exact ⟨coeffs, moved⟩

theorem Canceller.Sized.samples {e : Canceller} (h : e.Sized) (muted : Bool) (xs ms : List Int) :
    (e.samples muted xs ms).2.Sized := by
  induction xs generalizing e ms with
  | nil => exact h
  | cons x xs ih =>
    cases ms with
    | nil => exact h
    | cons m ms => exact ih (h.sample muted x m) ms

theorem noRecent_length : noRecent.length = 4 := List.length_replicate (n := 4)

/-! ### The call (R36, R118) -/

theorem mixKept_resetEcho (s : State) : MixKept s s.resetEcho := mixKept_withEcho s _ Canceller.Sized.reset

theorem mixKept_stopEcho (s : State) : MixKept s (s.withEcho s.call.echo.stop) :=
  mixKept_withEcho s _ fun _ => Canceller.stop_sized _

theorem mixKept_engageEcho (s : State) : MixKept s (s.withEcho s.call.echo.engage) := mixKept_withEcho s _ Canceller.Sized.engage

theorem mixKept_windowJudged (s : State) : MixKept s s.windowJudged :=
  .ite (mixKept_withEcho s _ Canceller.Sized.judge) (.refl s)

theorem mixKept_followCallClaim (s : State) (was is : CallPhase) : MixKept s (s.followCallClaim was is) :=
  .ite (mixKept_setClaim _ _ _) (.ite (mixKept_post _ _ _) (mixKept_changeClaim _ _ _))

theorem mixKept_enterCall (s : State) (p : CallPhase) : MixKept s (s.enterCall p) := by
  unfold State.enterCall
  have claimed : MixKept s ((s.withCall { s.call with state := p }).followCallClaim s.call.state p).tableChanged :=
    (mixKept_setCall s { s.call with state := p } rfl rfl).trans
      ((mixKept_followCallClaim _ _ _).trans (mixKept_tableChanged _))
  refine claimed.trans ?_
  dsimp only
  split
  · exact mixKept_stopEcho _
  · exact (mixKept_engageEcho _).trans (.ite (mixKept_startCapture _ _ _ _ _) (.refl _))
  · exact mixKept_engageEcho _
  · exact (mixKept_stopEcho _).trans (.ite (mixKept_resumeReplay _) (.refl _))

theorem mixKept_chooseMic (s : State) : MixKept s s.chooseMic :=
  .ite (.refl s) ((mixKept_setCall s { s.call with mic := s.micChoice } rfl rfl).trans (mixKept_resetEcho _))

theorem mixKept_placeCall (s : State) (p : Placement) : MixKept s (s.placeCall p) := by
  unfold State.placeCall
  refine (mixKept_setCall s { s.call with placement := p } rfl rfl).trans ?_
  generalize s.withCall { s.call with placement := p } = u
  have claimed : MixKept u (if u.call.state = .idle then u
      else (u.changeClaim callHandle fun c => { c with zones := placementZones p }).tableChanged) :=
    .ite (.refl u) ((mixKept_changeClaim u _ _).trans (mixKept_tableChanged _))
  exact claimed.trans ((mixKept_chooseMic _).trans (mixKept_resetEcho _))

theorem mixKept_placementFallback (s : State) (st : StationId) : MixKept s (s.placementFallback st) :=
  .ite (mixKept_placeCall _ _) ((mixKept_placeCall _ _).trans ((mixKept_advise _ _ _).trans (mixKept_advise _ _ _)))

theorem mixKept_setClass (s : State) (st : StationId) (c : JackClass) : MixKept s (s.setClass st c) := by
  unfold State.setClass
  exact .ite (.refl s) ((mixKept_setStation s st { s.station st with jack := c }).trans
    (.ite (.refl _) (.ite (mixKept_placementFallback _ _) (mixKept_chooseMic _))))

theorem mixKept_removed (s : State) (st : StationId) : MixKept s (s.removed st) := by
  unfold State.removed
  have opened := (mixKept_setStation s st { s.station st with inserted := false, measuring := false }).trans
    (mixKept_setClass _ st .vacant)
  exact .ite (.refl s) (.ite (opened.trans (mixKept_setGrace _ _ _)) opened)

theorem mixKept_measured (s : State) (st : StationId) (load1 load2 : Nat) (mic : Bool) :
    MixKept s (s.measured st load1 load2 mic) := by
  unfold State.measured
  exact .ite (.refl s) ((mixKept_reach s _).trans ((mixKept_setStation _ _ _).trans (mixKept_setClass _ _ _)))

end Sys2Proof.Machine
end

section
namespace Sys2Proof.Machine

/-! ### The voices (R158, R159) -/

theorem mixKept_setVoice (s : State) (n : Nat) (v : Voice) : MixKept s (s.setVoice n v) := mixKept_withChime _ _

theorem mixKept_postVoice (s : State) (n : Fin 4) : MixKept s (s.postVoice n) := mixKept_setPosted _ _ _

theorem mixKept_keepRequest (s : State) (n : Fin 4) : MixKept s (s.keepRequest n) := .ite (.refl s) (mixKept_setPosted _ _ _)

theorem mixKept_requestEnded (s : State) (r : Request) (c : EndCause) : MixKept s (s.requestEnded r c) := .of_same rfl rfl rfl

theorem mixKept_startVoice (s : State) (n : Fin 4) (r : Request) (d : Descriptor) : MixKept s (s.startVoice n r d) := by
  unfold State.startVoice
  exact (mixKept_withChime s _).trans ((mixKept_setVoice _ _ _).trans ((mixKept_post _ _ _).trans
    ((mixKept_tableChanged _).trans (mixKept_postVoice _ _))))

theorem mixKept_stopVoice (s : State) (n : Fin 4) (c : EndCause) : MixKept s (s.stopVoice n c) :=
  .ite ((mixKept_setVoice _ _ _).trans ((mixKept_changeClaim _ _ _).trans (mixKept_keepRequest _ _))) (.refl s)

theorem mixKept_takeQueue (n : Fin 4) (rs : List Request) (s : State) : MixKept s (State.takeQueue n rs s) := by
  induction rs generalizing s with
  | nil => exact .refl s
  | cons r rest ih =>
    unfold State.takeQueue
    refine (mixKept_withChime s { s.chime with queue := rest }).trans ?_
    dsimp only
    split
    · exact mixKept_startVoice _ _ _ _
    · exact (mixKept_requestEnded _ _ _).trans (ih _)

theorem mixKept_takeNext (s : State) (n : Fin 4) (r : Option Request) : MixKept s (s.takeNext n r) := by
  unfold State.takeNext
  split
  · split
    · exact mixKept_startVoice _ _ _ _
    · exact (mixKept_requestEnded _ _ _).trans (mixKept_takeQueue _ _ _)
  · exact mixKept_takeQueue _ _ _

theorem mixKept_endVoice (s : State) (n : Fin 4) (c : EndCause) : MixKept s (s.endVoice n c) := by
  unfold State.endVoice
  have reported : ∀ u : State, MixKept u
      (match (s.voice n.val).starter, (s.voice n.val).desc with
        | some l, some d =>
          if (s.voice n.val).cause = some EndCause.reset then u.setEnded l ⟨d, some n, c⟩ else u.chimeEnded l ⟨d, some n, c⟩
        | _, _ => u) := fun u => by
    split
    · exact .ite (.of_same rfl rfl rfl) (.of_same rfl rfl rfl)
    · exact .refl u
  exact (mixKept_setClaim s _ none).trans ((mixKept_tableChanged _).trans ((reported _).trans
    ((mixKept_setVoice _ _ _).trans (mixKept_keepRequest _ _))))

theorem mixKept_reachIdle (s : State) (n : Fin 4) : MixKept s (s.reachIdle n) :=
  .ite ((mixKept_endVoice _ _ _).trans (mixKept_takeNext _ _ _)) (.refl s)

theorem mixKept_chainStep (s : State) (n : Fin 4) (d : Descriptor) (next : Option Nat) : MixKept s (s.chainStep n d next) := by
  unfold State.chainStep
  dsimp only
  split
  · split
    · exact (mixKept_setVoice _ _ _).trans ((mixKept_changeClaim _ _ _).trans (mixKept_tableChanged _))
    · exact mixKept_stopVoice _ _ _
  · exact mixKept_stopVoice _ _ _

theorem mixKept_playEnded (s : State) (n : Fin 4) : MixKept s (s.playEnded n) := by
  unfold State.playEnded
  dsimp only
  split
  · rename_i d _
    refine .ite (.trans (mixKept_setVoice s n.val ((s.voice n.val).restarted d.mode)) (.trans ?_ (mixKept_keepRequest _ n)))
      (.refl s)
    split
    · exact mixKept_setVoice _ _ _
    · split
      · exact mixKept_setVoice _ _ _
      · split
        · exact mixKept_chainStep _ _ _ _
        · exact mixKept_stopVoice _ _ _
  · exact .refl s

theorem mixKept_gapOver (s : State) (n : Fin 4) : MixKept s (s.gapOver n) := by
  unfold State.gapOver
  dsimp only
  split
  · exact .ite ((mixKept_setVoice _ _ _).trans (mixKept_postVoice _ _)) (.refl s)
  · exact .refl s

theorem mixKept_deadlinePassed (s : State) (n : Fin 4) : MixKept s (s.deadlinePassed n) := by
  unfold State.deadlinePassed
  dsimp only
  split
  · exact .ite ((mixKept_reach s _).trans (mixKept_stopVoice _ _ _)) (.refl s)
  · exact .refl s

theorem mixKept_cutVoice (s : State) (n : Fin 4) : MixKept s (s.cutVoice n) := by
  unfold State.cutVoice
  refine .ite (.refl s) ((mixKept_endVoice s n .power).trans ?_)
  dsimp only
  split
  · exact mixKept_requestEnded _ _ _
  · exact .refl _

theorem mixKept_cutChimes (s : State) : MixKept s s.cutChimes :=
  (MixKept.foldl _ mixKept_cutVoice _ s).trans ((mixKept_withChime _ { (State.chime _) with queue := [] }).trans
    (.foldl _ (fun s r => mixKept_requestEnded s r .power) _ _))

theorem mixKept_cancelSuccessor (s : State) (p : Request → Bool) (n : Fin 4) : MixKept s (s.cancelSuccessor p n) := by
  unfold State.cancelSuccessor
  split
  · exact .ite ((mixKept_setVoice s n.val { s.voice n.val with successor := none }).trans (mixKept_requestEnded _ _ _)) (.refl s)
  · exact .refl s

theorem mixKept_stopWhere (s : State) (v : Voice → Bool) (r : Request → Bool) (c : EndCause) : MixKept s (s.stopWhere v r c) := by
  unfold State.stopWhere
  have withdrawn : ∀ u : State, MixKept u (u.withdrawQueued r) := fun u =>
    (mixKept_withChime u _).trans (.foldl _ (fun s r => mixKept_requestEnded s r _) _ _)
  exact (MixKept.foldl _ (fun s n => .ite (mixKept_stopVoice s n c) (.refl s)) _ s).trans
    ((withdrawn _).trans (.foldl _ (fun s n => mixKept_cancelSuccessor s r n) _ _))

theorem mixKept_requestChime (s : State) (l : Link) (d : Nat) (x : Descriptor) : MixKept s (s.requestChime l d x).2 := by
  have preempted : ∀ n r, MixKept s (s.preempt n r) := fun n r => by
    have stopped : MixKept s ((s.stopVoice n .preempted).setVoice n.val
        { (s.stopVoice n .preempted).voice n.val with successor := some r }) :=
      (mixKept_stopVoice _ _ _).trans (mixKept_setVoice _ _ _)
    unfold State.preempt
    dsimp only
    split
    · exact stopped.trans (mixKept_advise _ _ _)
    · exact stopped
  unfold State.requestChime
  repeat' split
  · exact mixKept_withChime _ _
  · exact .refl s
  · exact mixKept_startVoice _ _ _ _
  · exact preempted _ _
  · exact mixKept_withChime _ _
  · exact .refl s

/-! ### The Sample Store -/

theorem mixKept_deliver (s : State) (l : Link) (ws : List Word) : MixKept s (s.deliver l ws) := by
  unfold State.deliver
  split
  · exact mixKept_setSlot _ _ _
  · exact .refl s

theorem mixKept_burst (s : State) (l : Link) (c : Channel) (x : Transfer) : MixKept s (s.burst l c x) := by
  unfold State.burst
  dsimp only
  generalize hu : State.setWaiting _ l _ = u
  have moved : MixKept s u := hu ▸ .of_same rfl rfl rfl
  have delivered : ∀ (b : Bool) (ws : List Word), MixKept s (if b then u.deliver l ws else u) := fun b ws =>
    .ite (moved.trans (mixKept_deliver _ _ _)) moved
  exact .ite ((delivered _ _).trans (mixKept_notice _ _ _)) (delivered _ _)

theorem mixKept_bulkTurns (l : Link) (n : Nat) (s : State) : MixKept s (State.bulkTurns l n s) := by
  have turned : ∀ s : State, MixKept s s.bulkTurn := fun s => by
    unfold State.bulkTurn
    split
    · exact .refl s
    · split
      · exact mixKept_burst _ _ _ _
      · exact .of_same rfl rfl rfl
  induction n generalizing s with
  | zero => exact .refl s
  | succ n ih => exact .ite ((turned s).trans (ih _)) (.refl s)

theorem mixKept_moveAll (s : State) (l : Link) : MixKept s (s.moveAll l) := mixKept_bulkTurns _ _ _

theorem mixKept_replyReady (s : State) (l : Link) : MixKept s (s.replyReady l) := by
  unfold State.replyReady
  refine .trans (mixKept_moveAll s l) ?_
  dsimp only
  split
  · exact .refl _
  · exact mixKept_setSlot _ _ _

theorem mixKept_moveBounds (s : State) (u0 u1 : Nat) : MixKept s (s.moveBounds u0 u1).2 := by
  unfold State.moveBounds
  dsimp only
  generalize hu : List.foldl _ _ Link.every = u
  have told : MixKept s u := by
    rw [← hu]
    exact (mixKept_withStore s _).trans ((mixKept_withChime _ _).trans
      (.foldl _ (fun t l => by exact .ite (.refl t) (mixKept_advise _ _ _)) _ _))
  exact .ite (told.trans (mixKept_discard _ _)) told

end Sys2Proof.Machine
end

section
namespace Sys2Proof.Machine

/-! ### The Mix Engine's orders and events -/

theorem sinkKept_requestDelay (x : Sink) {d : Nat} (hd : d ≤ 960) : SinkKept x (x.requestDelay d) := by
  have pending : ∀ st, SinkKept x { x with pendingDelay := some d, delayState := st } := fun st =>
    ⟨id, id, fun h => ⟨h.line, h.delay, fun e he => Option.some.inj he ▸ hd⟩⟩
  unfold Sink.requestDelay
  split
  · split
    · exact .refl x
    · exact pending _
  · exact ⟨id, id, fun h => ⟨h.line, h.delay, fun e he => Option.some.inj he ▸ hd⟩⟩
  · exact pending _

theorem mixKept_fadeOutEnd (s : State) (k : Nat) : MixKept s (s.fadeOutEnd k) := by
  unfold State.fadeOutEnd
  dsimp only
  have turned : SinkKept (s.sink k) { s.sink k with
      delay := (s.sink k).pendingDelay.getD (s.sink k).delay, pendingDelay := none, delayState := .fadeIn, faded := false } := by
    refine ⟨id, id, fun h => ⟨h.line, ?_, nofun⟩⟩
    cases hp : (s.sink k).pendingDelay with
    | none => exact h.delay
    | some d => exact h.pending d hp
  have moved := mixKept_setSink s k _ turned
  exact .ite (.ite (moved.trans (mixKept_resetEcho _)) moved) (.refl s)

theorem mixKept_fadeInEnd (s : State) (k : Nat) : MixKept s (s.fadeInEnd k) :=
  .ite (mixKept_setSink s k _ ⟨id, id, fun h => ⟨h.line, h.delay, h.pending⟩⟩) (.refl s)

theorem mixKept_releaseGuard (s : State) (k : Nat) : MixKept s (s.releaseGuard k) :=
  .ite (mixKept_setSink s k _ ⟨id, id, fun h => ⟨h.line, h.delay, h.pending⟩⟩) (.refl s)

theorem mixKept_speedGrowsStale (s : State) : MixKept s s.speedGrowsStale :=
  .ite (.refl s) ((mixKept_reach s _).trans (mixKept_withMix _ _ rfl rfl rfl))

theorem length_foldl_setZones {α : Type} (zs : ZoneSet) (g : List α → Zone → α) (zones : List Zone) (xs : List α) :
    (zones.foldl (fun xs z => if hasZone zs z then xs.set z.code (g xs z) else xs) xs).length = xs.length := by
  induction zones generalizing xs with
  | nil => rfl
  | cons z zones ih =>
    rw [List.foldl_cons, ih]
    split
    · exact List.length_set
    · rfl

theorem setVolumes_length (vs : List Int) (zs : ZoneSet) (v : Int) : (setVolumes vs zs v).length = vs.length :=
  length_foldl_setZones zs (fun _ _ => v) _ vs

theorem changeMutes_length (ms : List LinkSet) (zs : ZoneSet) (f : LinkSet → LinkSet) :
    (changeMutes ms zs f).length = ms.length :=
  length_foldl_setZones zs (fun ms z => f (ms.getD z.code 0)) _ ms

/-! ### The frame event -/

theorem mixKept_settled {f : State → State} (s : State) (h : MixKept s (f s)) : MixKept s (settled f s) :=
  h.trans (mixKept_offerEdges _ _)

theorem mixKept_settleDue (s : State) : MixKept s s.settleDue := by
  unfold State.settleDue
  have sinks : ∀ (s : State) (k : Nat), MixKept s
      (settled (fun s => s.fadeInEnd k) (settled (fun s => s.fadeOutEnd k) (settled (fun s => s.releaseGuard k) s))) :=
    fun s k => (mixKept_settled s (mixKept_releaseGuard s k)).trans
      ((mixKept_settled _ (mixKept_fadeOutEnd _ k)).trans (mixKept_settled _ (mixKept_fadeInEnd _ k)))
  have plays : ∀ (s : State) (n : Fin 4), MixKept s (settled (fun s => s.gapOver n) (settled (fun s => s.playEnded n) s)) :=
    fun s n => (mixKept_settled s (mixKept_playEnded s n)).trans (mixKept_settled _ (mixKept_gapOver _ n))
  have ends : ∀ (s : State) (n : Fin 4), MixKept s (settled (fun s => s.reachIdle n) s) :=
    fun s n => mixKept_settled s (mixKept_reachIdle s n)
  exact (mixKept_settled s (mixKept_windowJudged s)).trans ((MixKept.foldl _ sinks _ _).trans
    ((mixKept_settled _ (mixKept_replayDrained _)).trans ((mixKept_settled _ (mixKept_memoReplayEnded _)).trans
      ((MixKept.foldl _ plays _ _).trans (MixKept.foldl _ ends _ _)))))

theorem mixKept_cancel (s : State) (x : FrameInput) : MixKept s (s.cancel x) := by
  unfold State.cancel
  dsimp only
  split
  · exact mixKept_withCall s _ fun h => ⟨h.1.samples _ _ _, h.2⟩
  · exact mixKept_setCall s _ rfl rfl

theorem mixKept_conference (s : State) (x : FrameInput) : MixKept s (s.conference x) := by
  unfold State.conference
  dsimp only
  refine .ite (.refl s) (.trans (mixKept_withCall s _ fun h => ?_) (mixKept_setCall _ _ rfl rfl))
  split <;> exact ⟨h.1, by simpa using h.2⟩

theorem mixKept_frame (s : State) (x : FrameInput) : MixKept s (s.frame x) := by
  unfold State.frame
  have replayed : ∀ u : State, MixKept u u.afterReplay := fun u => .of_happens (happens_afterReplay u) (by decide)
  have captured : ∀ u : State, MixKept u (u.capture (s.offers x)) := fun u => .of_happens (happens_capture u _) (by decide)
  have handed : ∀ u : State, MixKept u u.handUplink := fun u => .of_happens (happens_handUplink u) (by decide)
  have sampled : ∀ u : State, MixKept u u.startSampling := fun u => mixKept_withStations u _ id
  have zoned : ∀ (u : State) (z : ZoneSet), MixKept u (u.withCall { u.call with refZones := z }) :=
    fun u z => mixKept_setCall u _ rfl rfl
  have posted : ∀ u : State, MixKept u u.postStreams := fun u => .of_happens (happens_postStreams u) (by decide)
  have moved : ∀ u : State, MixKept u u.nextFrame := fun u => .of_happens (happens_nextFrame u) (by decide)
  exact (mixKept_mixFrame s _).trans ((replayed _).trans ((captured _).trans ((zoned _ _).trans
    ((mixKept_cancel _ x).trans ((handed _).trans ((mixKept_conference _ x).trans ((sampled _).trans
      ((mixKept_withChime _ _).trans ((posted _).trans (moved _))))))))))

theorem mixKept_frameEvent (s : State) (x : FrameInput) : MixKept s (s.frameEvent x) := by
  unfold State.frameEvent
  split
  · exact .refl s
  · exact (mixKept_settleDue s).trans ((mixKept_reach _ _).trans (mixKept_frame _ x))

/-! ### Power Control -/

theorem mixKept_endFrames (s : State) : MixKept s s.endFrames :=
  .trans (mixKept_withCall s { s.call with recent := noRecent, hold := 0, refZones := 0, uplink := List.replicate 16 0 }
      fun h => ⟨h.1, noRecent_length⟩) ((mixKept_withStations _ _ (by exact id)).trans (.of_same rfl rfl rfl))

theorem mixKept_parkTuners (s : State) : MixKept s s.parkTuners :=
  .trans (t := (s.withTunA s.tunA.rest).dropHolder) (.of_same rfl rfl rfl)
    ((mixKept_enterB _ _ _).trans (mixKept_withPorts _ _))

theorem mixKept_stopSinks (s : State) : MixKept s (s.withMix { s.mix with sinks := s.mix.sinks.map Sink.stopped }) :=
  mixKept_mapSinks s _ (List.length_map _) fun y hy => by
    obtain ⟨x, hx, rfl⟩ := List.mem_map.1 hy
    exact ⟨x, hx, sinkKept_stopped x⟩

theorem mixKept_leaveRun (s : State) (st : PowerState) : MixKept s (s.leaveRun st) := by
  rw [State.leaveRun_eq]
  have stopped : MixKept s (s.stopRun st) :=
    ((mixKept_withPower s _).trans (mixKept_stopSinks _)).trans ((mixKept_cutChimes _).trans
      ((mixKept_discard _ _).trans ((mixKept_parkTuners _).trans (mixKept_endFrames _))))
  exact stopped.trans ((MixKept.ite (mixKept_withPower _ _) (mixKept_withPower _ _)).trans (mixKept_reassess _))

theorem mixKept_moveParked (s : State) (st : PowerState) : MixKept s (s.moveParked st) := by
  unfold State.moveParked
  exact .ite (.of_same rfl rfl rfl) ((mixKept_withPower s _).trans
    ((MixKept.ite (mixKept_enterB _ _ _) (.refl _)).trans ((mixKept_withPower _ _).trans (mixKept_reassess _))))

theorem mixKept_moveTo (s : State) (st : PowerState) : MixKept s (s.moveTo st) :=
  .ite (mixKept_enterRun _ _) (.ite (mixKept_leaveRun _ _) (mixKept_moveParked _ _))

theorem mixKept_filled (s : State) : MixKept s s.filled :=
  .ite ((mixKept_reach s _).trans ((mixKept_withStore _ _).trans ((mixKept_withPower _ _).trans (mixKept_wake _ _ _)))) (.refl s)

theorem mixKept_ignitionRose (s : State) : MixKept s s.ignitionRose := (mixKept_withPower s _).trans (mixKept_wake _ _ _)

theorem mixKept_refreshDue (s : State) : MixKept s s.refreshDue := by
  unfold State.refreshDue
  split
  · exact .ite (((mixKept_reach s _).trans (mixKept_withPower _ _)).trans (.ite (.refl _) (mixKept_startSweep _ _))) (.refl s)
  · exact .refl s

/-! ### The two resets (R192, R193) -/

theorem mixKept_unmuteAll (s : State) (l : Link) : MixKept s (s.unmuteAll l) :=
  (mixKept_withMix s { s.mix with mutes := s.mix.mutes.map fun m => dropLink m l } rfl rfl (List.length_map _)).trans
    (mixKept_setCall _ _ rfl rfl)

theorem mixKept_resetOwn (s : State) (l : Link) : MixKept s (s.resetOwn l) := by
  match l with
  | .telephony => exact .ite (.refl s) (mixKept_enterCall _ _)
  | .rear => exact mixKept_endHolding s
  | .cockpit => exact .refl s
  | .body => exact .refl s

theorem mixKept_resetLink (s : State) (l : Link) : MixKept s (s.resetLink l) := by
  unfold State.resetLink
  exact (mixKept_setLink s l _).trans ((mixKept_withTable _ _).trans ((mixKept_tableChanged _).trans ((mixKept_unmuteAll _ _).trans
    ((mixKept_withStore _ _).trans ((mixKept_stopWhere _ _ _ _).trans (mixKept_resetOwn _ _))))))

theorem Mix.fresh_bounded : Mix.fresh.bounded := fun _ hx => List.eq_of_mem_replicate (n := 20) hx ▸ Sink.fresh_bounded

theorem Mix.fresh_inRange : Mix.fresh.inRange := fun _ hx => List.eq_of_mem_replicate (n := 20) hx ▸ Sink.fresh_inRange

theorem Mix.fresh_sized : Mix.fresh.Sized where
  sinks := List.length_replicate (n := 20)
  volumes := List.length_replicate (n := 5)
  mutes := List.length_replicate (n := 7)
  each := fun _ hx => List.eq_of_mem_replicate (n := 20) hx ▸ Sink.fresh_sized

theorem Call.fresh_sized : Call.fresh.Sized :=
  ⟨⟨List.length_replicate (n := 2048), List.length_replicate (n := 2048)⟩, noRecent_length⟩

theorem mixKept_freshMix (s : State) : MixKept s (s.withMix Mix.fresh) :=
  ⟨fun _ => Mix.fresh_bounded, fun _ => Mix.fresh_inRange, fun _ => Mix.fresh_sized, id, id⟩

theorem mixKept_freshStations (s : State) (one two : Station) (lock : Bool) :
    MixKept s (s.withStations { one := one, two := two, cap := 48, lock := lock }) :=
  mixKept_withStations s _ fun _ => (by decide : 0 ≤ (48 : Int) ∧ (48 : Int) ≤ 120)

theorem mixKept_resetTuners (s : State) : MixKept s s.resetTuners := by
  unfold State.resetTuners
  exact (mixKept_withRadio s _).trans ((mixKept_withTunA _ _).trans ((mixKept_setHolder _ _).trans
    (.ite (.refl _) (mixKept_enterB _ _ _))))

theorem mixKept_resetHub (s : State) : MixKept s s.resetHub := by
  unfold State.resetHub
  dsimp only
  refine (MixKept.foldl _ (fun s l => mixKept_moveAll s l) Link.every s).trans ?_
  refine .trans ?_ ((mixKept_resetTuners _).trans (.ite (mixKept_retuneA _ _ _) (mixKept_reassess _)))
  exact (mixKept_withLinks _ _).trans ((mixKept_withTable _ _).trans ((mixKept_freshMix _).trans ((mixKept_withTraffic _ _).trans
    ((mixKept_withShift _ _).trans ((mixKept_withCall _ _ fun _ => Call.fresh_sized).trans ((mixKept_freshStations _ _ _ _).trans
      ((mixKept_withChime _ _).trans ((mixKept_withStore _ _).trans (mixKept_withPower _ _)))))))))

end Sys2Proof.Machine
end

section
namespace Sys2Proof.Machine

/-! ### The orders -/

/-- An order that is refused, or that changes nothing. -/
theorem mixKept_answer (st : Status) (s : State) : MixKept s (answer st s).2 := .refl s

/-- An order that is answered after what it does. -/
theorem MixKept.answered {s t : State} (h : MixKept s t) (st : Status) : MixKept s (answer st t).2 := h

/-- Every answer of an order keeps the bounds and the sizes. -/
def BodyMixKept (body : List Byte → State → Reply × State) : Prop := ∀ b s, MixKept s (body b s).2

theorem mixKept_setProgramBody : BodyMixKept setProgramBody := fun b s => by
  unfold setProgramBody
  repeat' split
  any_goals with_reducible exact mixKept_answer _ s
  have chosen : ∀ src, MixKept s (s.withMix { s.mix with selected := src }) := fun _ => mixKept_withMix s _ rfl rfl rfl
  exact .ite ((chosen _).trans (mixKept_discard _ _)) (chosen _)

theorem mixKept_setVolumeBody : BodyMixKept setVolumeBody := fun b s => by
  unfold setVolumeBody
  repeat' split
  any_goals with_reducible exact mixKept_answer _ s
  exact mixKept_withMix s _ rfl (setVolumes_length _ _ _) rfl

theorem mixKept_setTrimBody : BodyMixKept setTrimBody := fun b s => by
  have trimmed : ∀ k v, MixKept s (s.setSink k { s.sink k with trim := v }) := fun k v =>
    mixKept_setSink s k _ ⟨id, id, fun h => ⟨h.line, h.delay, h.pending⟩⟩
  unfold setTrimBody
  dsimp only
  repeat' split
  · exact trimmed _ _
  · exact mixKept_withMix s _ rfl rfl rfl
  · exact mixKept_withMix s _ rfl rfl rfl
  · exact mixKept_withMix s _ rfl rfl rfl
  · exact mixKept_answer _ s

theorem mixKept_setDelayBody : BodyMixKept setDelayBody := fun b s => by
  have clamped : clampNat 0 960 (u16 b 1) ≤ 960 := max_le (Nat.zero_le _) (min_le_left _ _)
  unfold setDelayBody
  dsimp only
  repeat' split
  · exact mixKept_answer _ s
  · exact mixKept_setSink s _ _ (sinkKept_requestDelay _ clamped)
  · exact mixKept_setSink s _ _ ⟨id, id, fun h => ⟨h.line, clamped, h.pending⟩⟩

theorem mixKept_setSpeedCurveBody : BodyMixKept setSpeedCurveBody := fun b s => by
  unfold setSpeedCurveBody
  repeat' split
  any_goals with_reducible exact mixKept_answer _ s
  exact mixKept_withMix s _ rfl rfl rfl

theorem mixKept_speedBody : BodyMixKept speedBody := fun _ s => mixKept_withMix s _ rfl rfl rfl

theorem mixKept_muteBody (l : Link) (g : LinkSet → LinkSet) : BodyMixKept (muteBody l g) := fun b s => by
  unfold muteBody
  repeat' split
  any_goals with_reducible exact mixKept_answer _ s
  exact mixKept_withMix s _ rfl rfl (changeMutes_length _ _ _)

theorem mixKept_tuneABody : BodyMixKept tuneABody := fun b s => by
  unfold tuneABody
  repeat' split
  any_goals with_reducible exact mixKept_answer _ s
  exact mixKept_retuneA _ _ _

theorem mixKept_seekABody : BodyMixKept seekABody := fun b s => by
  unfold seekABody
  repeat' split
  any_goals with_reducible exact mixKept_answer _ s
  exact mixKept_seek _ _

theorem mixKept_presetStoreBody : BodyMixKept presetStoreBody := fun b s => by
  unfold presetStoreBody
  dsimp only
  repeat' split
  any_goals with_reducible exact mixKept_answer _ s
  all_goals exact (mixKept_withRadio _ _).trans (mixKept_reassess _)

theorem mixKept_presetRecallBody : BodyMixKept presetRecallBody := fun b s => by
  unfold presetRecallBody
  dsimp only
  repeat' split
  any_goals with_reducible exact mixKept_answer _ s
  exact mixKept_retuneA _ _ _

theorem mixKept_scanPolicyBody : BodyMixKept scanPolicyBody := fun b s => by
  unfold scanPolicyBody
  repeat' split
  any_goals with_reducible exact mixKept_answer _ s
  exact (mixKept_withRadio _ _).trans (mixKept_reassess _)

theorem mixKept_afPolicyBody : BodyMixKept afPolicyBody := fun b s => by
  unfold afPolicyBody
  dsimp only
  repeat' split
  all_goals exact .of_same rfl rfl rfl

theorem mixKept_listReadBody : BodyMixKept listReadBody := fun b s => by
  unfold listReadBody
  dsimp only
  split <;> exact .refl s

theorem mixKept_trafficModeBody : BodyMixKept trafficModeBody := fun b s => by
  unfold trafficModeBody
  repeat' split
  any_goals with_reducible exact mixKept_answer _ s
  exact mixKept_setTraffic _ _ _

theorem mixKept_pauseBody : BodyMixKept pauseBody := fun b s => by
  unfold pauseBody
  repeat' split
  any_goals with_reducible exact mixKept_answer _ s
  · exact .of_same rfl rfl rfl
  · exact mixKept_startCapture _ _ _ _ _

theorem mixKept_resumeBody : BodyMixKept resumeBody := fun b s => by
  unfold resumeBody
  split
  · exact mixKept_resumeReplay _
  · exact .refl s

theorem mixKept_goLiveBody : BodyMixKept goLiveBody := fun b s => by
  unfold goLiveBody
  split
  · exact mixKept_shiftOff _
  · exact .refl s

theorem mixKept_shiftPolicyBody : BodyMixKept shiftPolicyBody := fun b s => by
  unfold shiftPolicyBody
  repeat' split
  all_goals exact .of_same rfl rfl rfl

theorem mixKept_callStateBody (b : List Byte) (s : State) : MixKept s (callStateBody b s).2 := by
  unfold callStateBody
  split
  · exact (mixKept_answer _ s)
  · split
    · exact (mixKept_answer _ s)
    · exact ((mixKept_enterCall s _).trans (MixKept.ite (mixKept_wake _ _ _) (.refl _))).answered _

theorem mixKept_callPlaceBody : BodyMixKept callPlaceBody := fun b s => by
  unfold callPlaceBody
  repeat' split
  any_goals with_reducible exact mixKept_answer _ s
  exact mixKept_placeCall _ _

theorem mixKept_micSelectBody : BodyMixKept micSelectBody := fun b s => by
  have started : ∀ m, MixKept s (s.withCall ({ s.call with mode := m }.startConference)) := fun m =>
    mixKept_withCall s _ fun h => ⟨h.1, noRecent_length⟩
  have chosen : ∀ m, MixKept s (s.withCall { s.call with mode := m }) := fun m => mixKept_setCall s _ rfl rfl
  unfold micSelectBody
  dsimp only
  repeat' split
  any_goals with_reducible exact mixKept_answer _ s
  · exact (started _).trans (mixKept_chooseMic _)
  · exact (chosen _).trans (mixKept_chooseMic _)

theorem mixKept_micMuteBody (g : LinkSet → LinkSet) : BodyMixKept (micMuteBody g) := fun _ s => mixKept_setCall s _ rfl rfl

theorem mixKept_callVolumeBody : BodyMixKept callVolumeBody := fun _ s => mixKept_setCall s _ rfl rfl

theorem mixKept_stationSourceBody (l : Link) : BodyMixKept (stationSourceBody l) := fun b s => by
  unfold stationSourceBody
  repeat' split
  any_goals with_reducible exact mixKept_answer _ s
  exact mixKept_setSource _ _ _

theorem mixKept_stationTuneBody (l : Link) : BodyMixKept (stationTuneBody l) := fun b s => by
  unfold stationTuneBody
  repeat' split
  any_goals with_reducible exact mixKept_answer _ s
  exact mixKept_lend _ _ _

theorem mixKept_stationVolumeBody (l : Link) : BodyMixKept (stationVolumeBody l) := fun b s => by
  unfold stationVolumeBody
  repeat' split
  any_goals with_reducible exact mixKept_answer _ s
  exact mixKept_setStation _ _ _

theorem mixKept_stationSwapBody (l : Link) : BodyMixKept (stationSwapBody l) := fun b s => by
  unfold stationSwapBody
  repeat' split
  any_goals with_reducible exact mixKept_answer _ s
  exact mixKept_setStation _ _ _

theorem mixKept_jackMeasureBody (l : Link) : BodyMixKept (jackMeasureBody l) := fun b s => by
  unfold jackMeasureBody
  repeat' split
  any_goals with_reducible exact mixKept_answer _ s
  exact mixKept_setStation _ _ _

theorem mixKept_stationCapBody : BodyMixKept stationCapBody := fun _ s =>
  mixKept_withStations s _ fun _ => clampInt_bounds (by decide) _

theorem mixKept_rearLockBody : BodyMixKept rearLockBody := fun b s => by
  unfold rearLockBody
  repeat' split
  all_goals exact .of_same rfl rfl rfl

theorem mixKept_chimeDefineBody (l : Link) : BodyMixKept (chimeDefineBody l) := fun b s => by
  unfold chimeDefineBody
  dsimp only
  repeat' split
  all_goals exact .of_same rfl rfl rfl

theorem mixKept_chimeStartBody (l : Link) (b : List Byte) (s : State) : MixKept s (chimeStartBody l b s).2 := by
  unfold chimeStartBody
  dsimp only
  repeat' split
  any_goals with_reducible exact (mixKept_answer _ s)
  exact (mixKept_wake _ _ _).trans (mixKept_requestChime _ _ _ _)

theorem mixKept_chimeStopBody : BodyMixKept chimeStopBody := fun b s => by
  unfold chimeStopBody
  dsimp only
  repeat' split
  any_goals with_reducible exact mixKept_answer _ s
  exact (mixKept_stopWhere _ _ _ _).answered _

theorem mixKept_chimeStopAllBody : BodyMixKept chimeStopAllBody := fun _ s =>
  (mixKept_stopWhere s _ _ _).answered _

theorem mixKept_chimeRenewBody : BodyMixKept chimeRenewBody := fun b s => by
  unfold chimeRenewBody
  dsimp only
  repeat' split
  any_goals with_reducible exact mixKept_answer _ s
  exact mixKept_withChime _ _

theorem mixKept_chimeReadBody : BodyMixKept chimeReadBody := fun b s => by
  unfold chimeReadBody
  repeat' split
  all_goals exact .refl s

theorem mixKept_regionSetBody : BodyMixKept regionSetBody := fun b s => by
  unfold regionSetBody
  dsimp only
  repeat' split
  any_goals with_reducible exact mixKept_answer _ s
  exact mixKept_moveBounds _ _ _

theorem mixKept_rightsSetBody : BodyMixKept rightsSetBody := fun b s => by
  unfold rightsSetBody
  repeat' split
  all_goals exact .of_same rfl rfl rfl

theorem mixKept_storeOpenBody (l : Link) : BodyMixKept (storeOpenBody l) := fun b s => by
  unfold storeOpenBody
  dsimp only
  repeat' split
  all_goals exact .of_same rfl rfl rfl

theorem mixKept_storeDataBody (l : Link) (x : DataForm) (s : State) : MixKept s (storeDataBody l x s).2 := by
  unfold storeDataBody
  have waits : ∀ ws n, MixKept s (s.awaitWords l ws n).2 := fun _ _ => .ite (.refl s) (mixKept_withStore _ _)
  repeat' split
  any_goals with_reducible exact mixKept_answer _ s
  all_goals exact waits _ _

theorem mixKept_storeCloseBody (l : Link) : BodyMixKept (storeCloseBody l) := fun b s => by
  unfold storeCloseBody
  repeat' split
  all_goals exact .of_same rfl rfl rfl

theorem mixKept_watchSetBody (l : Link) : BodyMixKept (watchSetBody l) := fun _ s => mixKept_setLink s l _

theorem mixKept_watchClearBody (l : Link) : BodyMixKept (watchClearBody l) := fun _ s => mixKept_setLink s l _

theorem mixKept_eventsReadBody (l : Link) : BodyMixKept (eventsReadBody l) := fun _ s => mixKept_setLink s l _

theorem mixKept_powerBody (b : List Byte) (s : State) : MixKept s (powerBody b s).2 := by
  unfold powerBody
  repeat' split
  any_goals with_reducible exact (mixKept_answer _ s)
  exact mixKept_moveTo _ _

theorem mixKept_wakeSetBody : BodyMixKept wakeSetBody := fun b s => by
  unfold wakeSetBody
  repeat' split
  all_goals exact .of_same rfl rfl rfl

/-! ### The claim orders (R28 to R31) -/

theorem mixKept_claimBody (l : Link) : BodyMixKept (claimBody l) := fun b s => by
  unfold claimBody
  repeat' split
  any_goals with_reducible exact mixKept_answer _ s
  exact (mixKept_post s _ _).trans (mixKept_tableChanged _)

theorem mixKept_releaseBody (l : Link) : BodyMixKept (releaseBody l) := fun b s => by
  unfold releaseBody
  dsimp only
  repeat' split
  any_goals with_reducible exact mixKept_answer _ s
  exact (mixKept_setClaim s _ _).trans (mixKept_tableChanged _)

theorem mixKept_amendBody (l : Link) : BodyMixKept (amendBody l) := fun b s => by
  unfold amendBody
  dsimp only
  repeat' split
  any_goals with_reducible exact mixKept_answer _ s
  exact (mixKept_setClaim s _ _).trans (mixKept_tableChanged _)

/-! ### Commands -/

theorem mixKept_order {α : Type} {l : Link} {f : Frame} {links : List Link} {ops : Option α} {body : α → State → Reply × State}
    {s t : State} (hb : ∀ b u, MixKept u (body b u).2) (h : order l f links ops body s = .next t) : MixKept s t := by
  obtain rfl := Host.Outcome.next.inj h
  have checks : ∀ u, MixKept u (checked l links ops body u).2 := by
    intro u
    unfold checked
    repeat' split
    · exact (MixKept.refl u)
    · exact hb _ u
    · exact (MixKept.refl u)
  unfold takeOrder
  split
  · exact (mixKept_shiftOut s _ _ _)
  · exact (mixKept_shiftOut s _ _ _).trans ((checks _).trans ((mixKept_offerEdges _ _).trans (mixKept_setSlot _ _ _)))

theorem mixKept_event {f : State → State} {s t : State} (hf : ∀ u, MixKept u (f u)) (h : event f s = .next t) :
    MixKept s t := by
  obtain rfl := Host.Outcome.next.inj h
  exact (hf s).trans (mixKept_offerEdges _ _)

theorem mixKept_tunerEvent {f : State → State} {s t : State} (hf : ∀ u, MixKept u (f u)) (h : tunerEvent f s = .next t) :
    MixKept s t := mixKept_event (fun u => (hf u).trans (mixKept_reassess _)) h

theorem mixKept_nullFrame {p : SelectPeriod} {s t : State} (h : execNullFrame p s = .next t) : MixKept s t := by
  unfold execNullFrame at h
  split at h <;> obtain rfl := Host.Outcome.next.inj h <;> exact (mixKept_shiftOut s _ _ _)

theorem mixKept_wait {p : SelectPeriod} {s t : State} (h : execWait p s = .next t) : MixKept s t := by
  unfold execWait at h
  split at h <;> obtain rfl := Host.Outcome.next.inj h
  · exact (MixKept.refl s)
  · exact (mixKept_shiftOut s _ _ _)

theorem mixKept_unknownOrder {l : Link} {c : Byte} {f : Frame} {s t : State} (h : execUnknownOrder l c f s = .next t) :
    MixKept s t := by
  obtain rfl := Host.Outcome.next.inj h
  unfold takeOrder
  split
  · exact (mixKept_shiftOut s _ _ _)
  · dsimp only
    rw [unknownBody_state]
    exact ((mixKept_shiftOut s _ _ _).trans ((mixKept_offerEdges _ _).trans (mixKept_setSlot _ _ _)))

theorem mixKept_statusRead {l : Link} {f : Frame} {s t : State} (h : execStatusRead l f s = .next t) : MixKept s t :=
  mixKept_order (fun b u => by rw [statusReadBody_state]; exact .refl u) h

theorem mixKept_tunerMeasurement {x : TunerId} {m : Meas} {s t : State} (h : execTunerMeasurement x m s = .next t) :
    MixKept s t := by
  cases x
  · exact mixKept_tunerEvent (fun u => mixKept_measuredA u m) h
  · exact mixKept_tunerEvent (fun u => mixKept_measuredB u m) h

theorem mixKept_settleEnd {x : TunerId} {m : Meas} {s t : State} (h : execSettleEnd x m s = .next t) : MixKept s t := by
  cases x
  · exact mixKept_tunerEvent (fun u => mixKept_settledA u m) h
  · exact mixKept_tunerEvent (fun u => mixKept_settledB u m) h

theorem mixKept_dataGroup {x : TunerId} {g : DataGroup} {s t : State} (h : execDataGroup x g s = .next t) :
    MixKept s t := by
  cases x
  · exact mixKept_tunerEvent (fun u => mixKept_groupA u g) h
  · exact mixKept_tunerEvent (fun u => mixKept_groupB u g) h

/-- At power-on no sink holds a contribution, every sample is 0, and every list has its size. -/
theorem mixKept_powerOn (ignition jack1 jack2 : Bool) (s : State) (cs : List Instr) :
    MixKept s ((State.powerOn ignition jack1 jack2).withPending cs) where
  bounded _ := Mix.fresh_bounded
  inRange _ := Mix.fresh_inRange
  sized _ := Mix.fresh_sized
  capped _ := (by decide : 0 ≤ (48 : Int) ∧ (48 : Int) ≤ 120)
  call _ := Call.fresh_sized

/-- The orders' own bodies and the events' own steps, put together: one arm for each command. -/
theorem mixKept_exec (c : Instr) {s t : State} (h : exec c s = .next t) : MixKept s t := by
  cases c with
  | claim l f => exact mixKept_order (mixKept_claimBody l) h
  | release l f => exact mixKept_order (mixKept_releaseBody l) h
  | amend l f => exact mixKept_order (mixKept_amendBody l) h
  | setProgram l f => exact mixKept_order mixKept_setProgramBody h
  | setVolume l f => exact mixKept_order mixKept_setVolumeBody h
  | setTrim l f => exact mixKept_order mixKept_setTrimBody h
  | setDelay l f => exact mixKept_order mixKept_setDelayBody h
  | setSpeedCurve l f => exact mixKept_order mixKept_setSpeedCurveBody h
  | speed l f => exact mixKept_order mixKept_speedBody h
  | muteSet l f => exact mixKept_order (mixKept_muteBody l _) h
  | muteClear l f => exact mixKept_order (mixKept_muteBody l _) h
  | tuneA l f => exact mixKept_order mixKept_tuneABody h
  | seekA l f => exact mixKept_order mixKept_seekABody h
  | presetStore l f => exact mixKept_order mixKept_presetStoreBody h
  | presetRecall l f => exact mixKept_order mixKept_presetRecallBody h
  | scanPolicy l f => exact mixKept_order mixKept_scanPolicyBody h
  | afPolicy l f => exact mixKept_order mixKept_afPolicyBody h
  | listRead l f => exact mixKept_order mixKept_listReadBody h
  | trafficMode l f => exact mixKept_order mixKept_trafficModeBody h
  | pause l f => exact mixKept_order mixKept_pauseBody h
  | resume l f => exact mixKept_order mixKept_resumeBody h
  | goLive l f => exact mixKept_order mixKept_goLiveBody h
  | shiftPolicy l f => exact mixKept_order mixKept_shiftPolicyBody h
  | callState l f => exact mixKept_order mixKept_callStateBody h
  | callPlace l f => exact mixKept_order mixKept_callPlaceBody h
  | micSelect l f => exact mixKept_order mixKept_micSelectBody h
  | micMuteSet l f => exact mixKept_order (mixKept_micMuteBody _) h
  | micMuteClear l f => exact mixKept_order (mixKept_micMuteBody _) h
  | callVolume l f => exact mixKept_order mixKept_callVolumeBody h
  | stationSource l f => exact mixKept_order (mixKept_stationSourceBody l) h
  | stationTune l f => exact mixKept_order (mixKept_stationTuneBody l) h
  | stationVolume l f => exact mixKept_order (mixKept_stationVolumeBody l) h
  | stationSwap l f => exact mixKept_order (mixKept_stationSwapBody l) h
  | jackMeasure l f => exact mixKept_order (mixKept_jackMeasureBody l) h
  | stationCap l f => exact mixKept_order mixKept_stationCapBody h
  | rearLock l f => exact mixKept_order mixKept_rearLockBody h
  | chimeDefine l f => exact mixKept_order (mixKept_chimeDefineBody l) h
  | chimeStart l f => exact mixKept_order (mixKept_chimeStartBody l) h
  | chimeStop l f => exact mixKept_order mixKept_chimeStopBody h
  | chimeRenew l f => exact mixKept_order mixKept_chimeRenewBody h
  | chimeStopAll l f => exact mixKept_order mixKept_chimeStopAllBody h
  | chimeRead l f => exact mixKept_order mixKept_chimeReadBody h
  | storeOpen l f => exact mixKept_order (mixKept_storeOpenBody l) h
  | storeData l f => exact mixKept_order (mixKept_storeDataBody l) h
  | storeClose l f => exact mixKept_order (mixKept_storeCloseBody l) h
  | regionSet l f => exact mixKept_order mixKept_regionSetBody h
  | rightsSet l f => exact mixKept_order mixKept_rightsSetBody h
  | watchSet l f => exact mixKept_order (mixKept_watchSetBody l) h
  | watchClear l f => exact mixKept_order (mixKept_watchClearBody l) h
  | eventsRead l f => exact mixKept_order (mixKept_eventsReadBody l) h
  | statusRead l f => exact mixKept_statusRead h
  | power l f => exact mixKept_order mixKept_powerBody h
  | wakeSet l f => exact mixKept_order mixKept_wakeSetBody h
  | linkReset l f => exact mixKept_order (fun _ u => (mixKept_resetLink u l).answered _) h
  | hubReset l f => exact mixKept_order (fun _ u => (mixKept_resetHub u).answered _) h
  | unknownOrder l code f => exact mixKept_unknownOrder (c := code) h
  | nullFrame p => exact mixKept_nullFrame h
  | wait p => exact mixKept_wait h
  | replyReady l => exact Host.Outcome.next.inj h ▸ (mixKept_replyReady s l)
  | powerOn ignition jack1 jack2 => exact Host.Outcome.next.inj h ▸ mixKept_powerOn ignition jack1 jack2 s _
  | storeReady => exact mixKept_event mixKept_filled h
  | ignitionRise => exact mixKept_event mixKept_ignitionRose h
  | refreshTimerExpiry => exact mixKept_event mixKept_refreshDue h
  | frameEvent x => exact mixKept_event (fun u => mixKept_frameEvent u x) h
  | frameSync gap set => exact mixKept_event (fun u => mixKept_takeSync u gap set) h
  | overdueSlip p => exact mixKept_event (fun u => mixKept_takeOverdue u p) h
  | acquireGiveUp p => exact mixKept_event (fun u => mixKept_takeGiveUp u p) h
  | holdoverTimeout p => exact mixKept_event (fun u => mixKept_takeHoldoverTimeout u p) h
  | clipGuardRelease sink => exact mixKept_event (fun u => mixKept_releaseGuard u sink.val) h
  | delayFadeOutEnd sink => exact mixKept_event (fun u => mixKept_fadeOutEnd u sink.val) h
  | delayFadeInEnd sink => exact mixKept_event (fun u => mixKept_fadeInEnd u sink.val) h
  | speedStale => exact mixKept_event mixKept_speedGrowsStale h
  | tunerMeasurement x m => exact mixKept_tunerMeasurement h
  | settleEnd x m => exact mixKept_settleEnd h
  | seekChannelEnd m => exact mixKept_tunerEvent (fun u => mixKept_seekChannelEnd u m) h
  | afPrefadeEnd => exact mixKept_tunerEvent mixKept_prefadeEnd h
  | afCheckMeasurement m => exact mixKept_tunerEvent (fun u => mixKept_checkMeasured u m) h
  | afGapEnd => exact mixKept_tunerEvent mixKept_gapEnded h
  | afVerifyTimeout => exact mixKept_tunerEvent mixKept_verifyTimedOut h
  | dataGroup x g => exact mixKept_dataGroup h
  | dataTimeout x => exact mixKept_tunerEvent (fun u => mixKept_dataLapsed u x) h
  | sweepChannelEnd m => exact mixKept_tunerEvent (fun u => mixKept_sweepChannelEnd u m) h
  | rejectionTick => exact mixKept_event mixKept_countRejections h
  | aEligibleExpiry => exact mixKept_event mixKept_eligibleExpired h
  | replayDrained => exact mixKept_event mixKept_replayDrained h
  | memoReplayEnd => exact mixKept_event mixKept_memoReplayEnded h
  | windowJudged => exact mixKept_event mixKept_windowJudged h
  | jackInsertion st => exact mixKept_event (fun u => mixKept_inserted u st) h
  | jackRemoval st => exact mixKept_event (fun u => mixKept_removed u st) h
  | measurementComplete st load1 load2 mic => exact mixKept_event (fun u => mixKept_measured u st load1 load2 mic) h
  | graceExpiry st => exact mixKept_event (fun u => mixKept_graceExpired u st) h
  | voicePlayEnd v => exact mixKept_event (fun u => mixKept_playEnded u v) h
  | gapEnd v => exact mixKept_event (fun u => mixKept_gapOver u v) h
  | deadlineExpiry v => exact mixKept_event (fun u => mixKept_deadlinePassed u v) h
  | voiceIdle v => exact mixKept_event (fun u => mixKept_reachIdle u v) h

theorem mixKept_withPending (s : State) (cs : List Instr) : MixKept s (s.withPending cs) := .of_same rfl rfl rfl

theorem step_mixKept {s t : State} (h : step s = .next t) : MixKept s t := by
  unfold step at h
  split at h
  · obtain rfl := Host.Outcome.next.inj h
    exact mixKept_reach s _
  · exact (mixKept_withPending s _).trans (mixKept_exec _ h)

/-- Settles O7: departures keep the number of contributions, arrivals respect the bound of 6, every target lies in the
bounds and the ramps stop at the target; no other change of a sink touches its list, but to empty it. -/
theorem stepKeepsContributions : Obligations.StepKeepsContributions := by
  unfold Obligations.StepKeepsContributions
  exact fun s t hs h => (step_mixKept h).bounded hs

/-- Settles O8: sums are saturated, the delay line and the output fade keep the range, and every change of a list of a fixed
size keeps its length. -/
theorem stepKeepsSampleRange : Obligations.StepKeepsSampleRange := by
  unfold Obligations.StepKeepsSampleRange
  refine fun s t h => ⟨(step_mixKept h).inRange, fun hs => ?_⟩
  have kept := step_mixKept h
  obtain ⟨sized, capped, call⟩ := s.sizesWf_iff.1 hs
  exact t.sizesWf_iff.2 ⟨kept.sized sized, kept.capped capped, kept.call call⟩

end Sys2Proof.Machine
end

section
namespace Sys2Proof.Machine

/-! ### Orders and events of the Mix Engine -/

@[simp] theorem State.offerEdges_mix (b s : State) : (State.offerEdges b s).mix = s.mix :=
  (happens_offerEdges b s).blocks.2 .mix (by decide)

@[simp] theorem State.setSlot_mix (s : State) (l : Link) (x : Slot) : (s.setSlot l x).mix = s.mix := rfl

/-- An order whose work writes the Mix Engine alone. -/
theorem order_withMix {α : Type} {l : Link} {f : Frame} {links : List Link} {ops : Option α} {body : α → State → Reply × State}
    {s : State} {b : α} {r a : Reply} {x : Mix} (hr : s.holds l r) (ho : ops = some b) (hl : links.contains l = true)
    (hb : body b (s.shiftOut l (clocked f) r) = (a, (s.shiftOut l (clocked f) r).withMix x)) :
    ∃ t, order l f links ops body s = .next t ∧ Taken l f r a [.mix] s t ∧ Unreported s t ∧ t.mix = x := by
  have next := order_next (f := f) (body := body) hr ho hl
  rw [hb] at next
  exact ⟨_, next, taken_of_happens (happens_withMix _ x), unreported_order rfl fun _ => rfl, by simp⟩

/-- An event whose work writes the Mix Engine alone. -/
theorem event_withMix {f : State → State} {s : State} {x : Mix} (hf : f s = s.withMix x) :
    ∃ t, event f s = .next t ∧ Happens [.mix] s t ∧ Unreported s t ∧ t.mix = x := by
  refine ⟨_, rfl, ?_, ?_, ?_⟩ <;> rw [hf]
  · exact (happens_withMix s x).trans ((happens_offerEdges _ _).mono (by simp))
  · exact unreported_event rfl fun _ => rfl
  · simp

/-! ### SET_PROGRAM (R42, R113) -/

theorem State.shiftOff_shift (s : State) : s.shiftOff.shift = .off := by
  unfold State.shiftOff
  dsimp only
  split <;> split <;> rfl

/-- A latched fall stays latched while more is offered. -/
theorem LinkState.offer_fallLatch (x : LinkState) (rise fall : BitVec 16) {c : Nat} (h : x.fallLatch.getLsbD c = true) :
    (x.offer rise fall).fallLatch.getLsbD c = true := by simp [LinkState.offer, h]

theorem State.fallAll_latched (s : State) {k : Link} (h : (s.link k).fallEnable.getLsbD 3 = true) :
    ((s.fallAll 3).link k).fallLatch.getLsbD 3 = true := by
  simp [State.fallAll, LinkState.offer, conditionBit, h]

/-- A Shift Buffer that leaves a state for OFF tells SHIFT_ACTIVE's fall. -/
theorem State.shiftOff_latched {s : State} (on : s.shift.state ≠ .off) : FallLatched 3 s s.shiftOff := fun k hk => by
  unfold State.shiftOff
  dsimp only
  rw [if_neg on]
  have fallen := State.fallAll_latched (((s.withShift .off).setPosted 0 false).setPosted 1 false) (k := k) hk
  split
  · rw [State.fallAll, State.offerAll_link]
    exact LinkState.offer_fallLatch _ _ _ fallen
  · exact fallen

theorem State.shiftOff_advisories (s : State) (k : Link) : (s.shiftOff.link k).advisories = (s.link k).advisories := by
  have fallen : ∀ (u : State) (c : Nat), ((u.fallAll c).link k).advisories = (u.link k).advisories := fun u c => by
    rw [State.fallAll, State.offerAll_link]
    rfl
  have withdrawn : ((((s.withShift .off).setPosted 0 false).setPosted 1 false).link k).advisories = (s.link k).advisories := rfl
  unfold State.shiftOff
  dsimp only
  split <;> split <;> simp only [fallen, withdrawn]

theorem State.advise_link_fallLatch (s : State) (l k : Link) (a : Advisory) :
    ((s.advise l a).link k).fallLatch = (s.link k).fallLatch := by
  by_cases hk : k = l
  · subst hk
    simp [State.advise, LinkState.offer]
  · simp [State.advise, hk]

theorem State.selectSource_of_unpaused {s : State} (h : s.shift.purpose ≠ some .pause) (src : Source) :
    s.selectSource src = s.withMix { s.mix with selected := src } := if_neg h

theorem State.selectSource_of_off {s : State} (h : s.shift.state = .off) (src : Source) :
    s.selectSource src = s.withMix { s.mix with selected := src } := by
  unfold State.selectSource
  dsimp only
  rw [State.discard_of_off (by simpa using h), ite_self]

/-- A paused broadcast discarded is told to COCKPIT, and no claim moves. -/
theorem State.selectSource_of_pause {s : State} (h : s.shift.purpose = some .pause) (on : s.shift.state ≠ .off) (src : Source) :
    s.selectSource src = (s.withMix { s.mix with selected := src }).shiftOff.advise .cockpit
      (.shiftDiscarded .program s.shift.state s.shift.fill) := by
  simp [State.selectSource, State.discard, on, h]

theorem selectSource_of_pause_mix {s : State} (h : s.shift.purpose = some .pause) (on : s.shift.state ≠ .off) (src : Source) :
    Happens [.mix, .shift, .store] s (s.selectSource src) ∧ (s.selectSource src).mix = { s.mix with selected := src } := by
  rw [State.selectSource_of_pause h on]
  have discarded := (happens_shiftOff (s.withMix { s.mix with selected := src })).trans
    ((happens_advise _ .cockpit (.shiftDiscarded .program s.shift.state s.shift.fill)).mono (by simp))
  exact ⟨((happens_withMix s _).mono (by simp)).trans (discarded.mono (by simp)), discarded.blocks.2 .mix (by decide)⟩

theorem selectSource_of_pause_told {s : State} (h : s.shift.purpose = some .pause) (on : s.shift.state ≠ .off) (src : Source) :
    (s.selectSource src).shift = .off ∧ FallLatched 3 s (s.selectSource src)
      ∧ ((s.selectSource src).link .cockpit).advisories =
          joinAdvisory (s.link .cockpit).advisories (.shiftDiscarded .program s.shift.state s.shift.fill) := by
  rw [State.selectSource_of_pause h on]
  refine ⟨?_, fun k hk => ?_, ?_⟩
  · exact ((happens_advise _ _ _).blocks.2 .shift (by decide)).trans (State.shiftOff_shift _)
  · rw [State.advise_link_fallLatch]
    exact State.shiftOff_latched (s := s.withMix { s.mix with selected := src }) on k hk
  · rw [State.advise_advisories, if_pos rfl, State.shiftOff_advisories]
    rfl

/-- The closing of an order keeps what its work has latched. -/
theorem fallLatched_closed {s u : State} {c : Nat} {n : Nat} {l : Link} {r : Reply} {x : Slot}
    (h : FallLatched c (s.shiftOut l n r) u) : FallLatched c s ((State.offerEdges (s.shiftOut l n r) u).setSlot l x) := fun k hk => by
  have enabled : ((s.shiftOut l n r).link k).fallEnable = (s.link k).fallEnable := by
    rw [State.shiftOut_link]
    split
    · next same => rw [same]
    · rfl
  have latched := h k (enabled ▸ hk)
  have offered : ∀ p : BitVec 16, ((u.link k).fallLatch ||| (p &&& (u.link k).fallEnable)).getLsbD c = true := fun p => by
    simp [latched]
  rw [State.setSlot_link, State.offerEdges_link, State.offerEdges_link]
  split
  · next same =>
      subst same
      exact offered _
  · exact offered _

theorem setProgramBody_selects {x : Byte} {src : Source} {s : State} (hx : sourceOf x.toNat = some src)
    (hs : src.selectable = true) (hne : src ≠ s.mix.selected) : setProgramBody [x] s = answer .done (s.selectSource src) := by
  have operand : sourceOf (u8 [x] 0) = some src := hx
  simp [setProgramBody, operand, hs, hne]

/-- R42, R113. -/
theorem setProgram_selects (f : Frame) (s : State) (r : Reply) (x : Byte) (src : Source) (hr : s.holds .cockpit r)
    (hf : f.carries [x]) (hx : sourceOf x.toNat = some src)
    (hs : src = .tunerA ∨ src = .mediaFront ∨ src = .mediaRear ∨ src = .silence) (hne : src ≠ s.mix.selected) :
    ∃ t, exec (.setProgram .cockpit f) s = .next t ∧ t.mix = { s.mix with selected := src }
      ∧ (s.shift.purpose ≠ some .pause → Taken .cockpit f r (.plain .done) [.mix] s t ∧ Unreported s t)
      ∧ (s.shift.purpose = some .pause → s.shift.state ≠ .off →
          Taken .cockpit f r (.plain .done) [.mix, .shift, .store] s t ∧ t.shift = .off ∧ FallLatched 3 s t
            ∧ (t.link .cockpit).advisories =
                joinAdvisory (s.link .cockpit).advisories (.shiftDiscarded .program s.shift.state s.shift.fill)) := by
  have selectable : src.selectable = true := by rcases hs with rfl | rfl | rfl | rfl <;> rfl
  have body := setProgramBody_selects (s := s.shiftOut .cockpit (clocked f) r) hx selectable hne
  have unpaused : (s.shift.purpose ≠ some .pause ∨ s.shift.state = .off) →
      ∃ t, exec (.setProgram .cockpit f) s = .next t ∧ Taken .cockpit f r (.plain .done) [.mix] s t ∧ Unreported s t
        ∧ t.mix = { s.mix with selected := src } := fun h => by
    refine order_withMix hr (operands_carries hf) rfl (body.trans ?_)
    rw [h.elim (State.selectSource_of_unpaused (s := s.shiftOut .cockpit (clocked f) r) · src)
      (State.selectSource_of_off (s := s.shiftOut .cockpit (clocked f) r) · src)]
    rfl
  by_cases paused : s.shift.purpose = some .pause
  · by_cases off : s.shift.state = .off
    · obtain ⟨t, next, _, _, mix⟩ := unpaused (.inr off)
      exact ⟨t, next, mix, fun h => absurd paused h, fun _ on => absurd off on⟩
    · obtain ⟨happens, mix⟩ := selectSource_of_pause_mix (s := s.shiftOut .cockpit (clocked f) r) paused off src
      obtain ⟨shift, fallen, told⟩ := selectSource_of_pause_told (s := s.shiftOut .cockpit (clocked f) r) paused off src
      have next := order_next (f := f) (body := setProgramBody) hr (operands_carries hf) (links := byCockpit) rfl
      rw [body] at next
      have closes := closes_offered (s.shiftOut .cockpit (clocked f) r) ((s.shiftOut .cockpit (clocked f) r).selectSource src)
        .cockpit (.pending (.plain .done))
      refine ⟨_, next, ?_, fun h => absurd paused h, fun _ _ =>
        ⟨taken_of_happens happens, closes.shift.trans shift, fallLatched_closed fallen, ?_⟩⟩
      · rw [State.setSlot_mix, State.offerEdges_mix]
        exact mix
      · refine ((closes.advisories .cockpit).trans told).trans ?_
        rw [(s.shiftOut_watch .cockpit (clocked f) r .cockpit).2]
        rfl
  · obtain ⟨t, next, taken, quiet, mix⟩ := unpaused (.inl paused)
    exact ⟨t, next, mix, fun _ => ⟨taken, quiet⟩, fun h => absurd h paused⟩

/-! ### SET_VOLUME and the mutes (R43, R45, R46) -/

theorem Zone.mem_every (z : Zone) : z ∈ Zone.every := by cases z <;> decide

theorem Zone.code_injective {y z : Zone} (h : y.code = z.code) : y = z := by
  have distinct : ∀ y ∈ Zone.every, ∀ z ∈ Zone.every, y.code = z.code → y = z := by decide
  exact distinct y y.mem_every z z.mem_every h

/-- Each named zone's value is replaced by what `g` makes of it, and no other zone's. -/
theorem getD_foldl_setZones {α : Type} (zs : ZoneSet) (g : α → α) (d : α) (z : Zone) (zones : List Zone) (xs : List α)
    (distinct : zones.Nodup) (sized : ∀ y ∈ zones, y.code < xs.length) :
    (zones.foldl (fun xs y => if hasZone zs y then xs.set y.code (g (xs.getD y.code d)) else xs) xs).getD z.code d =
      if z ∈ zones ∧ hasZone zs z = true then g (xs.getD z.code d) else xs.getD z.code d := by
  induction zones generalizing xs with
  | nil => simp
  | cons y zones ih =>
    obtain ⟨new, distinct⟩ := List.nodup_cons.1 distinct
    have short := sized y List.mem_cons_self
    rw [List.foldl_cons, ih _ distinct fun w hw => by
      rw [apply_ite List.length, List.length_set, ite_self]
      exact sized w (List.mem_cons_of_mem y hw)]
    by_cases named : hasZone zs y = true
    · rw [if_pos named, getD_set _ _ _ _ _ short]
      by_cases same : z = y
      · subst same
        simp [new, named]
      · have other : z.code ≠ y.code := fun h => same (Zone.code_injective h)
        simp [same, other]
    · rw [if_neg named]
      by_cases same : z = y
      · subst same
        simp [new, named]
      · simp [same]

theorem setVolumes_getD {vs : List Int} (hl : vs.length = 5) (zs : ZoneSet) (v : Int) {z : Zone} (hz : z ∈ Zone.speakers) :
    (setVolumes vs zs v).getD z.code 120 = if hasZone zs z then v else vs.getD z.code 120 := by
  refine (getD_foldl_setZones zs (fun _ => v) 120 z Zone.speakers vs (by decide) (hl ▸ by decide)).trans ?_
  simp only [hz, true_and]

theorem changeMutes_getD {ms : List LinkSet} (hl : ms.length = 7) (zs : ZoneSet) (g : LinkSet → LinkSet) (z : Zone) :
    (changeMutes ms zs g).getD z.code 0 = if hasZone zs z then g (ms.getD z.code 0) else ms.getD z.code 0 := by
  refine (getD_foldl_setZones zs g 0 z Zone.every ms (by decide) (hl ▸ by decide)).trans ?_
  simp only [Zone.mem_every, true_and]

theorem hasLink_addLink (set : LinkSet) (l k : Link) : hasLink (addLink set l) k = if k = l then true else hasLink set k := by
  cases l <;> cases k <;> simp [hasLink, addLink, linkBit, Link.code]

theorem hasLink_dropLink (set : LinkSet) (l k : Link) : hasLink (dropLink set l) k = if k = l then false else hasLink set k := by
  cases l <;> cases k <;> simp [hasLink, dropLink, linkBit, Link.code]

theorem setVolumeBody_sets {z : Byte} {v : Half} {zs : ZoneSet} {s : State} (hz : zoneSetOf z.toNat = some zs) (named : zs ≠ 0)
    (speakers : within zs speakerZones = true) : setVolumeBody (z :: half v) s =
      answer .done (s.withMix { s.mix with volumes := setVolumes s.mix.volumes zs (clampInt 0 360 v.toInt) }) := by
  have zones : zoneSetOf (u8 (z :: half v) 0) = some zs := hz
  have volume : s16 (z :: half v) 1 = v.toInt := s16_half rfl rfl
  have nonempty : zs ≠ 0#7 := named
  simp [setVolumeBody, zones, volume, nonempty, speakers]

/-- R43. -/
theorem setVolume_sets (f : Frame) (s : State) (r : Reply) (z : Byte) (v : Half) (zs : ZoneSet) (hr : s.holds .cockpit r)
    (hf : f.carries (z :: half v)) (hz : zoneSetOf z.toNat = some zs) (named : zs ≠ 0) (speakers : within zs speakerZones = true)
    (hl : s.mix.volumes.length = 5) :
    ∃ t, exec (.setVolume .cockpit f) s = .next t ∧ Taken .cockpit f r (.plain .done) [.mix] s t ∧ Unreported s t
      ∧ t.mix = { s.mix with volumes := t.mix.volumes }
      ∧ ∀ zn ∈ Zone.speakers, t.mix.volumes.getD zn.code 120 =
          if hasZone zs zn then clampInt 0 360 v.toInt else s.mix.volumes.getD zn.code 120 := by
  obtain ⟨t, next, taken, quiet, mix⟩ : ∃ t, exec (.setVolume .cockpit f) s = .next t ∧ Taken .cockpit f r (.plain .done) [.mix] s t
      ∧ Unreported s t ∧ t.mix = { s.mix with volumes := setVolumes s.mix.volumes zs (clampInt 0 360 v.toInt) } :=
    order_withMix hr (operands_carries hf) (by rfl) (setVolumeBody_sets (s := s.shiftOut .cockpit (clocked f) r) hz named speakers)
  refine ⟨t, next, taken, quiet, by rw [mix], fun zn hzn => ?_⟩
  rw [mix]
  exact setVolumes_getD hl zs _ hzn

theorem setTrimBody_eq (k : Byte) (v : Half) (s : State) : setTrimBody (k :: half v) s =
    if k.toNat < 20 then answer .done (s.setSink k.toNat { s.sink k.toNat with trim := clampInt (-24) 48 v.toInt })
    else if k.toNat = 32 then answer .done (s.withMix { s.mix with trimFront := clampInt 0 48 v.toInt })
    else if k.toNat = 33 then answer .done (s.withMix { s.mix with trimRear := clampInt 0 48 v.toInt })
    else if k.toNat = 34 then answer .done (s.withMix { s.mix with trimNav := clampInt 0 48 v.toInt })
    else answer .badOperand s := by
  have trim : s16 (k :: half v) 1 = v.toInt := s16_half rfl rfl
  unfold setTrimBody
  rw [trim]
  rfl

/-- R44. -/
theorem setTrim_sets (f : Frame) (s : State) (r : Reply) (k : Byte) (v : Half) (hr : s.holds .cockpit r)
    (hf : f.carries (k :: half v)) (hk : k.toNat < 20 ∨ (32 ≤ k.toNat ∧ k.toNat ≤ 34)) :
    ∃ t, exec (.setTrim .cockpit f) s = .next t ∧ Taken .cockpit f r (.plain .done) [.mix] s t ∧ Unreported s t
      ∧ (k.toNat < 20 → t.mix = { s.mix with
          sinks := s.mix.sinks.set k.toNat { s.sink k.toNat with trim := clampInt (-24) 48 v.toInt } })
      ∧ (k.toNat = 32 → t.mix = { s.mix with trimFront := clampInt 0 48 v.toInt })
      ∧ (k.toNat = 33 → t.mix = { s.mix with trimRear := clampInt 0 48 v.toInt })
      ∧ (k.toNat = 34 → t.mix = { s.mix with trimNav := clampInt 0 48 v.toInt }) := by
  have sets : ∀ x, setTrimBody (k :: half v) (s.shiftOut .cockpit (clocked f) r) =
      (.plain .done, (s.shiftOut .cockpit (clocked f) r).withMix x) →
      ∃ t, exec (.setTrim .cockpit f) s = .next t ∧ Taken .cockpit f r (.plain .done) [.mix] s t ∧ Unreported s t ∧ t.mix = x :=
    fun x body => order_withMix hr (operands_carries hf) rfl body
  have body := setTrimBody_eq k v (s.shiftOut .cockpit (clocked f) r)
  obtain sink | front | rear | nav : k.toNat < 20 ∨ k.toNat = 32 ∨ k.toNat = 33 ∨ k.toNat = 34 := by omega
  · obtain ⟨t, next, taken, quiet, mix⟩ := sets _ (body.trans (if_pos sink))
    exact ⟨t, next, taken, quiet, fun _ => mix, by omega, by omega, by omega⟩
  · obtain ⟨t, next, taken, quiet, mix⟩ := sets _ (body.trans (by rw [front]; rfl))
    exact ⟨t, next, taken, quiet, by omega, fun _ => mix, by omega, by omega⟩
  · obtain ⟨t, next, taken, quiet, mix⟩ := sets _ (body.trans (by rw [rear]; rfl))
    exact ⟨t, next, taken, quiet, by omega, by omega, fun _ => mix, by omega⟩
  · obtain ⟨t, next, taken, quiet, mix⟩ := sets _ (body.trans (by rw [nav]; rfl))
    exact ⟨t, next, taken, quiet, by omega, by omega, by omega, fun _ => mix⟩

/-- R46: the links and zones that the statement names pass the checks. -/
theorem mayMute_of_authority {l : Link} {zs : ZoneSet} {lock : Bool}
    (h : l = .cockpit ∨ (l = .body ∧ within zs speakerZones = true) ∨ (l = .rear ∧ within zs stationZones = true ∧ lock = false)) :
    byCockpitRearBody.contains l = true ∧ mayMute l zs = true ∧ (l = .rear → lock = false) := by
  rcases h with rfl | ⟨rfl, hz⟩ | ⟨rfl, hz, hl⟩
  · exact ⟨rfl, rfl, nofun⟩
  · exact ⟨rfl, hz, nofun⟩
  · exact ⟨rfl, hz, fun _ => hl⟩

theorem muteBody_changes {l : Link} {g : LinkSet → LinkSet} {z : Byte} {zs : ZoneSet} {s : State}
    (hz : zoneSetOf z.toNat = some zs) (named : zs ≠ 0) (may : mayMute l zs = true) (unlocked : l = .rear → s.stations.lock = false) :
    muteBody l g [z] s = answer .done (s.withMix { s.mix with mutes := changeMutes s.mix.mutes zs g }) := by
  have zones : zoneSetOf (u8 [z] 0) = some zs := hz
  have nonempty : zs ≠ 0#7 := named
  simp [muteBody, zones, nonempty, may, rear_unlocked unlocked]

/-- R46: the issuing link joins or leaves the named zones' mute sets. -/
theorem mute_changes (f : Frame) (s : State) (r : Reply) (l : Link) (z : Byte) (zs : ZoneSet) (on : Bool) (hr : s.holds l r)
    (hf : f.carries [z]) (hz : zoneSetOf z.toNat = some zs) (named : zs ≠ 0) (hl : s.mix.mutes.length = 7)
    (authority : l = .cockpit ∨ (l = .body ∧ within zs speakerZones = true)
      ∨ (l = .rear ∧ within zs stationZones = true ∧ s.stations.lock = false)) :
    ∃ t, exec (if on then .muteSet l f else .muteClear l f) s = .next t ∧ Taken l f r (.plain .done) [.mix] s t
      ∧ Unreported s t ∧ t.mix = { s.mix with mutes := t.mix.mutes }
      ∧ ∀ zn k, hasLink (t.mute zn) k = if hasZone zs zn ∧ k = l then on else hasLink (s.mute zn) k := by
  obtain ⟨allowed, may, unlocked⟩ := mayMute_of_authority authority
  have changes : ∀ g, ∃ t, order l f byCockpitRearBody (operands 1 f) (muteBody l g) s = .next t
      ∧ Taken l f r (.plain .done) [.mix] s t ∧ Unreported s t ∧ t.mix = { s.mix with mutes := changeMutes s.mix.mutes zs g } :=
    fun g => order_withMix hr (operands_carries hf) allowed
      (muteBody_changes (s := s.shiftOut l (clocked f) r) hz named may unlocked)
  have member : ∀ (t : State) (g : LinkSet → LinkSet), t.mix = { s.mix with mutes := changeMutes s.mix.mutes zs g } →
      ∀ zn, t.mute zn = if hasZone zs zn then g (s.mute zn) else s.mute zn := fun t g mix zn => by
    rw [State.mute, mix]
    exact changeMutes_getD hl zs g zn
  cases on with
  | true =>
    obtain ⟨t, next, taken, quiet, mix⟩ := changes fun set => addLink set l
    refine ⟨t, next, taken, quiet, by rw [mix], fun zn k => ?_⟩
    rw [member t _ mix]
    by_cases hzn : hasZone zs zn = true <;> simp [hzn, hasLink_addLink]
  | false =>
    obtain ⟨t, next, taken, quiet, mix⟩ := changes fun set => dropLink set l
    refine ⟨t, next, taken, quiet, by rw [mix], fun zn k => ?_⟩
    rw [member t _ mix]
    by_cases hzn : hasZone zs zn = true <;> simp [hzn, hasLink_dropLink]

/-- Settles O18: each order's work is one write of the Mix Engine, after which a paused broadcast is discarded. -/
theorem mixSettings : Obligations.MixSettings := by
  unfold Obligations.MixSettings
  exact ⟨setProgram_selects, setVolume_sets, setTrim_sets, mute_changes⟩

end Sys2Proof.Machine
end

section
namespace Sys2Proof.Machine

/-! ### Delays and the clip guard (R61, R63, R133) -/

theorem clampNat_zero (hi x : Nat) : clampNat 0 hi x = min hi x := Nat.zero_max _

/-- A two-byte unsigned operand, read back. -/
theorem u16_half {bs : List Byte} {i : Nat} {x : Half} (h0 : bs.getD i 0 = x.extractLsb' 8 8)
    (h1 : bs.getD (i + 1) 0 = x.extractLsb' 0 8) : u16 bs i = x.toNat := by
  rw [u16, u8, u8, h0, h1, half_value]

/-- What SET_DELAY makes of a sink, in RUN or outside it. -/
def delayed (p : PowerState) (x : Sink) (d : Nat) : Sink := if p = .run then x.requestDelay d else { x with delay := d }

theorem setDelayBody_delays {k : Byte} (hk : k.toNat < 20) (v : Half) (s : State) :
    setDelayBody (k :: half v) s =
      answer .done (s.setSink k.toNat (delayed s.power.state (s.sink k.toNat) (min 960 v.toNat))) := by
  have operand : u8 (k :: half v) 0 = k.toNat := rfl
  have delay : u16 (k :: half v) 1 = v.toNat := u16_half rfl rfl
  have known : ¬ 19 < k.toNat := by omega
  simp only [setDelayBody, operand, delay, clampNat_zero, known, if_false, delayed]
  split <;> rfl

/-- R63. -/
theorem setDelay_delays (f : Frame) (s : State) (r : Reply) (k : Byte) (v : Half) (x : Sink) (d : Nat) (hr : s.holds .cockpit r)
    (hf : f.carries (k :: half v)) (hk : k.toNat < 20) (hx : x = s.sink k.toNat) (hd : d = min 960 v.toNat) :
    ∃ t y, exec (.setDelay .cockpit f) s = .next t ∧ Taken .cockpit f r (.plain .done) [.mix] s t ∧ Unreported s t
      ∧ t.mix = { s.mix with sinks := s.mix.sinks.set k.toNat y }
      ∧ (s.power.state ≠ .run → y = { x with delay := d })
      ∧ (s.power.state = .run → x.delayState = .steady → d = x.delay → y = x)
      ∧ (s.power.state = .run → x.delayState = .steady → d ≠ x.delay →
          y = { x with pendingDelay := some d, delayState := .fadeOut })
      ∧ (s.power.state = .run → x.delayState = .fadeOut → y = { x with pendingDelay := some d })
      ∧ (s.power.state = .run → x.delayState = .fadeIn → y = { x with pendingDelay := some d, delayState := .fadeOut }) := by
  subst hx hd
  obtain ⟨t, next, taken, quiet, mix⟩ : ∃ t, exec (.setDelay .cockpit f) s = .next t
      ∧ Taken .cockpit f r (.plain .done) [.mix] s t ∧ Unreported s t ∧ t.mix = { s.mix with
          sinks := s.mix.sinks.set k.toNat (delayed s.power.state (s.sink k.toNat) (min 960 v.toNat)) } :=
    order_withMix hr (operands_carries hf) (by rfl) (setDelayBody_delays hk v (s.shiftOut .cockpit (clocked f) r))
  refine ⟨t, _, next, taken, quiet, mix, fun parked => if_neg parked, fun run steady same => ?_, fun run steady other => ?_,
    fun run out => ?_, fun run back => ?_⟩
  · simp [delayed, run, Sink.requestDelay, steady, same]
  · simp [delayed, run, Sink.requestDelay, steady, other]
  · simp [delayed, run, Sink.requestDelay, out]
  · simp [delayed, run, Sink.requestDelay, back]

@[simp] theorem State.offerEdges_call (b s : State) : (State.offerEdges b s).call = s.call :=
  (happens_offerEdges b s).blocks.2 .call (by decide)

/-- An event, told by its work. -/
theorem event_works {bs : List Block} {f : State → State} {s u : State} (work : f s = u) (h : Happens bs s u) :
    ∃ t, event f s = .next t ∧ Happens bs s t ∧ t.mix = u.mix ∧ t.call = u.call := by
  refine ⟨_, rfl, ?_⟩
  rw [work, State.offerEdges_mix, State.offerEdges_call]
  exact ⟨h.trans ((happens_offerEdges s u).mono (by simp)), rfl, rfl⟩

/-- The sink after its fade to 360 is over. -/
def Sink.turned (x : Sink) : Sink :=
  { x with delay := x.pendingDelay.getD x.delay, pendingDelay := none, delayState := .fadeIn, faded := false }

/-- The delay changes on a sink of the reference set (R133). -/
def State.retimes (s : State) (k : Nat) : Prop :=
  (s.sink k).pendingDelay.getD (s.sink k).delay ≠ (s.sink k).delay ∧ hasZone s.call.refZones (Zone.ofSink k) = true

theorem State.fadeOutEnd_of_retimes {s : State} {k : Nat} (out : (s.sink k).delayState = .fadeOut) (faded : (s.sink k).faded = true)
    (h : s.retimes k) : s.fadeOutEnd k = (s.setSink k (s.sink k).turned).resetEcho := by
  obtain ⟨other, reference⟩ := h
  simp [State.fadeOutEnd, out, faded, other, reference, Sink.turned]

theorem State.fadeOutEnd_of_idle {s : State} {k : Nat} (out : (s.sink k).delayState = .fadeOut) (faded : (s.sink k).faded = true)
    (h : ¬ s.retimes k) : s.fadeOutEnd k = s.setSink k (s.sink k).turned := by
  have stands : ¬ ((s.sink k).pendingDelay.getD (s.sink k).delay ≠ (s.sink k).delay
      && hasZone s.call.refZones (Zone.ofSink k)) = true := by simpa [State.retimes] using h
  simp only [State.fadeOutEnd, out, faded, and_self, if_true, if_neg stands, Sink.turned]

/-- The first end of a delay change (R63). -/
theorem fadeOutEnd_turns (k : Fin 20) (s : State) (out : (s.sink k.val).delayState = .fadeOut)
    (faded : (s.sink k.val).faded = true) :
    ∃ t, exec (.delayFadeOutEnd k) s = .next t ∧ Happens [.mix, .call] s t
      ∧ t.mix = { s.mix with sinks := s.mix.sinks.set k.val (s.sink k.val).turned }
      ∧ (s.retimes k.val → t.call = { s.call with echo := s.call.echo.reset }) ∧ (¬ s.retimes k.val → t.call = s.call) := by
  by_cases h : s.retimes k.val
  · obtain ⟨t, next, happens, mix, call⟩ := event_works (bs := [.mix, .call]) (f := fun u => u.fadeOutEnd k.val)
      (State.fadeOutEnd_of_retimes out faded h)
      (((happens_withMix s _).mono (by simp)).trans ((happens_withCall _ _).mono (by simp)))
    exact ⟨t, next, happens, mix, fun _ => call, fun hn => absurd h hn⟩
  · obtain ⟨t, next, happens, mix, call⟩ := event_works (bs := [.mix, .call]) (f := fun u => u.fadeOutEnd k.val)
      (State.fadeOutEnd_of_idle out faded h)
      ((happens_withMix s _).mono (by simp))
    exact ⟨t, next, happens, mix, fun hy => absurd hy h, fun _ => call⟩

/-- Settles O19: SET_DELAY's cases are those of `delayed`, and each event's work is one write of its sink, to which the end of a
fade-out adds a canceller reset. -/
theorem delayAndGuard : Obligations.DelayAndGuard := by
  unfold Obligations.DelayAndGuard
  refine ⟨setDelay_delays, ?_⟩
  rintro k s x rfl
  refine ⟨fun clean => event_withMix (if_pos clean), fun out faded => ?_, fun back zero => event_withMix (if_pos ⟨back, zero⟩)⟩
  obtain ⟨t, next, happens, mix, reset, stands⟩ := fadeOutEnd_turns k s out faded
  refine ⟨t, next, happens, mix, fun other reference => reset ⟨other, reference⟩, fun same => stands fun h => ?_⟩
  obtain ⟨other, reference⟩ := h
  rcases same with same | apart
  · exact other same
  · exact absurd reference (by simp [apart])

/-! ### Speed compensation (R59, R60) -/

/-- R59. -/
theorem speed_sets (f : Frame) (s : State) (r : Reply) (v : Half) (hr : s.holds .body r) (hf : f.carries (half v)) :
    ∃ t, exec (.speed .body f) s = .next t ∧ Taken .body f r (.plain .done) [.mix] s t ∧ Unreported s t
      ∧ t.mix = { s.mix with speed := min 250 v.toNat, stale := false, speedAt := s.clock.now } := by
  have operand : u16 (half v) 0 = v.toNat := u16_half rfl rfl
  refine order_withMix hr (operands_carries hf) (by rfl) ?_
  rw [speedBody, operand, clampNat_zero]
  rfl

theorem State.speedGrowsStale_of_fresh {s : State} (h : s.mix.stale = false) :
    s.speedGrowsStale = (s.reach (s.mix.speedAt + seconds 2)).withMix { s.mix with stale := true } := by
  have mix : (s.reach (s.mix.speedAt + seconds 2)).mix = s.mix := (onlyChanges_reach s _).2 .mix (by decide)
  simp [State.speedGrowsStale, h, mix]

/-- R59, and log entry 7: the clock comes to the moment at which 2 s have passed. -/
theorem speed_grows_stale (s : State) (h : s.mix.stale = false) :
    ∃ t, exec .speedStale s = .next t ∧ Happens [.clock, .ports, .mix] s t ∧ Unreported s t
      ∧ t.mix = { s.mix with stale := true } ∧ t.clock.now = max s.clock.now (s.mix.speedAt + seconds 2) := by
  have work := State.speedGrowsStale_of_fresh h
  obtain ⟨t, next, happens⟩ := event_happens (f := State.speedGrowsStale) (s := s) (bs := [.clock, .ports, .mix]) (work ▸
    ((happens_reach s _).mono (by simp)).trans ((happens_withMix _ _).mono (by simp)))
  obtain rfl := Host.Outcome.next.inj next
  refine ⟨_, next, happens, unreported_event ?_ fun k => ?_, ?_, ?_⟩
  · rw [work]
    exact s.reach_links _
  · rw [work]
    exact levels_of_happens (happens_reach s _) k
  · rw [State.offerEdges_mix, work]
    rfl
  · have clock : (State.offerEdges s s.speedGrowsStale).clock = s.speedGrowsStale.clock :=
      (happens_offerEdges s _).blocks.2 .clock (by decide)
    rw [clock, work]
    exact reach_now s _

/-- At or past a breakpoint, those before it do not count. -/
theorem boostAt_skip {v : Nat} {q : Nat × Int} {rest : List (Nat × Int)} (hq : q.1 ≤ v) (before : List (Nat × Int))
    (rising : ((before ++ q :: rest).map Prod.fst).Pairwise (· < ·)) :
    boostAt v (before ++ q :: rest) = boostAt v (q :: rest) := by
  induction before with
  | nil => rfl
  | cons x before ih =>
    rw [List.cons_append, List.map_cons, List.pairwise_cons] at rising
    obtain ⟨first, rising⟩ := rising
    rw [← ih rising]
    have reached : ∀ y ∈ (before ++ [q]).map Prod.fst, y ≤ v := fun y hy => by
      rw [List.map_append, List.mem_append] at hy
      rcases hy with hy | hy
      · rw [List.map_append, List.pairwise_append] at rising
        exact (rising.2.2 y hy q.1 (by simp)).le.trans hq
      · exact (by simpa using hy : y = q.1) ▸ hq
    cases before with
    | nil =>
      have low : x.1 < q.1 := first _ (by simp)
      rw [List.nil_append, List.cons_append, List.nil_append, boostAt, if_neg (by omega), if_neg (by omega)]
    | cons y before =>
      have low : x.1 < y.1 := first _ (by simp)
      have past : y.1 ≤ v := reached y.1 (by simp)
      rw [List.cons_append, List.cons_append, boostAt, if_neg (by omega), if_neg (by omega)]

theorem boostAt_below {v : Nat} {p : Nat × Int} (rest : List (Nat × Int)) (h : v < p.1) : boostAt v (p :: rest) = p.2 := by
  cases rest with
  | nil => rfl
  | cons q rest => exact if_pos h

/-- R60: the boost below, between and beyond the breakpoints. -/
theorem boostAt_interpolates (v : Nat) (pts : List (Nat × Int)) (rising : (pts.map Prod.fst).Pairwise (· < ·)) :
    (∀ p rest, pts = p :: rest → v < p.1 → boostAt v pts = p.2)
    ∧ (∀ before p, pts = before ++ [p] → p.1 ≤ v → boostAt v pts = p.2)
    ∧ ∀ before p q rest, pts = before ++ p :: q :: rest → p.1 ≤ v → v < q.1 →
        boostAt v pts = p.2 + ((q.2 - p.2) * ((v : Int) - (p.1 : Int))).tdiv ((q.1 : Int) - (p.1 : Int)) := by
  refine ⟨?_, ?_, ?_⟩
  · rintro p rest rfl low
    exact boostAt_below rest low
  · rintro before p rfl past
    exact boostAt_skip past before rising
  · rintro before p q rest rfl past low
    rw [boostAt_skip past before rising, boostAt, if_neg (by omega), if_pos low]

theorem ascending_of_pairwise {pts : List (Nat × Int)} (rising : (pts.map Prod.fst).Pairwise (· < ·)) : ascending pts = true := by
  induction pts with
  | nil => rfl
  | cons p pts ih =>
    rw [List.map_cons, List.pairwise_cons] at rising
    obtain ⟨first, rising⟩ := rising
    cases pts with
    | nil => rfl
    | cons q pts => simp [ascending, ih rising, first q.1 (by simp)]

/-- Byte `j` of the `i`th group of four. -/
theorem getD_flatMap_four {α : Type} {g : α → List Byte} (four : ∀ a, (g a).length = 4) (tail : List Byte) (xs : List α) (i j : Nat)
    (hi : i < xs.length) (hj : j < 4) : (xs.flatMap g ++ tail).getD (4 * i + j) 0 = (g xs[i]).getD j 0 := by
  induction xs generalizing i with
  | nil => exact absurd hi (Nat.not_lt_zero i)
  | cons x xs ih =>
    rw [List.flatMap_cons, List.append_assoc]
    cases i with
    | zero => rw [List.getD_append _ _ _ _ (by rw [four]; omega), Nat.mul_zero, Nat.zero_add]; rfl
    | succ i =>
      rw [List.getD_append_right _ _ _ _ (by rw [four]; omega), four, show 4 * (i + 1) + j - 4 = 4 * i + j by omega]
      exact ih i (Nat.lt_of_succ_lt_succ hi)

/-- A curve's bytes: six pairs of speed and boost, then the zone set. -/
def curveBytes (pts : List (Half × Half)) (z : Byte) : List Byte := pts.flatMap (fun p => half p.1 ++ half p.2) ++ [z]

theorem curveBytes_length {pts : List (Half × Half)} (hl : pts.length = 6) (z : Byte) : (curveBytes pts z).length = 25 := by
  simp [curveBytes, half, hl]

theorem u8_curveBytes {pts : List (Half × Half)} (hl : pts.length = 6) (z : Byte) : u8 (curveBytes pts z) 24 = z.toNat := by
  have pairs : (pts.flatMap fun p => half p.1 ++ half p.2).length = 24 := by simp [half, hl]
  rw [u8, curveBytes, List.getD_append_right _ _ _ _ (by rw [pairs]), pairs]
  rfl

theorem curveOf_curveBytes {pts : List (Half × Half)} (hl : pts.length = 6) (z : Byte) :
    curveOf (curveBytes pts z) = pts.map fun p => (min 250 p.1.toNat, clampInt 0 48 p.2.toInt) := by
  apply List.ext_getElem
  · simp [curveOf, hl]
  intro i _ hi
  have short : i < pts.length := by simpa using hi
  have byte : ∀ j, j < 4 → (curveBytes pts z).getD (4 * i + j) 0 = (half pts[i].1 ++ half pts[i].2).getD j 0 := fun j hj =>
    getD_flatMap_four (g := fun p : Half × Half => half p.1 ++ half p.2) (fun _ => rfl) [z] pts i j short hj
  have speed : u16 (curveBytes pts z) (4 * i) = pts[i].1.toNat := u16_half (byte 0 (by decide)) (byte 1 (by decide))
  have boost : s16 (curveBytes pts z) (4 * i + 2) = pts[i].2.toInt := s16_half (byte 2 (by decide)) (byte 3 (by decide))
  simp only [curveOf, List.getElem_map, List.getElem_range, speed, boost, clampNat_zero]

theorem setSpeedCurveBody_sets {pts : List (Half × Half)} (hl : pts.length = 6) {z : Byte} {zs : ZoneSet} (s : State)
    (hz : zoneSetOf z.toNat = some zs) (speakers : within zs speakerZones = true)
    (rising : (pts.map fun p => min 250 p.1.toNat).Pairwise (· < ·)) :
    setSpeedCurveBody (curveBytes pts z) s = answer .done (s.withMix { s.mix with
      curve := pts.map (fun p => (min 250 p.1.toNat, clampInt 0 48 p.2.toInt)), curveZones := zs }) := by
  have ascends : ascending (pts.map fun p => (min 250 p.1.toNat, clampInt 0 48 p.2.toInt)) = true :=
    ascending_of_pairwise (by simpa [Function.comp_def] using rising)
  rw [setSpeedCurveBody, u8_curveBytes hl, curveOf_curveBytes hl, hz]
  simp [ascends, speakers]

/-- Settles O20: the orders and the stale flag are one write of the Mix Engine each, and the boost is found by induction on the
breakpoints already passed. -/
theorem speedAndCurve : Obligations.SpeedAndCurve := by
  unfold Obligations.SpeedAndCurve
  refine ⟨speed_sets, speed_grows_stale, boostAt_interpolates, ?_⟩
  intro f s r pts z zs hr hl hf hz speakers rising
  have ops := operands_carries (ops := curveBytes pts z) hf
  rw [curveBytes_length hl] at ops
  exact order_withMix hr ops (by rfl) (setSpeedCurveBody_sets hl (s.shiftOut .cockpit (clocked f) r) hz speakers rising)

end Sys2Proof.Machine
end

section
namespace Sys2Proof.Machine

/-! ### Departures and arrivals (R49, R50, R51) -/

/-- Every way for a new arrival to be put on the list. -/
theorem arrive_spec (xs : List Contribution) (w : Wanted) (r : Role) (new : Contribution)
    (put : Contribution → List Contribution → List Contribution) (hr : r ≠ .tail)
    (hput : ∀ c ys, put c ys = if r = .base then { c with role := .base } :: ys else ys ++ [{ c with role := .overlay }])
    (hnew : new = { origin := w.origin, source := w.source, kind := w.kind, role := r, target := 360, applied := 360,
                    ramp := w.ramp, fast := false }) :
    (∀ a c b, xs = a ++ c :: b → c.role = .tail → c.isOf w = true → (∀ y ∈ b, ¬(y.role = .tail ∧ y.isOf w = true)) →
      arrive r w xs = some (put c (a ++ b)))
    ∧ ((∀ y ∈ xs, ¬(y.role = .tail ∧ y.isOf w = true)) →
      (xs.length < 6 → arrive r w xs = some (put new xs))
      ∧ (6 ≤ xs.length → ∀ a c b, xs = a ++ c :: b → c.role = .tail → (∀ y ∈ a, y.role ≠ .tail) →
          arrive r w xs = some (put new (a ++ b)))
      ∧ (6 ≤ xs.length → (∀ y ∈ xs, y.role ≠ .tail) → arrive r w xs = none)) := by
  obtain rfl : put = place r := by
    funext c ys
    rw [hput, place]
    cases r with
    | base => rfl
    | overlay => rfl
    | tail => exact absurd rfl hr
  obtain rfl : new = w.fresh r := hnew
  refine ⟨fun a c b split tail of last => split ▸ arrive_again a tail of last, fun none => ?_⟩
  rw [arrive_new none]
  refine ⟨fun room => if_pos room, fun full a c b split tail first => ?_, fun full no => ?_⟩
  · rw [if_neg (by omega), split, dropOldestTail_append b tail first]
    rfl
  · rw [if_neg (by omega), dropOldestTail_eq_none no]
    rfl

theorem arriveAll_cons (p : Nat × Claim) (rest : List (Nat × Claim)) (xs : List Contribution) :
    (∀ ys, arrive .overlay (p.2.wanted p.1) xs = some ys → arriveAll (p :: rest) xs = arriveAll rest ys)
    ∧ (arrive .overlay (p.2.wanted p.1) xs = none →
        arriveAll (p :: rest) xs = ((arriveAll rest xs).1, p.1 :: (arriveAll rest xs).2)) :=
  ⟨fun ys h => by rw [arriveAll, h], fun h => by rw [arriveAll, h]⟩

/-! ### Overlays by sequence number (R51) -/

theorem mem_insertBySeq (c d : Nat × Claim) (xs : List (Nat × Claim)) : d ∈ insertBySeq c xs ↔ d = c ∨ d ∈ xs := by
  induction xs with
  | nil => simp [insertBySeq]
  | cons x xs ih =>
    unfold insertBySeq
    split
    · simp
    · simp only [List.mem_cons, ih]
      tauto

theorem mem_bySeq (d : Nat × Claim) (xs : List (Nat × Claim)) : d ∈ bySeq xs ↔ d ∈ xs := by
  induction xs with
  | nil => rfl
  | cons x xs ih => rw [bySeq, List.foldr_cons, mem_insertBySeq, List.mem_cons, ← ih, bySeq]

theorem insertBySeq_ordered (c : Nat × Claim) {xs : List (Nat × Claim)} (h : xs.Pairwise fun a b => a.2.seq ≤ b.2.seq) :
    (insertBySeq c xs).Pairwise fun a b => a.2.seq ≤ b.2.seq := by
  induction xs with
  | nil => exact List.pairwise_singleton _ _
  | cons x xs ih =>
    obtain ⟨first, rest⟩ := List.pairwise_cons.1 h
    unfold insertBySeq
    split
    · refine List.pairwise_cons.2 ⟨fun y hy => ?_, h⟩
      obtain rfl | hy := List.mem_cons.1 hy
      · omega
      · have := first y hy
        omega
    · refine List.pairwise_cons.2 ⟨fun y hy => ?_, ih rest⟩
      obtain rfl | hy := (mem_insertBySeq c y xs).1 hy
      · omega
      · exact first y hy

theorem bySeq_ordered (xs : List (Nat × Claim)) : (bySeq xs).Pairwise fun a b => a.2.seq ≤ b.2.seq := by
  induction xs with
  | nil => exact List.Pairwise.nil
  | cons x xs ih => exact insertBySeq_ordered x ih

/-! ### The duck (R25) -/

theorem foldl_max_spec (xs : List Int) (a : Int) :
    a ≤ xs.foldl max a ∧ (∀ y ∈ xs, y ≤ xs.foldl max a) ∧ (xs.foldl max a = a ∨ xs.foldl max a ∈ xs) := by
  induction xs generalizing a with
  | nil => exact ⟨le_rfl, List.forall_mem_nil _, .inl rfl⟩
  | cons x xs ih =>
    obtain ⟨low, all, reached⟩ := ih (max a x)
    refine ⟨(le_max_left a x).trans low, List.forall_mem_cons.2 ⟨(le_max_right a x).trans low, all⟩, ?_⟩
    rw [List.foldl_cons]
    obtain same | mem := reached
    · rw [same]
      rcases max_choice a x with h | h <;> rw [h]
      · exact .inl rfl
      · exact .inr List.mem_cons_self
    · exact .inr (List.mem_cons_of_mem x mem)

/-- The duck of a sink is the greatest of what its contributions impose, and 0 where none imposes any. -/
theorem State.sinkDuck_spec (s : State) (ys : List Contribution) : 0 ≤ s.sinkDuck ys ∧ (∀ c ∈ ys, s.duckOf c ≤ s.sinkDuck ys)
    ∧ (s.sinkDuck ys = 0 ∨ ∃ c ∈ ys, s.duckOf c = s.sinkDuck ys) := by
  obtain ⟨low, all, reached⟩ := foldl_max_spec (ys.map s.duckOf) 0
  exact ⟨low, fun c hc => all _ (List.mem_map_of_mem hc), reached.imp_right List.mem_map.1⟩

theorem State.duckOf_spec (s : State) (c : Contribution) : (c.role ≠ .overlay ∨ c.origin = .program → s.duckOf c = 0)
    ∧ ∀ h x, c.role = .overlay → c.origin = .handle h → s.claim h = some x →
        s.duckOf c = if x.ending then 0 else x.duck.getD 0 := by
  refine ⟨fun h => ?_, fun h x overlay origin claim => by simp only [State.duckOf, overlay, origin, claim]⟩
  cases hr : c.role <;> cases ho : c.origin <;> simp [hr, ho] at h ⊢ <;> simp [State.duckOf, hr, ho]

/-! ### The frame of one sink (R48) -/

/-- The mix reads neither the clock nor the ports. -/
theorem State.mixSink_withClock (s : State) (p : Ports) (c : Clock) (o : Offers) (k : Nat) (x : Sink) :
    ((s.withPorts p).withClock c).mixSink o k x = s.mixSink o k x := rfl

/-- With nothing due, a frame event puts every sink through one frame of the mix, its samples those that the sources offer once
the frame's periods have passed. -/
theorem frameEvent_sink {s : State} (hr : s.power.state = .run) (h : s.nothingDue) (x : FrameInput) :
    ∃ t, exec (.frameEvent x) s = .next t ∧ ∀ k, k < s.mix.sinks.length →
      t.sink k = s.mixSink ((s.reach s.clock.frameDue).offers x) k (s.sink k) := by
  obtain ⟨t, next, -, same⟩ := frameEvent_next hr h x
  refine ⟨t, next, fun k hk => ?_⟩
  have mix : t.mix = ((s.reach s.clock.frameDue).frame x).mix := same .mix (by decide)
  have before : (s.reach s.clock.frameDue).mix = s.mix := (onlyChanges_reach s _).2 .mix (by decide)
  rw [State.sink, mix, State.frame_mix, State.mixFrame, State.withMix_mix, before, getD_map_zipIdx, dif_pos hk, State.sink,
    List.getD_eq_getElem _ _ hk]
  generalize (s.reach s.clock.frameDue).offers x = o
  rw [State.reach_of_run hr]
  exact State.mixSink_withClock _ _ _ _ _ _

/-- What the frame of a sink writes beside its samples: the list brought into line and moved, the duck and the boost. -/
theorem State.mixSink_list (s : State) (o : Offers) (k : Nat) (x : Sink) (ys : List Contribution)
    (h : ys = (align (x.list.map s.markFast) x.waiting (s.wantedBase (Zone.ofSink k)) (s.table.mixed (Zone.ofSink k))).1) :
    (s.mixSink o k x).waiting
        = (align (x.list.map s.markFast) x.waiting (s.wantedBase (Zone.ofSink k)) (s.table.mixed (Zone.ofSink k))).2
      ∧ (s.mixSink o k x).duck = s.sinkDuck ys ∧ (s.mixSink o k x).boost = s.zoneBoost (Zone.ofSink k)
      ∧ (s.mixSink o k x).list = (ys.map (s.moveContribution (Zone.ofSink k) (s.sinkDuck ys) x.guard x.trim)).filter
          fun c => !(c.role = .tail && c.applied == 360) := by
  subst h
  unfold State.mixSink
  dsimp only
  unfold Sink.send Sink.takeClip
  dsimp only
  split <;> exact ⟨rfl, rfl, rfl, rfl⟩

theorem State.zoneBoost_eq (s : State) (z : Zone) :
    s.zoneBoost z = if hasZone s.mix.curveZones z = true ∧ z.station = none then boostAt s.mix.speed s.mix.curve else 0 := by
  simp [State.zoneBoost]

theorem arriveBase_eq (base : Wanted) (D : List Contribution) :
    arriveBase base D = if D.any (fun c => c.role = .base) then D else (arrive .base base D).getD D := by
  unfold arriveBase bases
  by_cases h : D.any (fun c => c.role = .base) = true
  · rw [if_pos h, if_neg]
    simpa using h
  · rw [if_neg h, if_pos]
    simpa using h

/-- R48 step 1 and R51, told by the lists that the arrivals go through. -/
theorem align_spec (xs : List Contribution) (waiting : List Nat) (base : Wanted) (mixed : List (Nat × Claim)) :
    ∃ (D zs : List Contribution) (absent old new : List (Nat × Claim)), D = departures xs base mixed
      ∧ zs = (if D.any (fun c => c.role = .base) then D else (arrive .base base D).getD D)
      ∧ absent = mixed.filter (fun m => zs.all fun c => !(c.role = .overlay && c.origin = .handle m.1))
      ∧ old = waiting.filterMap (fun h => absent.find? fun m => m.1 = h)
      ∧ new.Pairwise (fun a b => a.2.seq ≤ b.2.seq) ∧ (∀ m, m ∈ new ↔ m ∈ absent ∧ m.1 ∉ waiting)
      ∧ align xs waiting base mixed = arriveAll (old ++ new) zs := by
  refine ⟨_, _, _, _, bySeq ((mixed.filter fun m => (arriveBase base (departures xs base mixed)).all fun c =>
    !(c.role = .overlay && c.origin = .handle m.1)).filter fun m => !waiting.contains m.1), rfl, rfl, rfl, rfl, bySeq_ordered _,
    fun m => ?_, ?_⟩
  · rw [mem_bySeq, List.mem_filter, arriveBase_eq]
    simp
  · have absent : ∀ zs : List Contribution, (mixed.filter fun m => !((overlays zs).any fun c => c.origin = .handle m.1)) =
        mixed.filter fun m => zs.all fun c => !(c.role = .overlay && c.origin = .handle m.1) := fun zs => by
      simp only [overlays, List.any_filter, List.all_eq_not_any_not, Bool.not_not]
    rw [← arriveBase_eq, ← absent]
    rfl

/-- One sink's list after a frame event, by its steps. -/
theorem mixSink_lists (s : State) (o : Offers) (k : Nat) (x y : Sink) (z : Zone) (hz : z = Zone.ofSink k)
    (hy : y = s.mixSink o k x) :
    ∃ (D xs ys : List Contribution) (absent old new : List (Nat × Claim)),
      D = departures (x.list.map s.markFast) (s.wantedBase z) (s.table.mixed z)
      ∧ xs = (if D.any (fun c => c.role = .base) then D else (arrive .base (s.wantedBase z) D).getD D)
      ∧ absent = (s.table.mixed z).filter (fun m => xs.all fun c => !(c.role = .overlay && c.origin = .handle m.1))
      ∧ old = x.waiting.filterMap (fun h => absent.find? fun m => m.1 = h)
      ∧ new.Pairwise (fun a b => a.2.seq ≤ b.2.seq) ∧ (∀ m, m ∈ new ↔ m ∈ absent ∧ m.1 ∉ x.waiting)
      ∧ (ys, y.waiting) = arriveAll (old ++ new) xs
      ∧ 0 ≤ y.duck ∧ (∀ c ∈ ys, s.duckOf c ≤ y.duck) ∧ (y.duck = 0 ∨ ∃ c ∈ ys, s.duckOf c = y.duck)
      ∧ y.boost = (if hasZone s.mix.curveZones z = true ∧ z.station = none then boostAt s.mix.speed s.mix.curve else 0)
      ∧ y.list = (ys.map (s.moveContribution z y.duck x.guard x.trim)).filter
          fun c => !(c.role = .tail && c.applied = 360) := by
  subst hz hy
  obtain ⟨D, xs, absent, old, new, hD, hxs, habsent, hold, ordered, members, aligned⟩ :=
    align_spec (x.list.map s.markFast) x.waiting (s.wantedBase (Zone.ofSink k)) (s.table.mixed (Zone.ofSink k))
  obtain ⟨waiting, duck, boost, list⟩ := s.mixSink_list o k x _ rfl
  rw [aligned] at waiting duck list
  obtain ⟨low, all, reached⟩ := s.sinkDuck_spec (arriveAll (old ++ new) xs).1
  refine ⟨D, xs, _, absent, old, new, hD, hxs, habsent, hold, ordered, members, by rw [waiting], ?_, ?_, ?_, ?_, ?_⟩
  · rw [duck]
    exact low
  · rw [duck]
    exact all
  · rw [duck]
    exact reached
  · rw [boost, State.zoneBoost_eq]
  · rw [list, duck]
    rfl

/-! ### Targets (R53, R54, R55) -/

theorem State.isEnding_of_handle {s : State} {c : Contribution} {h : Nat} {x : Claim} (ho : c.origin = .handle h)
    (hc : s.claim h = some x) : s.isEnding c = x.ending := by simp only [State.isEnding, State.claimOf, ho, hc]

theorem State.isEnding_iff (s : State) (c : Contribution) :
    s.isEnding c = true ↔ ∃ h x, c.origin = .handle h ∧ s.claim h = some x ∧ x.ending = true := by
  cases ho : c.origin with
  | program => simp [State.isEnding, State.claimOf, ho]
  | handle h => cases hc : s.claim h <;> simp [State.isEnding, State.claimOf, ho, hc]

/-- R54: what is silenced before any sum. -/
theorem State.target_of_silent {s : State} {z : Zone} {c : Contribution} (duck guard trim : Int)
    (h : c.role = .tail ∨ s.mix.mutes.getD z.code 0 ≠ 0 ∨ ∃ h x, c.origin = .handle h ∧ s.claim h = some x ∧ x.ending = true) :
    s.target z duck guard trim c = 360 := by
  refine if_pos ?_
  obtain tail | muted | ending := h
  · simp [tail]
  · rw [show (s.mute z != 0) = true from bne_iff_ne.2 muted, Bool.or_true]
  · simp [(s.isEnding_iff c).2 ending]

/-- The zone's station is a LINE station (R55). -/
theorem State.zoneClass_line_iff (s : State) (z : Zone) :
    s.zoneClass z = some .line ↔ ∃ st, z.station = some st ∧ (s.station st).jack = .line := by
  simp [State.zoneClass]

/-- The level and the own volume of R53's sum for a contribution, and whether a volume of 360 silences it. -/
def State.placesOn (s : State) (volume : Int) (c : Contribution) (level own : Int) (silences : Prop) : Prop :=
  (c.origin = .program ∧ level = 0 ∧ own = volume ∧ (silences ↔ volume = 360))
    ∨ ∃ h x, c.origin = .handle h ∧ s.claim h = some x ∧ x.ending = false ∧ level = x.level.getD s.call.volume
        ∧ own = (if x.tier = .normal then volume else 0)
        ∧ (silences ↔ (x.level = none ∧ s.call.volume = 360) ∨ (x.tier = .normal ∧ volume = 360))

theorem State.placesOn.not_ending {s : State} {volume level own : Int} {c : Contribution} {silences : Prop}
    (h : s.placesOn volume c level own silences) : s.isEnding c = false := by
  obtain ⟨origin, -⟩ | ⟨k, x, origin, claim, lasting, -⟩ := h
  · simp only [State.isEnding, State.claimOf, origin]
  · rw [State.isEnding_of_handle origin claim, lasting]

theorem State.placesOn.silenced_iff {s : State} {z : Zone} {level own : Int} {c : Contribution} {silences : Prop}
    (h : s.placesOn (s.zoneVolume z) c level own silences) : s.silenced z c = true ↔ silences := by
  obtain ⟨origin, -, -, told⟩ | ⟨k, x, origin, claim, -, -, -, told⟩ := h
  · simp only [told, State.silenced, State.claimOf, origin, beq_iff_eq]
  · simp only [told, State.silenced, State.claimOf, origin, claim]
    simp

theorem State.placesOn.targetSum_eq {s : State} {z : Zone} {level own : Int} {c : Contribution} {silences : Prop}
    (h : s.placesOn (s.zoneVolume z) c level own silences) (duck guard trim : Int) : s.targetSum z duck guard trim c =
      s.sourceTrim c.source + level + own + (if c.role = .base then duck else 0) + trim + guard - s.zoneBoost z := by
  obtain ⟨origin, rfl, rfl, -⟩ | ⟨k, x, origin, claim, -, rfl, rfl, -⟩ := h
  · simp only [State.targetSum, State.claimOf, origin]
  · simp only [State.targetSum, State.claimOf, origin, claim]

/-- R53, R55: the target of what sounds. -/
theorem State.placesOn.target_eq {s : State} {z : Zone} {level own : Int} {c : Contribution} {silences : Prop}
    (h : s.placesOn (s.zoneVolume z) c level own silences) (role : c.role ≠ .tail) (unmuted : s.mix.mutes.getD z.code 0 = 0)
    (duck guard trim : Int) : s.target z duck guard trim c =
      if s.zoneClass z = some .line then clampInt (-24) 360 (24 + s.sourceTrim c.source)
      else if s.silenced z c then 360 else clampInt (-24) 360 (s.targetSum z duck guard trim c) := by
  have unmuted : s.mute z = 0 := unmuted
  refine if_neg ?_
  simp [role, h.not_ending, unmuted]

theorem State.target_spec (s : State) (z : Zone) (duck guard trim sourceTrim volume boost : Int) (c : Contribution)
    (htrim : sourceTrim = (match c.source with
      | .mediaFront => s.mix.trimFront | .mediaRear => s.mix.trimRear | .nav => s.mix.trimNav
      | .tunerA => s.tunA.trim | .tunerB => s.tunB.trim
      | .callDown | .voice _ | .shift | .silence => 0))
    (hvolume : volume = (match z.station with | some st => (s.station st).volume | none => s.mix.volumes.getD z.code 120))
    (hboost : boost = (if hasZone s.mix.curveZones z = true ∧ z.station = none then boostAt s.mix.speed s.mix.curve else 0)) :
    ((c.role = .tail ∨ s.mix.mutes.getD z.code 0 ≠ 0 ∨ ∃ h x, c.origin = .handle h ∧ s.claim h = some x ∧ x.ending = true) →
      s.target z duck guard trim c = 360)
    ∧ ∀ (level own : Int) (silences : Prop), c.role ≠ .tail → s.mix.mutes.getD z.code 0 = 0 →
      s.placesOn volume c level own silences →
      (∀ st, z.station = some st → (s.station st).jack = .line →
        s.target z duck guard trim c = clampInt (-24) 360 (24 + sourceTrim))
      ∧ ((∀ st, z.station = some st → (s.station st).jack ≠ .line) →
        (silences → s.target z duck guard trim c = 360)
        ∧ (¬silences → s.target z duck guard trim c =
            clampInt (-24) 360
              (sourceTrim + level + own + (if c.role = .base then duck else 0) + trim + guard - boost))) := by
  obtain rfl : sourceTrim = s.sourceTrim c.source := htrim
  obtain rfl : volume = s.zoneVolume z := hvolume
  rw [← State.zoneBoost_eq] at hboost
  subst hboost
  refine ⟨State.target_of_silent duck guard trim, fun level own silences role unmuted places => ?_⟩
  rw [places.target_eq role unmuted, places.targetSum_eq]
  refine ⟨fun st station line => if_pos ((s.zoneClass_line_iff z).2 ⟨st, station, line⟩), fun other => ?_⟩
  rw [if_neg fun line => by
    obtain ⟨st, station, jack⟩ := (s.zoneClass_line_iff z).1 line
    exact other st station jack]
  exact ⟨fun h => if_pos (places.silenced_iff.2 h), fun h => if_neg fun k => h (places.silenced_iff.1 k)⟩

/-! ### Ramps (R52) -/

theorem approach_cases {rate : Int} (h : 0 < rate) (target a : Int) :
    (a + rate < target ∧ approach rate target a = a + rate) ∨ (target < a - rate ∧ approach rate target a = a - rate)
      ∨ (a - rate ≤ target ∧ target ≤ a + rate ∧ approach rate target a = target) := by
  unfold approach clampInt
  omega

theorem State.moveContribution_spec (s : State) (z : Zone) (duck guard trim rate : Int) (c d : Contribution) (fast : Bool)
    (hd : d = s.moveContribution z duck guard trim c)
    (hfast : fast = true ↔ c.fast = true
      ∨ (c.role ≠ .tail ∧ ∃ h x, c.origin = .handle h ∧ s.claim h = some x ∧ x.ending = true))
    (hrate : rate = (if fast then 24 else match d.ramp with | .slow => 1 | .medium => 4 | .fast => 24)) :
    (c.role = .tail ∨ c.origin = .program → d.ramp = c.ramp)
      ∧ (∀ h x, c.role ≠ .tail → c.origin = .handle h → s.claim h = some x → d.ramp = x.ramp)
      ∧ d.target = s.target z duck guard trim c ∧ -24 ≤ d.target ∧ d.target ≤ 360
      ∧ d.fast = (c.fast && decide (d.applied ≠ d.target)) ∧ d.role = c.role ∧ d.origin = c.origin ∧ d.source = c.source
      ∧ ((c.applied + rate < d.target ∧ d.applied = c.applied + rate)
          ∨ (d.target < c.applied - rate ∧ d.applied = c.applied - rate)
          ∨ (c.applied - rate ≤ d.target ∧ d.target ≤ c.applied + rate ∧ d.applied = d.target)) := by
  have marked : fast = (c.fast || (c.role ≠ .tail && s.isEnding c)) := by
    rw [Bool.eq_iff_iff, hfast, ← s.isEnding_iff]
    simp
  have ramp : d.ramp = s.rampOf c := hd ▸ rfl
  have rated : rate = if fast then Ramp.fast.rate else d.ramp.rate := by
    rw [hrate]
    cases d.ramp <;> rfl
  have applied : d.applied = approach rate (s.target z duck guard trim c) c.applied := by
    rw [rated, marked, ramp, hd]
    rfl
  have positive : 0 < rate := by
    rw [rated]
    split <;> exact Ramp.rate_pos _
  have target : d.target = s.target z duck guard trim c := hd ▸ rfl
  obtain ⟨low, high⟩ := s.target_bounds z duck guard trim c
  refine ⟨fun h => ?_, fun h x role origin claim => ?_, target, target ▸ low, target ▸ high, ?_, hd ▸ rfl, hd ▸ rfl, hd ▸ rfl, ?_⟩
  · rw [ramp, State.rampOf]
    obtain tail | program := h
    · rw [if_pos tail]
    · simp only [State.claimOf, program, ite_self]
  · rw [ramp, State.rampOf, if_neg role]
    simp only [State.claimOf, origin, claim]
  · have cleared : d.fast = (c.fast && d.applied != d.target) := hd ▸ rfl
    rw [cleared, Bool.eq_iff_iff]
    simp
  · rw [applied, target]
    exact approach_cases positive _ _

/-- Settles O53: the departures and arrivals by the lists they cut and join, the duck as the greatest of a list, the targets by the
terms of R53's sum, and the ramps by their clamp. -/
theorem contributionList : Obligations.ContributionList := by
  unfold Obligations.ContributionList
  refine ⟨fun xs D gone base mixed hD hgone => ?_, arrive_spec, arriveAll_cons, fun s x hr hd hl => ?_, State.duckOf_spec,
    State.target_spec, State.moveContribution_spec⟩
  · subst hD hgone
    exact ⟨departures_length xs base mixed, departures_eq xs base mixed⟩
  · obtain ⟨t, next, sinks⟩ := frameEvent_sink hr hd x
    exact ⟨t, next, fun k z hk hz => mixSink_lists s _ k (s.sink k) (t.sink k) z hz (sinks k (by omega))⟩

end Sys2Proof.Machine
end

section
namespace Sys2Proof.Machine

/-! ### Members of lists, with a default -/

theorem getD_zipWith {α β γ : Type} (f : α → β → γ) {xs : List α} {ys : List β} {i : Nat} (hx : i < xs.length) (hy : i < ys.length)
    (a : α) (b : β) (c : γ) : (List.zipWith f xs ys).getD i c = f (xs.getD i a) (ys.getD i b) := by
  simp [List.getD_eq_getElem?_getD, hx, hy]

theorem getD_take {α : Type} {n i : Nat} (h : i < n) (xs : List α) (d : α) : (xs.take n).getD i d = xs.getD i d := by
  simp [List.getD_eq_getElem?_getD, h]

theorem getD_drop {α : Type} (n i : Nat) (xs : List α) (d : α) : (xs.drop n).getD i d = xs.getD (n + i) d := by
  simp [List.getD_eq_getElem?_getD]

theorem getD_map_range {α : Type} (n i : Nat) (f : Nat → α) (d : α) :
    ((List.range n).map f).getD i d = if i < n then f i else d := by
  split
  · next h => simp [List.getD_eq_getElem?_getD, h]
  · next h => rw [List.getD_eq_default _ _ (by simpa using h)]

theorem fit_length {α : Type} (n : Nat) (d : α) (xs : List α) : (fit n d xs).length = n := by simp [fit]

theorem getD_fit {α : Type} {n i : Nat} (h : i < n) (d : α) (xs : List α) : (fit n d xs).getD i d = xs.getD i d := by
  rw [fit, getD_take h]
  by_cases hi : i < xs.length
  · exact List.getD_append xs _ d i hi
  · rw [List.getD_append_right xs _ d i (by omega), List.getD_eq_default xs d (by omega), List.getD_replicate d (by omega)]

/-! ### What the sources hand over (R13, R14, R103, R156) -/

theorem heardPair_eq (h : Option Heard) (p : WireSample × WireSample) : heardPair h p = heardSample h p := by
  obtain ⟨l, r⟩ := p
  rcases h with _ | ⟨_ | _, sep⟩ <;> rfl

theorem tunerOutput_getD {i : Nat} (h : i < 48) (heard : List (Option Heard)) (demod : List (WireSample × WireSample)) :
    (tunerOutput heard demod).getD i (0, 0) = heardSample (heard.getD i none) (demod.getD i (0, 0)) := by
  rw [tunerOutput, getD_zipWith heardPair (by rwa [fit_length]) (by rwa [fit_length]) none (0, 0), getD_fit h, getD_fit h,
    heardPair_eq]

theorem mono_getD (xs : List Int) (i : Nat) : (mono xs).getD i (0, 0) = (xs.getD i 0, xs.getD i 0) := List.getD_map xs 0 fun x => (x, x)

/-- One slot of a port's frames, 0 where no frame was delivered. -/
theorem slot_getD (sets : List (List Int)) (slot i : Nat) :
    (sets.map fun set => set.getD slot 0).getD i 0 = (sets.getD i []).getD slot 0 := List.getD_map sets [] fun set => set.getD slot 0

/-- R101: the word behind the `i`th is the `i`th behind the next. -/
theorem State.ring_ringNext (s : State) (a : Addr) {i : Nat} (h : i < 65535) :
    s.ring (s.store.ringNext a) i = s.ring a (i + 1) := by
  have ha := a.isLt
  unfold State.ring Store.ringNext Store.shiftFirst
  apply BitVec.eq_of_toNat_eq
  by_cases last : a = 16777215
  · subst last
    have base : s.store.u1 * 65536 % 16777216 + i < 16777216 := by omega
    have passed : ¬ (16777215 : Addr).toNat + (i + 1) < 16777216 := by
      rw [show (16777215 : Addr).toNat = 16777215 from rfl]
      omega
    have rest : (16777215 : Addr).toNat + (i + 1) - 16777216 = i := by
      rw [show (16777215 : Addr).toNat = 16777215 from rfl]
      omega
    rw [if_pos rfl, if_neg passed, rest]
    simp only [BitVec.toNat_ofNat]
    rw [if_pos base]
    omega
  · have next : (a + 1).toNat = a.toNat + 1 := by bv_omega
    rw [if_neg last, next, Nat.add_assoc, Nat.add_comm 1 i]

theorem ringRead_getElem? (s : State) (n i : Nat) (a : Addr) (hn : n ≤ 65535) :
    (s.store.ringRead n a)[i]? = if i < n then some (s.store.read (s.ring a i)) else none := by
  induction n generalizing i a with
  | zero => rfl
  | succ n ih =>
    cases i with
    | zero =>
      have here : s.ring a 0 = a := by
        unfold State.ring
        rw [Nat.add_zero, if_pos a.isLt, BitVec.ofNat_toNat, BitVec.setWidth_eq]
      rw [here]
      rfl
    | succ i =>
      rw [Store.ringRead, List.getElem?_cons_succ, ih i _ (by omega)]
      by_cases hi : i < n
      · rw [if_pos hi, if_pos (by omega), s.ring_ringNext a (by omega)]
      · rw [if_neg hi, if_neg (by omega)]

theorem replayWords_getD (s : State) {i : Nat} (h : i < 48) :
    (s.replayWords.map fun w => (widen (upper w), widen (lower w))).getD i (0, 0) =
      if (s.shift.state = .replay ∨ s.shift.state = .memoReplay) ∧ i < s.shift.fill then
        (256 * ((s.store.read (s.ring (s.shift.replay.getD s.store.shiftFirst) i)).extractLsb' 16 16).toInt,
          256 * ((s.store.read (s.ring (s.shift.replay.getD s.store.shiftFirst) i)).extractLsb' 0 16).toInt)
      else (0, 0) := by
  rw [List.getD_eq_getElem?_getD, List.getElem?_map, State.replayWords]
  by_cases replaying : s.shift.state = .replay ∨ s.shift.state = .memoReplay
  · rw [if_pos (by simpa [ShiftBuffer.replaying] using replaying), ringRead_getElem? s _ i _ (by omega)]
    by_cases hi : i < s.shift.fill
    · rw [if_pos (by omega), if_pos ⟨replaying, hi⟩]
      simp [widen, upper, lower, Int.mul_comm]
    · rw [if_neg (by omega), if_neg fun k => hi k.2]
      rfl
  · rw [if_neg (by simpa [ShiftBuffer.replaying] using replaying), if_neg fun k => replaying k.1]
    rfl

theorem voiceSamples_getD (s : State) (v : Voice) {i : Nat} (h : i < 48) :
    (s.voiceSamples v).getD i 0 = match v.desc.bind s.desc with
      | some d => if (v.state = .playing ∨ v.state = .stopping) ∧ i < v.remaining then 256 * s.soundSample d (v.position + i) else 0
      | none => 0 := by
  unfold State.voiceSamples
  cases v.desc.bind s.desc with
  | none => rfl
  | some d =>
    have sample : ∀ j, widen (s.store.sample d.start j) = 256 * s.soundSample d j := fun j => Int.mul_comm _ _
    show ((List.range v.due).map fun i => widen (s.store.sample d.start (v.position + i))).getD i 0 = _
    rw [getD_map_range, sample]
    refine if_congr ?_ rfl rfl
    unfold Voice.due
    by_cases sounding : v.state = .playing ∨ v.state = .stopping
    · simp [sounding, h]
    · simp [sounding]

/-- Each source hands over what the statement's `sampleOf` names. -/
theorem State.offers_getD (s : State) (x : FrameInput) {i : Nat} (h : i < 48) (src : Source) :
    (fit 48 (0, 0) (s.offers x src)).getD i (0, 0) = s.sampleOf x i src := by
  rw [getD_fit h]
  cases src with
  | tunerA => exact tunerOutput_getD h _ _
  | tunerB => exact tunerOutput_getD h _ _
  | mediaFront => exact List.getD_map s.ports.p0.delivered [] fun set => (set.getD 0 0, set.getD 1 0)
  | mediaRear => exact List.getD_map s.ports.p1.delivered [] fun set => (set.getD 0 0, set.getD 1 0)
  | nav =>
    refine (mono_getD _ i).trans ?_
    rw [slot_getD]
    rfl
  | callDown =>
    refine (mono_getD _ i).trans ?_
    rw [slot_getD]
    rfl
  | voice n =>
    refine (mono_getD _ i).trans ?_
    rw [voiceSamples_getD s _ h]
    unfold State.sampleOf
    dsimp only
    cases (s.voice n.val).desc.bind s.desc with
    | none => rfl
    | some d => dsimp only; split <;> rfl
  | shift => exact replayWords_getD s h
  | silence => exact List.getD_replicate (0, 0) h

/-! ### The sums of a sink (R48, R55 to R58) -/

/-- The product of a contribution's sample in period `i` with its multiplier (R57). -/
def State.productOf (s : State) (k i : Nat) (o : Offers) (c : Contribution) : Int :=
  product ((s.sideOf k).pick ((fit 48 (0, 0) (o c.source)).getD i (0, 0))) (gain (s.used (Zone.ofSink k) c.applied))

theorem State.sums_getD (s : State) {k i : Nat} (h : i < 48) (o : Offers) (xs : List Contribution) :
    (s.sums k o xs).getD i 0 = (xs.map (s.productOf k i o)).sum := by
  have summed : ∀ (xs : List Contribution) (acc : List Int), acc.length = 48 → (xs.foldl (fun acc x =>
      List.zipWith (fun a p => a + product ((s.sideOf k).pick p) (gain (s.used (Zone.ofSink k) x.applied))) acc
        (fit 48 (0, 0) (o x.source))) acc).getD i 0 = acc.getD i 0 + (xs.map (s.productOf k i o)).sum := by
    intro xs
    induction xs with
    | nil => exact fun acc _ => (Int.add_zero _).symm
    | cons x xs ih =>
      intro acc hacc
      rw [List.foldl_cons, ih _ (by simp [hacc, fit_length]), getD_zipWith _ (hacc ▸ h) (by rwa [fit_length]) 0 (0, 0), List.map_cons,
        List.sum_cons, Int.add_assoc]
      rfl
  rw [State.sums, summed xs _ silentFrame_length, silentFrame, List.getD_replicate 0 h, Int.zero_add]

theorem sum_map_filter {α : Type} (p : α → Bool) (f : α → Int) (xs : List α) (h : ∀ x ∈ xs, p x = false → f x = 0) :
    ((xs.filter p).map f).sum = (xs.map f).sum := by
  induction xs with
  | nil => rfl
  | cons x xs ih =>
    obtain ⟨first, rest⟩ := List.forall_mem_cons.1 h
    cases hp : p x with
    | true => simp [hp, ih rest]
    | false => simp [hp, ih rest, first hp]

/-- A contribution at 360 adds nothing, whatever the cap of its station. -/
theorem State.productOf_of_silent (s : State) (k i : Nat) (o : Offers) {c : Contribution} (cap : s.stations.cap ≤ 120)
    (h : c.applied = 360) : s.productOf k i o c = 0 := by
  have used : s.used (Zone.ofSink k) c.applied = 360 := by
    unfold State.used
    split <;> omega
  rw [State.productOf, used, gain, if_pos rfl, product, Int.mul_zero]
  rfl

/-- R16: the side of a sink with its station's swap. -/
def State.swapOf (s : State) (k : Nat) : Bool :=
  ((k == 16 || k == 17) && (s.station .one).swap) || ((k == 18 || k == 19) && (s.station .two).swap)

/-- Sinks 16 and 17 are station 1's, sinks 18 and 19 station 2's (R15). -/
theorem Zone.ofSink_station : ∀ k, k < 20 →
    (Zone.ofSink k).station = if k = 16 ∨ k = 17 then some .one else if k = 18 ∨ k = 19 then some .two else none := by decide

theorem State.sideOf_eq (s : State) {k : Nat} (h : k < 20) :
    s.sideOf k = if s.swapOf k then (Side.ofSink k).swapped else Side.ofSink k := by
  unfold State.sideOf
  rw [Zone.ofSink_station k h]
  by_cases one : k = 16 ∨ k = 17
  · have two : ¬(k = 18 ∨ k = 19) := by omega
    simp [State.swapOf, one, two]
  · by_cases two : k = 18 ∨ k = 19
    · simp [State.swapOf, one, two]
    · simp [State.swapOf, one, two]

theorem State.used_eq (s : State) (z : Zone) (a : Int) : s.used z a =
    if s.zoneClass z = some .headphone ∨ s.zoneClass z = some .headset then max a s.stations.cap else a := by
  unfold State.used
  cases s.zoneClass z with
  | none => rfl
  | some c => cases c <;> rfl

/-! ### The output path (R61, R62, R63) -/

theorem getD_reverse_append {n j : Nat} {xs : List Int} (hx : xs.length = n) (ys : List Int) :
    (xs.reverse ++ ys).getD j 0 = if j < n then xs.getD (n - 1 - j) 0 else ys.getD (j - n) 0 := by
  have hl : xs.reverse.length = n := by rw [List.length_reverse, hx]
  split
  · next h => rw [List.getD_append _ _ _ _ (hl ▸ h), List.getD_reverse j (hx ▸ h), hx]
  · next h => rw [List.getD_append_right _ _ _ _ (by omega), hl]

/-- Sample `i` of the frame behind a delay of `d`: the frame's own sum, or one that the line holds. -/
theorem delayed_getD {d i : Nat} {sums line : List Int} (hs : sums.length = 48) (hl : line.length = 960) (hd : d ≤ 960) (hi : i < 48) :
    (((sums.reverse ++ line).drop d).take 48).reverse.getD i 0 =
      if d ≤ i then sums.getD (i - d) 0 else line.getD (d - 1 - i) 0 := by
  have len : (((sums.reverse ++ line).drop d).take 48).length = 48 := by simp [hs, hl]; omega
  rw [List.getD_reverse i (by omega), len, getD_take (by omega), getD_drop, getD_reverse_append hs]
  by_cases h : d ≤ i
  · rw [if_pos h, if_pos (by omega), show 48 - 1 - (d + (48 - 1 - i)) = i - d by omega]
  · rw [if_neg h, if_neg (by omega), show d + (48 - 1 - i) - 48 = d - 1 - i by omega]

theorem sat24_map_getD (xs : List Int) (i : Nat) : (xs.map sat24).getD i 0 = clampInt (-8388608) 8388607 (xs.getD i 0) :=
  List.getD_map xs 0 sat24

/-- A frame's sums clip where one of them is not kept by the saturation. -/
theorem clips_iff {raw : List Int} (h : raw.length = 48) :
    (raw != raw.map sat24) = true ↔ ∃ i, i < 48 ∧ raw.getD i 0 ≠ clampInt (-8388608) 8388607 (raw.getD i 0) := by
  rw [bne_iff_ne, ← not_iff_not, not_not]
  push Not
  constructor
  · intro same i _
    rw [← sat24_map_getD, ← same]
  · intro same
    apply List.ext_getElem (by simp)
    intro i hi _
    have := same i (h ▸ hi)
    rw [List.getD_eq_getElem _ _ hi] at this
    rw [List.getElem_map]
    exact this

/-- R16: the side by the sink's number. -/
theorem Side.ofSink_of_mem : (∀ k ∈ [0, 2, 5, 7, 9, 11, 14, 16, 18], Side.ofSink k = .left ∧ k < 20)
    ∧ (∀ k ∈ [1, 3, 6, 8, 10, 12, 15, 17, 19], Side.ofSink k = .right ∧ k < 20)
    ∧ ∀ k ∈ [4, 13], Side.ofSink k = .sum ∧ k < 20 := by decide

theorem State.pick_eq (s : State) (k : Nat) :
    (k ∈ [0, 2, 5, 7, 9, 11, 14, 16, 18] → ∀ p, (s.sideOf k).pick p = if s.swapOf k then p.2 else p.1)
      ∧ (k ∈ [1, 3, 6, 8, 10, 12, 15, 17, 19] → ∀ p, (s.sideOf k).pick p = if s.swapOf k then p.1 else p.2)
      ∧ (k ∈ [4, 13] → ∀ p, (s.sideOf k).pick p = (p.1 + p.2) / 2) := by
  obtain ⟨left, right, sum⟩ := Side.ofSink_of_mem
  refine ⟨fun hk p => ?_, fun hk p => ?_, fun hk p => ?_⟩
  · obtain ⟨side, short⟩ := left k hk
    rw [s.sideOf_eq short, side]
    split <;> rfl
  · obtain ⟨side, short⟩ := right k hk
    rw [s.sideOf_eq short, side]
    split <;> rfl
  · obtain ⟨side, short⟩ := sum k hk
    rw [s.sideOf_eq short, side]
    split <;> rfl

/-! ### One sink's samples at a frame event -/

/-- The frame of a sink as its new list, then its guard, then its output path. -/
theorem State.mixSink_eq (s : State) (o : Offers) (k : Nat) (x : Sink) :
    ∃ (list : List Contribution) (waiting : List Nat) (duck boost : Int) (raw : List Int),
      s.mixSink o k x = (({ x with list := list, waiting := waiting, duck := duck, boost := boost }).takeClip
          (raw != raw.map sat24)).send (raw.map sat24) (s.forcedSilent (Zone.ofSink k))
        ∧ raw.length = 48
        ∧ (s.stations.cap ≤ 120 → ∀ i, i < 48 → raw.getD i 0 = (list.map (s.productOf k i o)).sum) := by
  refine ⟨_, _, _, _, _, rfl, s.sums_length k o _, fun cap i hi => ?_⟩
  rw [s.sums_getD hi]
  refine (sum_map_filter _ _ _ fun c _ gone => ?_).symm
  exact s.productOf_of_silent k i o cap (by simp at gone; exact gone.2)

section
variable (x : Sink) (clip : Bool)

@[simp] theorem Sink.takeClip_list : (x.takeClip clip).list = x.list := by cases clip <;> rfl
@[simp] theorem Sink.takeClip_clip : (x.takeClip clip).clip = clip := by cases clip <;> rfl
@[simp] theorem Sink.takeClip_delay : (x.takeClip clip).delay = x.delay := by cases clip <;> rfl
@[simp] theorem Sink.takeClip_delayState : (x.takeClip clip).delayState = x.delayState := by cases clip <;> rfl
@[simp] theorem Sink.takeClip_fadeNow : (x.takeClip clip).fadeNow = x.fadeNow := by cases clip <;> rfl
@[simp] theorem Sink.takeClip_line : (x.takeClip clip).line = x.line := by cases clip <;> rfl
@[simp] theorem Sink.send_list (sums : List Int) (silent : Bool) : (x.send sums silent).list = x.list := rfl
@[simp] theorem Sink.send_clip (sums : List Int) (silent : Bool) : (x.send sums silent).clip = x.clip := rfl

theorem Sink.takeClip_guard : (clip = true → (x.takeClip clip).guard = min 24 (x.guard + 2) ∧ (x.takeClip clip).clean = 0)
    ∧ (clip = false → (x.takeClip clip).guard = x.guard ∧ (x.takeClip clip).clean = x.clean + 1) := by
  cases clip
  · exact ⟨nofun, fun _ => ⟨rfl, rfl⟩⟩
  · exact ⟨fun _ => ⟨rfl, rfl⟩, nofun⟩

end

theorem Sink.fadeNow_spec (x : Sink) : (x.delayState = .steady → x.fadeNow = x.fade)
    ∧ (x.delayState = .fadeOut → x.fadeNow = min 360 (x.fade + 24)) ∧ (x.delayState = .fadeIn → x.fadeNow = x.fade - 24) := by
  refine ⟨fun h => ?_, fun h => ?_, fun h => ?_⟩ <;> rw [Sink.fadeNow, h]

/-- R62, R63: what the output path makes of a frame's sums. -/
theorem Sink.send_spec (x : Sink) {sums : List Int} (hs : sums.length = 48) (hl : x.line.length = 960) (hd : x.delay ≤ 960)
    (silent : Bool) :
    (x.send sums silent).fade = x.fadeNow
      ∧ ((x.send sums silent).faded = true ↔ x.delayState = .fadeOut ∧ x.fadeNow = 360)
      ∧ (∀ j, j < 960 → (x.send sums silent).line.getD j 0 = if j < 48 then sums.getD (47 - j) 0 else x.line.getD (j - 48) 0)
      ∧ ∀ i, i < 48 → (x.send sums silent).computed.getD i 0 =
          if silent then 0
          else product (if x.delay ≤ i then sums.getD (i - x.delay) 0 else x.line.getD (x.delay - 1 - i) 0) (gain x.fadeNow) := by
  refine ⟨rfl, by simp [Sink.send], fun j hj => ?_, fun i hi => ?_⟩
  · exact (getD_take hj _ 0).trans (getD_reverse_append hs x.line)
  · rw [← delayed_getD hs hl hd hi]
    unfold Sink.send
    dsimp only
    cases silent with
    | true => exact List.getD_replicate 0 hi
    | false =>
      have len : (((sums.reverse ++ x.line).drop x.delay).take 48).reverse.length = 48 := by simp [hs, hl]; omega
      rw [if_neg Bool.false_ne_true, if_neg Bool.false_ne_true, List.getD_eq_getElem _ _ (by rwa [List.length_map, len]), List.getElem_map,
        ← List.getD_eq_getElem _ 0]

theorem State.forcedSilent_iff (s : State) (z : Zone) :
    s.forcedSilent z = true ↔ s.zoneClass z = some .vacant ∨ s.zoneClass z = some .short := by simp [State.forcedSilent]

/-- One sink's frame, from the samples that the sources hand over to those it will send. -/
theorem mixSink_samples {s : State} {x : FrameInput} {o : Offers} {k : Nat} {a b : Sink}
    (offered : ∀ i, i < 48 → ∀ src, (fit 48 (0, 0) (o src)).getD i (0, 0) = s.sampleOf x i src)
    (cap : s.stations.cap ≤ 120) (sized : a.Sized) (hb : b = s.mixSink o k a) :
    ∃ (raw delayed : Nat → Int) (used : Int → Int) (o d : Nat) (swap : Bool) (side : Int × Int → Int),
      swap = (((k == 16 || k == 17) && (s.station .one).swap) || ((k == 18 || k == 19) && (s.station .two).swap))
      ∧ (k ∈ [0, 2, 5, 7, 9, 11, 14, 16, 18] → ∀ p, side p = if swap then p.2 else p.1)
      ∧ (k ∈ [1, 3, 6, 8, 10, 12, 15, 17, 19] → ∀ p, side p = if swap then p.1 else p.2)
      ∧ (k ∈ [4, 13] → ∀ p, side p = (p.1 + p.2) / 2) ∧
      (∀ a, used a = if s.zoneClass (Zone.ofSink k) = some .headphone ∨ s.zoneClass (Zone.ofSink k) = some .headset
        then max a s.stations.cap else a)
      ∧ (∀ i, i < 48 → raw i = (b.list.map fun c =>
          (side (s.sampleOf x i c.source) * gain (used c.applied) + 16384) / 32768).sum)
      ∧ (b.clip = true ↔ ∃ i, i < 48 ∧ raw i ≠ clampInt (-8388608) 8388607 (raw i))
      ∧ (b.clip = true → b.guard = min 24 (a.guard + 2) ∧ b.clean = 0)
      ∧ (b.clip = false → b.guard = a.guard ∧ b.clean = a.clean + 1)
      ∧ (∀ j, j < 48 → b.line.getD j 0 = clampInt (-8388608) 8388607 (raw (47 - j)))
      ∧ (∀ j, 48 ≤ j → j < 960 → b.line.getD j 0 = a.line.getD (j - 48) 0)
      ∧ (a.delayState = .steady → o = a.fade)
      ∧ (a.delayState = .fadeOut → o = min 360 (a.fade + 24))
      ∧ (a.delayState = .fadeIn → o = a.fade - 24)
      ∧ b.fade = o ∧ (b.faded = true ↔ a.delayState = .fadeOut ∧ o = 360)
      ∧ d = a.delay
      ∧ (∀ i, i < 48 → delayed i = if d ≤ i then clampInt (-8388608) 8388607 (raw (i - d)) else a.line.getD (d - 1 - i) 0)
      ∧ ∀ i, i < 48 → b.computed.getD i 0 =
          if s.zoneClass (Zone.ofSink k) = some .vacant ∨ s.zoneClass (Zone.ofSink k) = some .short then 0
          else (delayed i * gain o + 16384) / 32768 := by
  obtain ⟨list, waiting, duck, boost, raw, work, len, sums⟩ := s.mixSink_eq o k a
  subst hb
  rw [work]
  have len' : (raw.map sat24).length = 48 := by rwa [List.length_map]
  generalize hc : (raw != raw.map sat24) = clip
  generalize hy : ({ a with list := list, waiting := waiting, duck := duck, boost := boost } : Sink) = y
  have listed : y.list = list := hy ▸ rfl
  have line : y.line = a.line := hy ▸ rfl
  have delay : y.delay = a.delay := hy ▸ rfl
  have moving : y.delayState = a.delayState := hy ▸ rfl
  have fading : y.fadeNow = a.fadeNow := hy ▸ rfl
  obtain ⟨fade, faded, fed, sent⟩ := Sink.send_spec (y.takeClip clip) len' (by simpa [line] using sized.line)
    (by simpa [delay] using sized.delay) (s.forcedSilent (Zone.ofSink k))
  obtain ⟨rises, falls⟩ := y.takeClip_guard clip
  simp only [Sink.takeClip_line, Sink.takeClip_delay, Sink.takeClip_delayState, Sink.takeClip_fadeNow, line, delay, moving, fading,
    sat24_map_getD] at fade faded fed sent
  obtain ⟨left, right, sum⟩ := s.pick_eq k
  obtain ⟨steady, out, back⟩ := a.fadeNow_spec
  refine ⟨fun i => raw.getD i 0, _, s.used (Zone.ofSink k), a.fadeNow, a.delay, s.swapOf k, (s.sideOf k).pick, rfl, left, right, sum,
    s.used_eq _, fun i hi => ?_, ?_, ?_, ?_, fun j hj => ?_, fun j hj hl => ?_, steady, out, back, fade, faded, rfl,
    fun i _ => rfl, fun i hi => ?_⟩
  · rw [Sink.send_list, Sink.takeClip_list, listed]
    refine (sums cap i hi).trans (congrArg List.sum (List.map_congr_left fun c _ => ?_))
    rw [State.productOf, offered i hi, product]
  · rw [Sink.send_clip, Sink.takeClip_clip, ← hc]
    exact clips_iff len
  · exact fun h => hy ▸ rises (by simpa using h)
  · exact fun h => hy ▸ falls (by simpa using h)
  · rw [fed j (by omega), if_pos hj]
  · rw [fed j hl, if_neg (by omega)]
  · rw [sent i hi, product]
    exact if_congr (s.forcedSilent_iff _) rfl rfl

/-! ### Q0 and Q1 (R17) -/

theorem slotOf_low (v : Int) : (slotOf v).extractLsb' 0 8 = 0 := BitVec.extractLsb'_append_eq_right

theorem slotOf_high {v : Int} (h : inSample v) : ((slotOf v).extractLsb' 8 24).toInt = v := by
  obtain ⟨low, high⟩ := h
  have slot : (slotOf v).extractLsb' 8 24 = BitVec.ofInt 24 v := BitVec.extractLsb'_append_eq_left
  rw [slot]
  exact BitVec.toInt_ofInt_eq_self (by decide) low (by omega)

theorem outputSlot_spec {s : State} {i k : Nat} {w : Word} (h : w = s.outputSlot i k) :
    (s.power.state ≠ .run → w = 0)
      ∧ (s.power.state = .run → w.extractLsb' 0 8 = 0
          ∧ (inSample ((s.sink k).sending.getD i 0) → (w.extractLsb' 8 24).toInt = (s.sink k).sending.getD i 0)) := by
  refine ⟨fun parked => h.trans (if_neg parked), fun run => ?_⟩
  have slot : w = slotOf ((s.sink k).sending.getD i 0) := h.trans (if_pos run)
  rw [slot]
  exact ⟨slotOf_low _, slotOf_high⟩

/-- The slots of the two ports carry the output slots of sinks 0..15 and 16..19. -/
theorem ports_slots {s : State} {i k : Nat} {w : Word} (h : (k < 16 ∧ (s.q0 i)[k]? = some w) ∨ (16 ≤ k ∧ (s.q1 i)[k - 16]? = some w)) :
    w = s.outputSlot i k := by
  obtain ⟨hk, h⟩ | ⟨hk, h⟩ := h
  · rw [State.q0, List.getElem?_map, List.getElem?_range hk] at h
    exact (Option.some.inj h).symm
  · have short : k - 16 < 4 := by
      obtain ⟨len, -⟩ := List.getElem?_eq_some_iff.1 h
      simpa [State.q1] using len
    rw [State.q1, List.getElem?_map, List.getElem?_range short] at h
    exact (Option.some.inj h).symm.trans (congrArg (s.outputSlot i) (by omega))

/-- What the sources offer, told of the state before the frame's moment is reached. -/
theorem State.reach_offers {s : State} (h : s.clock.periods = 48) (t : Time) (x : FrameInput) :
    (s.reach t).offers x = s.offers x := by
  have ports := State.reach_ports_of_full h t
  have reached := (onlyChanges_reach s t).2
  have shift : (s.reach t).shift = s.shift := reached .shift (by decide)
  have store : (s.reach t).store = s.store := reached .store (by decide)
  have chime : (s.reach t).chime = s.chime := reached .chime (by decide)
  have desc : (s.reach t).desc = s.desc := by
    funext d
    simp only [State.desc, chime]
  funext src
  cases src <;> simp only [State.offers, ports, State.replayWords, shift, store, State.voiceSamples, State.voice, desc, chime]

/-- Settles O54: the sums as sums of products over the list, the guard, the delay line and the fade by the members of the lists they
make, and the slots by their bits. -/
theorem samplesAndOutputs : Obligations.SamplesAndOutputs := by
  unfold Obligations.SamplesAndOutputs
  refine ⟨fun s x hr hd sized full => ?_, fun s i => ⟨by simp [State.q0], by simp [State.q1], fun k w h => outputSlot_spec (ports_slots h)⟩⟩
  obtain ⟨t, next, sinks⟩ := frameEvent_sink hr hd x
  obtain ⟨mix, ⟨-, cap⟩, -⟩ := s.sizesWf_iff.1 sized
  refine ⟨t, next, fun k hk => mixSink_samples (fun i hi src => s.offers_getD x hi src) cap ?_ ?_⟩
  · have short : k < s.mix.sinks.length := by rw [mix.sinks]; exact hk
    rw [State.sink, List.getD_eq_getElem _ _ short]
    exact mix.each _ (List.getElem_mem short)
  · rw [sinks k (by rw [mix.sinks]; exact hk), State.reach_offers full]

end Sys2Proof.Machine
end

section
namespace Sys2Proof.Machine

/-! ### What Tuner B's assignment and the Station List rest on -/

/-- The Station List with its settings, and what gives Tuner B its state (R78, R85). -/
structure Directions where
  radio : Radio
  state : BState
  freq : Freq
  holder : Option StationId
  traffic : Bool
  watch : Option Freq
  power : PowerState

def State.directions (s : State) : Directions :=
  { radio := s.radio, state := s.tunB.state, freq := s.tunB.rx.freq, holder := s.tunB.holder, traffic := s.traffic.on,
    watch := s.traffic.watch, power := s.power.state }

/-- `t` keeps the form of the Station List and the bound of the advisory lists (R78, R189). -/
structure ListsKept (s t : State) : Prop where
  stations : stationsWf s.radio.stations → stationsWf t.radio.stations
  advisories : s.advisoriesWf → t.advisoriesWf

/-- `t` keeps those, and leaves Tuner B in the state its assignment gives (R85). -/
structure Steered (s t : State) : Prop extends ListsKept s t where
  assigned : s.assigned → t.assigned

/-- No member has left a link's latch (R188). -/
def LatchesKept (s t : State) : Prop :=
  ∀ k c, ((s.link k).riseLatch.getLsbD c = true → (t.link k).riseLatch.getLsbD c = true)
    ∧ ((s.link k).fallLatch.getLsbD c = true → (t.link k).fallLatch.getLsbD c = true)

/-- `t` has the Station List of `s`, nothing that bears on Tuner B's assignment has changed, and what has been reported stands. -/
structure Undirected (s t : State) : Prop where
  directions : t.directions = s.directions
  advisories : s.advisoriesWf → t.advisoriesWf
  latched : LatchesKept s t

theorem assigned_of_directions {s t : State} (h : t.directions = s.directions) (k : s.assigned) : t.assigned := by
  simp only [State.directions, Directions.mk.injEq] at h
  obtain ⟨hr, hs, hf, hh, -, hw, hp⟩ := h
  unfold State.assigned at k ⊢
  rwa [hr, hs, hf, hh, hw, hp]

theorem advisoriesWf_of_links {s t : State} (h : t.links = s.links) (k : s.advisoriesWf) : t.advisoriesWf := fun l => by
  simpa only [State.link, h] using k l

theorem LatchesKept.refl (s : State) : LatchesKept s s := fun _ _ => ⟨id, id⟩

theorem LatchesKept.trans {s t u : State} (h : LatchesKept s t) (k : LatchesKept t u) : LatchesKept s u :=
  fun l c => ⟨(k l c).1 ∘ (h l c).1, (k l c).2 ∘ (h l c).2⟩

theorem LatchesKept.ite {s t u : State} {c : Prop} [Decidable c] (h : LatchesKept s t) (k : LatchesKept s u) :
    LatchesKept s (if c then t else u) := by split <;> assumption

theorem LatchesKept.of_links {s t : State} (h : t.links = s.links) : LatchesKept s t := fun l c => by
  simp only [State.link, h]
  exact ⟨id, id⟩

theorem ListsKept.refl (s : State) : ListsKept s s := ⟨id, id⟩

theorem ListsKept.trans {s t u : State} (h : ListsKept s t) (k : ListsKept t u) : ListsKept s u :=
  ⟨k.stations ∘ h.stations, k.advisories ∘ h.advisories⟩

theorem ListsKept.ite {s t u : State} {c : Prop} [Decidable c] (h : ListsKept s t) (k : ListsKept s u) :
    ListsKept s (if c then t else u) := by split <;> assumption

theorem ListsKept.of_same {s t : State} (hr : t.radio = s.radio) (hl : t.links = s.links) : ListsKept s t :=
  ⟨fun h => hr ▸ h, advisoriesWf_of_links hl⟩

theorem Steered.refl (s : State) : Steered s s := ⟨.refl s, id⟩

theorem Steered.trans {s t u : State} (h : Steered s t) (k : Steered t u) : Steered s u :=
  ⟨h.toListsKept.trans k.toListsKept, k.assigned ∘ h.assigned⟩

theorem Steered.ite {s t u : State} {c : Prop} [Decidable c] (h : Steered s t) (k : Steered s u) :
    Steered s (if c then t else u) := by split <;> assumption

theorem Undirected.refl (s : State) : Undirected s s := ⟨rfl, id, .refl s⟩

theorem Undirected.trans {s t u : State} (h : Undirected s t) (k : Undirected t u) : Undirected s u :=
  ⟨k.directions.trans h.directions, k.advisories ∘ h.advisories, h.latched.trans k.latched⟩

theorem Undirected.ite {s t u : State} {c : Prop} [Decidable c] (h : Undirected s t) (k : Undirected s u) :
    Undirected s (if c then t else u) := by split <;> assumption

theorem Undirected.foldl {α : Type} (f : State → α → State) (hf : ∀ s a, Undirected s (f s a)) (xs : List α) (s : State) :
    Undirected s (xs.foldl f s) := by
  induction xs generalizing s with
  | nil => exact .refl s
  | cons a xs ih => exact (hf s a).trans (ih _)

theorem Undirected.of_same {s t : State} (hd : t.directions = s.directions) (hl : t.links = s.links) : Undirected s t :=
  ⟨hd, advisoriesWf_of_links hl, .of_links hl⟩

theorem Undirected.radio {s t : State} (h : Undirected s t) : t.radio = s.radio := congrArg Directions.radio h.directions

theorem Undirected.lists {s t : State} (h : Undirected s t) : ListsKept s t := ⟨fun k => h.radio ▸ k, h.advisories⟩

theorem Undirected.steered {s t : State} (h : Undirected s t) : Steered s t :=
  ⟨h.lists, assigned_of_directions h.directions⟩

/-- The blocks that hold nothing of this, the Link Block apart. -/
def undirecting : List Block := [.clock, .ports, .table, .mix, .tunA, .shift, .call, .stations, .chime, .store]

theorem Undirected.of_happens {bs : List Block} {s t : State} (h : Happens bs s t) (hs : bs ⊆ undirecting)
    (hl : t.links = s.links) : Undirected s t := by
  have same : ∀ b, b ∉ Block.links :: undirecting → s.sameBlock t b := fun b hb =>
    h.blocks.2 b fun k => hb (List.cons_subset_cons _ hs k)
  have hr : t.radio = s.radio := same .radio (by decide)
  have hb : t.tunB = s.tunB := same .tunB (by decide)
  have ht : t.traffic = s.traffic := same .traffic (by decide)
  have hp : t.power = s.power := same .power (by decide)
  exact .of_same (by simp only [State.directions, hr, hb, ht, hp]) hl

/-! ### Links and advisories (R188, R189) -/

/-- An advisory list keeps the 4 newest, whatever it held before. -/
theorem joinAdvisory_length (xs : List Advisory) (a : Advisory) : (joinAdvisory xs a).length ≤ 4 := by
  unfold joinAdvisory
  split
  · simp only [List.length_append, List.length_singleton]; omega
  · simp only [List.length_append, List.length_drop, List.length_singleton]; omega

theorem advisoriesWf_setLink {s : State} {l : Link} {x : LinkState}
    (h : x.advisories.length ≤ 4 ∨ x.advisories = (s.link l).advisories) (k : s.advisoriesWf) : (s.setLink l x).advisoriesWf := by
  intro m
  rw [State.setLink_link]
  split
  · exact h.elim id fun e => e ▸ k l
  · exact k m

/-- A link's latches and advisories replaced, by an emptying or otherwise. -/
theorem steered_setLink (s : State) (l : Link) (x : LinkState)
    (h : x.advisories.length ≤ 4 ∨ x.advisories = (s.link l).advisories) : Steered s (s.setLink l x) :=
  ⟨⟨id, advisoriesWf_setLink h⟩, id⟩

theorem undirected_setLink (s : State) (l : Link) (x : LinkState)
    (h : x.advisories.length ≤ 4 ∨ x.advisories = (s.link l).advisories)
    (hl : ∀ c, ((s.link l).riseLatch.getLsbD c = true → x.riseLatch.getLsbD c = true)
      ∧ ((s.link l).fallLatch.getLsbD c = true → x.fallLatch.getLsbD c = true)) : Undirected s (s.setLink l x) := by
  refine ⟨rfl, advisoriesWf_setLink h, fun k c => ?_⟩
  rw [State.setLink_link]
  split
  · rename_i hk; exact hk ▸ hl c
  · exact ⟨id, id⟩

theorem undirected_setSlot (s : State) (l : Link) (x : Slot) : Undirected s (s.setSlot l x) :=
  undirected_setLink s l _ (.inr rfl) fun _ => ⟨id, id⟩

theorem undirected_shiftOut (s : State) (l : Link) (n : Nat) (r : Reply) : Undirected s (s.shiftOut l n r) :=
  undirected_setLink s l _ (.inr rfl) fun _ => ⟨id, id⟩

theorem undirected_offer (s : State) (l : Link) (rise fall : BitVec 16) : Undirected s (s.offer l rise fall) :=
  undirected_setLink s l _ (.inr rfl) fun c => by simp +contextual [LinkState.offer]

theorem undirected_notice (s : State) (l : Link) (c : Nat) : Undirected s (s.notice l c) := undirected_offer s l _ _

theorem undirected_riseAll (s : State) (c : Nat) : Undirected s (s.riseAll c) := .foldl _ (fun s l => undirected_offer s l _ _) _ s

theorem undirected_fallAll (s : State) (c : Nat) : Undirected s (s.fallAll c) := .foldl _ (fun s l => undirected_offer s l _ _) _ s

theorem undirected_offerEdges (b s : State) : Undirected s (State.offerEdges b s) :=
  .foldl _ (fun s l => undirected_offer s l _ _) _ s

theorem undirected_advise (s : State) (l : Link) (a : Advisory) : Undirected s (s.advise l a) :=
  (undirected_setLink s l { s.link l with advisories := joinAdvisory (s.link l).advisories a }
    (.inl (joinAdvisory_length _ a)) fun _ => ⟨id, id⟩).trans (undirected_notice _ _ _)

/-! ### Single updates -/

theorem undirected_withTraffic (s : State) (x : Traffic) (h : (x.on, x.watch) = (s.traffic.on, s.traffic.watch)) :
    Undirected s (s.withTraffic x) :=
  .of_same (by
    obtain ⟨on, watch⟩ := Prod.mk.inj h
    simp only [State.directions, State.withTraffic_radio, State.withTraffic_tunB, State.withTraffic_traffic,
      State.withTraffic_power, on, watch]) rfl

theorem undirected_withPower (s : State) (x : Power) (h : x.state = s.power.state) : Undirected s (s.withPower x) :=
  .of_same (by simp only [State.directions, State.withPower_radio, State.withPower_tunB, State.withPower_traffic,
    State.withPower_power, h]) rfl

theorem undirected_withClock (s : State) (x : Clock) : Undirected s (s.withClock x) := .of_same rfl rfl
theorem undirected_withPorts (s : State) (x : Ports) : Undirected s (s.withPorts x) := .of_same rfl rfl
theorem undirected_withTable (s : State) (x : ClaimTable) : Undirected s (s.withTable x) := .of_same rfl rfl
theorem undirected_withStations (s : State) (x : Stations) : Undirected s (s.withStations x) := .of_same rfl rfl
theorem undirected_withTunA (s : State) (x : TunerA) : Undirected s (s.withTunA x) := .of_same rfl rfl
theorem undirected_withShift (s : State) (x : ShiftBuffer) : Undirected s (s.withShift x) := .of_same rfl rfl
theorem undirected_withMix (s : State) (x : Mix) : Undirected s (s.withMix x) := .of_same rfl rfl
theorem undirected_withCall (s : State) (x : Call) : Undirected s (s.withCall x) := .of_same rfl rfl
theorem undirected_withChime (s : State) (x : Chime) : Undirected s (s.withChime x) := .of_same rfl rfl
theorem undirected_withStore (s : State) (x : Store) : Undirected s (s.withStore x) := .of_same rfl rfl
theorem undirected_setClaim (s : State) (h : Nat) (c : Option Claim) : Undirected s (s.setClaim h c) := .of_same rfl rfl
theorem undirected_changeClaim (s : State) (h : Nat) (f : Claim → Claim) : Undirected s (s.changeClaim h f) := .of_same rfl rfl
theorem undirected_setPosted (s : State) (r : Nat) (x : Bool) : Undirected s (s.setPosted r x) := .of_same rfl rfl
theorem undirected_setVoice (s : State) (n : Nat) (v : Voice) : Undirected s (s.setVoice n v) := .of_same rfl rfl
theorem undirected_setStation (s : State) (st : StationId) (x : Station) : Undirected s (s.setStation st x) := by
  cases st <;> exact .of_same rfl rfl

theorem undirected_reach (s : State) (t : Time) : Undirected s (s.reach t) :=
  .of_happens (happens_reach s t) (by decide) (s.reach_links t)

theorem undirected_post (s : State) (h : Nat) (c : Claim) : Undirected s (s.post h c) := by
  unfold State.post State.readyToPost
  split <;> exact .of_same rfl rfl

/-! ### The Traffic and Shift Unit's operations -/

theorem undirected_startCapture (s : State) (st : ShiftState) (p : Purpose) (c : Option PauseCause) (t : TunerId) :
    Undirected s (s.startCapture st p c t) := (undirected_withShift s _).trans (undirected_riseAll _ 3)

theorem undirected_shiftOff (s : State) : Undirected s s.shiftOff := by
  unfold State.shiftOff
  have off : Undirected s (((s.withShift .off).setPosted 0 false).setPosted 1 false) := .of_same rfl rfl
  have fell := Undirected.ite (c := s.shift.state = .off) off (off.trans (undirected_fallAll _ 3))
  exact .ite (fell.trans (undirected_fallAll _ 4)) fell

theorem undirected_considerMemo (s : State) (t : TunerId) : Undirected s (s.considerMemo t) := by
  have missed : ∀ r, Undirected s
      ((s.withTraffic { s.traffic with outcome := some .missed }).advise .cockpit (.taMissed r (.tuner t))) := fun _ =>
    (undirected_withTraffic s { s.traffic with outcome := some .missed } rfl).trans (undirected_advise _ _ _)
  have captured := (undirected_withTraffic s { s.traffic with outcome := some .captured } rfl).trans
    (undirected_startCapture _ .memoCapture .memo none t)
  unfold State.considerMemo
  refine .ite (.refl s) ?_
  split
  · exact .ite (missed _) captured
  · exact missed _
  · exact missed _
  all_goals exact .refl s

theorem undirected_replayMemo (s : State) : Undirected s s.replayMemo := .of_same rfl rfl

theorem undirected_tableChanged (s : State) : Undirected s s.tableChanged := by
  have memo : Undirected s (match s.unheard with | some t => s.considerMemo t | none => s) := by
    split
    · exact undirected_considerMemo s _
    · exact .refl s
  unfold State.tableChanged
  split
  · exact .ite (undirected_replayMemo s) (.refl s)
  · split
    · have posted := (undirected_withShift s { s.shift with state := .memoReplay, running := false }).trans
        (undirected_post _ radioHandle (radioClaim .shift))
      exact .ite (posted.trans (.of_same rfl rfl)) (.refl s)
    · exact .refl s
  · exact .refl s
  all_goals exact memo

theorem undirected_dropClaim (s : State) (h : Nat) : Undirected s (s.setClaim h none).tableChanged :=
  (undirected_setClaim s h none).trans (undirected_tableChanged _)

/-- An announcement in progress, TRAFFIC_ON raised (R99). -/
def State.onAir (s : State) : State := (s.withTraffic { s.traffic with announcing := true, outcome := some .none }).riseAll 2

/-- No announcement in progress, TRAFFIC_ON fallen (R99). -/
def State.offAir (s : State) : State := (s.withTraffic { s.traffic with announcing := false, outcome := none }).fallAll 2

theorem undirected_onAir (s : State) : Undirected s s.onAir :=
  (undirected_withTraffic s { s.traffic with announcing := true, outcome := some .none } rfl).trans (undirected_riseAll _ 2)

theorem undirected_offAir (s : State) : Undirected s s.offAir :=
  (undirected_withTraffic s { s.traffic with announcing := false, outcome := none } rfl).trans (undirected_fallAll _ 2)

/-- What the start of an announcement does once it is in progress. -/
theorem undirected_announced (s : State) (t : TunerId) : Undirected s.onAir (s.startAnnouncement t) := by
  unfold State.onAir State.startAnnouncement
  dsimp only
  generalize (s.withTraffic { s.traffic with announcing := true, outcome := some .none }).riseAll 2 = u
  have posted := undirected_post u radioHandle (radioClaim (sourceOfTuner t))
  split
  · exact posted.trans (undirected_tableChanged _)
  · exact posted.trans (undirected_tableChanged _)
  · exact posted.trans (undirected_tableChanged _)
  · generalize u.post radioHandle (radioClaim (sourceOfTuner t)) = v at posted
    have joined : Undirected v ((v.withTraffic { v.traffic with retained := none, outcome := some .captured }).withShift
        { v.shift with state := .memoCapture, captured := some t, running := true }) := .of_same rfl rfl
    exact posted.trans (.ite (joined.trans (undirected_replayMemo _)) joined)
  · exact .of_same rfl rfl
  · exact .refl u

theorem undirected_startAnnouncement (s : State) (t : TunerId) : Undirected s (s.startAnnouncement t) :=
  (undirected_onAir s).trans (undirected_announced s t)

/-- What the end of an announcement does once it is over. -/
theorem undirected_unannounced (s : State) : Undirected s.offAir s.endAnnouncement := by
  unfold State.offAir State.endAnnouncement
  dsimp only
  generalize (s.withTraffic { s.traffic with announcing := false, outcome := none }).fallAll 2 = u
  have dropped : ∀ v : State, Undirected v
      (match v.claim radioHandle with
        | some c => if c.source = .shift then v else (v.setClaim radioHandle none).tableChanged
        | none => v) := fun v => by
    split
    · exact .ite (.refl v) (undirected_dropClaim v _)
    · exact .refl v
  refine .trans ?_ (dropped _)
  split
  · exact .of_same rfl rfl
  · exact .of_same rfl rfl
  all_goals exact .refl u

theorem undirected_endAnnouncement (s : State) : Undirected s s.endAnnouncement :=
  (undirected_offAir s).trans (undirected_unannounced s)

theorem undirected_dropMemoClaim (s : State) : Undirected s s.dropMemoClaim := by
  unfold State.dropMemoClaim
  refine .trans (undirected_withTraffic s { s.traffic with retained := none } rfl) ?_
  dsimp only
  split
  · refine .ite ?_ (.refl _)
    split
    · exact (undirected_changeClaim _ _ _).trans (undirected_tableChanged _)
    · exact undirected_dropClaim _ _
  · exact .refl _

theorem undirected_discard (s : State) (c : DiscardCause) : Undirected s (s.discard c) := by
  unfold State.discard
  have told := (undirected_shiftOff s).trans
    (Undirected.ite (c := c = .hubReset) (.refl _) (undirected_advise _ .cockpit (.shiftDiscarded c s.shift.state s.shift.fill)))
  exact .ite (.refl s) (.ite (told.trans (undirected_dropMemoClaim _)) told)

theorem undirected_retuned (s : State) (t : TunerId) : Undirected s (s.retuned t) := .ite (undirected_discard s _) (.refl s)

theorem undirected_followSource (s : State) : Undirected s s.followSource := by
  unfold State.followSource
  dsimp only
  generalize hu : (if s.traffic.announcing && !(s.sourceNow = s.traffic.source && s.taOf s.sourceNow) then s.endAnnouncement
    else s) = u
  have ended : Undirected s u := hu ▸ .ite (undirected_endAnnouncement s) (.refl s)
  have sourced : Undirected s (u.withTraffic { u.traffic with source := s.sourceNow }) :=
    ended.trans (undirected_withTraffic u _ rfl)
  split
  · exact sourced.trans (.ite (undirected_startAnnouncement _ _) (.refl _))
  · exact sourced

end Sys2Proof.Machine
end

section
namespace Sys2Proof.Machine

/-! ### The order of the Station List (R78) -/

theorem Freq.before_iff {f g : Freq} :
    f.before g = true ↔ f.band.code < g.band.code ∨ (f.band = g.band ∧ f.khz < g.khz) := by
  simp [Freq.before]

theorem Freq.before_trans {f g h : Freq} (a : f.before g = true) (b : g.before h = true) : f.before h = true := by
  rw [Freq.before_iff] at *
  obtain a | ⟨ea, a⟩ := a <;> obtain b | ⟨eb, b⟩ := b
  · exact .inl (a.trans b)
  · exact .inl (eb ▸ a)
  · exact .inl (ea ▸ b)
  · exact .inr ⟨ea.trans eb, a.trans b⟩

theorem Freq.not_before_self (f : Freq) : ¬f.before f = true := by simp [Freq.before_iff]

theorem Freq.before_of_not_before {f g : Freq} (h : ¬f.before g = true) (hne : f ≠ g) : g.before f = true := by
  rw [Freq.before_iff] at *
  obtain ⟨fb, fk⟩ := f
  obtain ⟨gb, gk⟩ := g
  cases fb <;> cases gb <;> simp_all [Band.code] <;> omega

theorem mem_insertEntry {e x : Entry} {xs : List Entry} : x ∈ insertEntry e xs ↔ x ∈ xs ∨ x = e := by
  induction xs with
  | nil => simp [insertEntry]
  | cons y ys ih =>
    unfold insertEntry
    split
    · simp only [List.mem_cons]; tauto
    · simp only [List.mem_cons, ih]; tauto

theorem insertEntry_perm (e : Entry) (xs : List Entry) : (insertEntry e xs).Perm (e :: xs) := by
  induction xs with
  | nil => exact .refl _
  | cons y ys ih =>
    unfold insertEntry
    split
    · exact .refl _
    · exact (ih.cons y).trans (.swap e y ys)

theorem insertEntry_length (e : Entry) (xs : List Entry) : (insertEntry e xs).length = xs.length + 1 :=
  (insertEntry_perm e xs).length_eq

theorem insertEntry_sorted {e : Entry} {xs : List Entry} (hs : xs.Pairwise fun a b => a.freq.before b.freq = true)
    (hn : ∀ x ∈ xs, x.freq ≠ e.freq) : (insertEntry e xs).Pairwise fun a b => a.freq.before b.freq = true := by
  induction xs with
  | nil => exact List.pairwise_singleton _ _
  | cons y ys ih =>
    obtain ⟨first, rest⟩ := List.pairwise_cons.1 hs
    unfold insertEntry
    split
    · rename_i he
      refine List.pairwise_cons.2 ⟨fun z hz => ?_, hs⟩
      obtain rfl | hz := List.mem_cons.1 hz
      · exact he
      · exact Freq.before_trans he (first z hz)
    · rename_i he
      refine List.pairwise_cons.2 ⟨fun z hz => ?_, ih rest fun x hx => hn x (List.mem_cons_of_mem _ hx)⟩
      obtain hz | rfl := mem_insertEntry.1 hz
      · exact first z hz
      · exact Freq.before_of_not_before he fun k => hn y List.mem_cons_self k.symm

/-! ### Changes that keep the form of the Station List -/

theorem stationsWf_nil : stationsWf [] := by simp [stationsWf]

theorem stationsWf.sublist {xs ys : List Entry} (h : stationsWf xs) (k : ys.Sublist xs) : stationsWf ys :=
  ⟨k.length_le.trans h.1, h.2.1.sublist k, fun e he => h.2.2.1 e (k.subset he), h.2.2.2.sublist k⟩

/-- Entries changed in other fields than frequency and preset. -/
theorem stationsWf.map {xs : List Entry} (h : stationsWf xs) (g : Entry → Entry)
    (hg : ∀ e ∈ xs, (g e).freq = e.freq ∧ (g e).preset = e.preset) : stationsWf (xs.map g) := by
  obtain ⟨len, sorted, range, unique⟩ := h
  refine ⟨by simpa using len, ?_, ?_, ?_⟩
  · refine List.pairwise_map.2 (sorted.imp_of_mem fun {a b} ha hb k => ?_)
    rwa [(hg a ha).1, (hg b hb).1]
  · rintro x hx p hp
    obtain ⟨e, he, rfl⟩ := List.mem_map.1 hx
    exact range e he p ((hg e he).2 ▸ hp)
  · refine List.pairwise_map.2 (unique.imp_of_mem fun {a b} ha hb k => ?_)
    rwa [(hg a ha).2, (hg b hb).2]

theorem stationsWf.insert {xs : List Entry} (h : stationsWf xs) {e : Entry} (hl : xs.length < 48)
    (hn : ∀ x ∈ xs, x.freq ≠ e.freq) (hp : e.preset = none) : stationsWf (insertEntry e xs) := by
  obtain ⟨-, sorted, range, unique⟩ := h
  refine ⟨by rw [insertEntry_length]; exact hl, insertEntry_sorted sorted hn, fun x hx => ?_, ?_⟩
  · obtain hx | rfl := mem_insertEntry.1 hx
    · exact range x hx
    · simp [hp]
  · have apart : ∀ {a b : Entry}, (∀ p, a.preset = some p → b.preset ≠ some p) → ∀ p, b.preset = some p → a.preset ≠ some p :=
      fun k p hb ha => k p ha hb
    refine (List.Perm.pairwise_iff apart (insertEntry_perm e xs)).2 (List.pairwise_cons.2 ⟨fun _ _ => ?_, unique⟩)
    simp [hp]

theorem findEntry_eq_none {xs : List Entry} {f : Freq} : findEntry xs f = none ↔ ∀ x ∈ xs, x.freq ≠ f := by
  simp [findEntry]

theorem findEntry_eq_some {xs : List Entry} {f : Freq} {e : Entry} (h : findEntry xs f = some e) : e ∈ xs ∧ e.freq = f :=
  ⟨List.mem_of_find?_eq_some h, by simpa using List.find?_some h⟩

theorem foldl_victim_some (xs : List Entry) (b : Entry) :
    ∃ v, xs.foldl (fun best e =>
      match best with
      | none => some e
      | some b => if e.qs < b.qs then some e else some b) (some b) = some v
      ∧ (v = b ∨ v ∈ xs) ∧ v.qs ≤ b.qs ∧ ∀ x ∈ xs, v.qs ≤ x.qs := by
  induction xs generalizing b with
  | nil => exact ⟨b, rfl, .inl rfl, le_refl _, by simp⟩
  | cons y ys ih =>
    rw [List.foldl_cons]
    dsimp only
    split
    · obtain ⟨v, hv, hm, hb, hx⟩ := ih y
      refine ⟨v, hv, .inr ?_, by omega, List.forall_mem_cons.2 ⟨hb, hx⟩⟩
      exact hm.elim (fun h => h ▸ List.mem_cons_self) (List.mem_cons_of_mem _)
    · obtain ⟨v, hv, hm, hb, hx⟩ := ih b
      exact ⟨v, hv, hm.imp_right (List.mem_cons_of_mem _), hb, List.forall_mem_cons.2 ⟨by omega, hx⟩⟩

/-- R80: the victim has the lowest Qs among the entries not protected. -/
theorem victim_spec {shields : Entry → Bool} {xs : List Entry} {v : Entry} (h : victim shields xs = some v) :
    v ∈ xs ∧ shields v = false ∧ ∀ x ∈ xs, shields x = false → v.qs ≤ x.qs := by
  unfold victim at h
  generalize hy : (xs.filter fun e => !shields e) = ys at h
  have mem : ∀ x, x ∈ ys ↔ x ∈ xs ∧ shields x = false := fun x => by rw [← hy]; simp
  cases ys with
  | nil => simp at h
  | cons y ys =>
    obtain ⟨w, hw, hm, hb, hx⟩ := foldl_victim_some ys y
    obtain rfl : w = v := Option.some.inj (hw.symm.trans h)
    have hwm : w ∈ y :: ys := List.mem_cons.2 hm
    refine ⟨((mem w).1 hwm).1, ((mem w).1 hwm).2, fun x hx' hs => ?_⟩
    obtain rfl | k := List.mem_cons.1 ((mem x).2 ⟨hx', hs⟩)
    · exact hb
    · exact hx x k

theorem victim_eq_none {shields : Entry → Bool} {xs : List Entry} (h : victim shields xs = none) :
    ∀ x ∈ xs, shields x = true := by
  unfold victim at h
  intro x hx
  by_contra hs
  have hm : x ∈ xs.filter fun e => !shields e := by simpa [hx] using hs
  cases hy : xs.filter fun e => !shields e with
  | nil => rw [hy] at hm; cases hm
  | cons y ys =>
    rw [hy] at h
    obtain ⟨v, hv, -⟩ := foldl_victim_some ys y
    exact absurd (hv.symm.trans h) (by simp)

theorem dropEntry_sublist (xs : List Entry) (f : Freq) : (dropEntry xs f).Sublist xs := List.filter_sublist

theorem dropEntry_length_lt {xs : List Entry} {v : Entry} (h : v ∈ xs) : (dropEntry xs v.freq).length < xs.length :=
  List.length_filter_lt_length_iff_exists.2 ⟨v, h, by simp⟩

theorem stationsWf.place {shields : Entry → Bool} {xs ys : List Entry} (h : stationsWf xs) {e : Entry}
    (hn : findEntry xs e.freq = none) (hp : e.preset = none) (hy : placeEntry shields xs e = some ys) : stationsWf ys := by
  have other := findEntry_eq_none.1 hn
  unfold placeEntry at hy
  split at hy
  · cases hy
    exact h.insert ‹_› other hp
  · split at hy
    · rename_i v hv
      split at hy
      · cases hy
        have short : (dropEntry xs v.freq).length < 48 := lt_of_lt_of_le (dropEntry_length_lt (victim_spec hv).1) h.1
        exact (h.sublist (dropEntry_sublist _ _)).insert short (fun x hx => other x (List.mem_of_mem_filter hx)) hp
      · cases hy
    · cases hy

/-- A change of one entry that keeps its frequency and preset. -/
theorem stationsWf.change {xs : List Entry} (h : stationsWf xs) {f : Freq} {g : Entry → Entry}
    (hg : ∀ e ∈ xs, e.freq = f → (g e).freq = e.freq ∧ (g e).preset = e.preset) : stationsWf (changeEntry xs f g) :=
  h.map _ fun e he => by
    split
    · exact hg e he ‹_›
    · exact ⟨rfl, rfl⟩

/-- Of a list in order, only one entry has a frequency. -/
theorem stationsWf.unique {xs : List Entry} (h : stationsWf xs) {a b : Entry} (ha : a ∈ xs) (hb : b ∈ xs)
    (hf : a.freq = b.freq) : a = b := by
  have distinct : (xs.map Entry.freq).Nodup := List.pairwise_map.2 (h.2.1.imp fun {a b} k e => by
    rw [e] at k
    exact Freq.not_before_self _ k)
  exact List.inj_on_of_nodup_map distinct ha hb hf

theorem stationsWf.givePreset {xs : List Entry} (h : stationsWf xs) (f : Freq) {p : Nat} (hp : 1 ≤ p ∧ p ≤ 12) :
    stationsWf (givePreset xs f p) := by
  obtain ⟨len, sorted, range, unique⟩ := h
  have freq : ∀ e : Entry, (if e.freq = f then { e with preset := some p }
      else if e.preset = some p then { e with preset := none } else e).freq = e.freq := fun e => by
    split
    · rfl
    · split <;> rfl
  unfold Machine.givePreset
  refine ⟨by simpa using len, List.pairwise_map.2 (sorted.imp fun {a b} k => by rwa [freq, freq]), ?_, ?_⟩
  · rintro x hx q hq
    obtain ⟨e, he, rfl⟩ := List.mem_map.1 hx
    split at hq
    · cases hq; exact hp
    · split at hq
      · cases hq
      · exact range e he q hq
  · refine List.pairwise_map.2 ((sorted.and unique).imp fun {a b} k q ha hb => ?_)
    obtain ⟨order, apart⟩ := k
    have differ : ¬(a.freq = f ∧ b.freq = f) := fun e => Freq.not_before_self f (by rwa [e.1, e.2] at order)
    split at ha <;> split at hb
    · exact differ ⟨‹_›, ‹_›⟩
    · cases ha
      split at hb
      · cases hb
      · contradiction
    · cases hb
      split at ha
      · cases ha
      · contradiction
    · split at ha
      · cases ha
      · split at hb
        · cases hb
        · exact apart q ha hb

end Sys2Proof.Machine
end

section
namespace Sys2Proof.Machine

/-! ### Tuner B and what follows a change of the tuners (R85, R97 to R99) -/

theorem Receiver.silence_freq (r : Receiver) (b : Bool) : (r.silence b).freq = r.freq := by unfold Receiver.silence; split <;> rfl

theorem State.enterB_directions (s : State) (st : BState) (f : Option Freq) :
    (s.enterB st f).directions = { s.directions with state := st, freq := f.getD s.tunB.rx.freq } := by
  unfold State.enterB
  dsimp only
  rw [(undirected_retuned _ .b).directions]
  cases f with
  | none => simp only [State.directions, State.withTunB_radio, State.withTunB_tunB, State.withTunB_traffic,
      State.withTunB_power, Receiver.silence_freq, Option.getD_none]
  | some f => rfl

theorem State.startSweep_directions (s : State) (st : BState) :
    (s.startSweep st).directions =
      { s.directions with state := st, freq := firstChannel,
                          radio := s.radio.withStations (s.radio.stations.map fun e => { e with seen := false }) } := by
  rw [State.startSweep, State.enterB_directions]
  rfl

/-- R85, told by what it reads. -/
def Directions.Assigned (d : Directions) : Prop :=
  d.power = .run →
    match d.holder, d.watch with
    | some _, _ => d.state = .held
    | none, some f => d.state = .watch ∧ d.freq = f
    | none, none => d.state = if d.radio.scan then .scan else .idle

theorem State.assigned_iff (s : State) : s.assigned ↔ s.directions.Assigned := Iff.rfl

/-- R85: Tuner B takes the state that its assignment gives. -/
theorem State.assignB_assigned (s : State) : s.assignB.assigned := by
  unfold State.assignB
  split
  · exact fun h => absurd h ‹_›
  · split
    · rename_i hh
      split
      · simp only [State.assigned, hh]
        exact fun _ => ‹_›
      · rw [State.assigned_iff, State.enterB_directions]
        simp [Directions.Assigned, State.directions, hh]
    · rename_i hh hw
      split
      · rename_i at_it
        simp only [State.assigned, hh, hw]
        exact fun _ => by simpa using at_it
      · rw [State.assigned_iff, State.enterB_directions]
        simp [Directions.Assigned, State.directions, hh, hw]
    · rename_i hh hw
      split
      · rename_i hscan
        split
        · simp only [State.assigned, hh, hw, hscan]
          exact fun _ => ‹_›
        · rw [State.assigned_iff, State.startSweep_directions]
          simp [Directions.Assigned, State.directions, hh, hw, hscan, Radio.withStations]
      · rename_i hscan
        split
        · simp only [State.assigned, hh, hw, hscan]
          exact fun _ => ‹_›
        · rw [State.assigned_iff, State.enterB_directions]
          simp [Directions.Assigned, State.directions, hh, hw, hscan]

/-- After a new assessment Tuner B is in the state that its assignment gives, whatever it was in before. -/
theorem State.reassess_assigned (s : State) : s.reassess.assigned :=
  assigned_of_directions (undirected_followSource _).directions (State.assignB_assigned _)

theorem listsKept_withTunB (s : State) (x : TunerB) : ListsKept s (s.withTunB x) := .of_same rfl rfl

theorem listsKept_withRadio (s : State) (x : Radio) (h : stationsWf s.radio.stations → stationsWf x.stations) :
    ListsKept s (s.withRadio x) := ⟨h, advisoriesWf_of_links rfl⟩

theorem listsKept_withTraffic (s : State) (x : Traffic) : ListsKept s (s.withTraffic x) := .of_same rfl rfl

theorem listsKept_withPower (s : State) (x : Power) : ListsKept s (s.withPower x) := .of_same rfl rfl

theorem listsKept_enterB (s : State) (st : BState) (f : Option Freq) : ListsKept s (s.enterB st f) :=
  (listsKept_withTunB s _).trans (undirected_retuned _ _).lists

theorem listsKept_startSweep (s : State) (st : BState) : ListsKept s (s.startSweep st) := by
  unfold State.startSweep
  have unseen : ListsKept s
      (s.withRadio (s.radio.withStations (s.radio.stations.map fun e => { e with seen := false }))) :=
    listsKept_withRadio s _ fun h => stationsWf.map h _ fun _ _ => ⟨rfl, rfl⟩
  exact unseen.trans (listsKept_enterB _ _ _)

theorem listsKept_assignB (s : State) : ListsKept s s.assignB := by
  unfold State.assignB
  refine .ite (.refl s) ?_
  split
  · exact .ite (.refl s) (listsKept_enterB _ _ _)
  · exact .ite (.refl s) (listsKept_enterB _ _ _)
  · exact .ite (.ite (.refl s) (listsKept_startSweep _ _)) (.ite (.refl s) (listsKept_enterB _ _ _))

theorem undirected_followEligible (s : State) : Undirected s s.followEligible :=
  .ite (undirected_withTraffic s _ rfl) (.ite (undirected_withTraffic s _ rfl) (.refl s))

theorem listsKept_reassess (s : State) : ListsKept s s.reassess :=
  (undirected_followEligible s).lists.trans (.trans (t := s.followEligible.followWatch) (.of_same rfl rfl)
    ((listsKept_assignB _).trans (undirected_followSource _).lists))

/-- What ends with a new assessment keeps the assignment, however Tuner B has been changed before it. -/
theorem ListsKept.reassessed {s t : State} (h : ListsKept s t) : Steered s t.reassess :=
  ⟨h.trans (listsKept_reassess t), fun _ => t.reassess_assigned⟩

theorem steered_reassess (s : State) : Steered s s.reassess := (ListsKept.refl s).reassessed

theorem steered_retuneA (s : State) (f : Freq) (r : TuneCause × TuneResult) : Steered s (s.retuneA f r) :=
  ((undirected_withTunA s _).trans (undirected_retuned _ .a)).lists.reassessed

/-! ### The tuners' events -/

theorem undirected_tuneDone (s : State) (r : TuneCause × TuneResult) : Undirected s (s.tuneDone r) :=
  (undirected_withTunA s _).trans (undirected_riseAll _ 12)

theorem steered_seek (s : State) (d : Direction) : Steered s (s.seek d) := by
  unfold State.seek
  dsimp only
  split
  · exact steered_retuneA _ _ _
  · exact ((undirected_withTunA s _).trans (undirected_retuned _ .a)).lists.reassessed

theorem steered_walkMeasured (s : State) (m : Meas) : Steered s (s.walkMeasured m) :=
  .trans (undirected_withTunA s _).steered (.ite (steered_retuneA _ _ _) (.refl _))

theorem steered_walkOn (s : State) : Steered s s.walkOn := by
  unfold State.walkOn
  split
  · exact .ite (steered_retuneA _ _ _) (undirected_withTunA _ _).steered
  · exact .refl s

theorem steered_seekChannelEnd (s : State) (m : Option Meas) : Steered s (s.seekChannelEnd m) := by
  unfold State.seekChannelEnd
  refine .ite (.refl s) (.trans (undirected_reach s (s.tunA.rx.since + milliseconds 8)).steered ?_)
  cases m with
  | none => exact .ite (steered_walkOn _) (.refl _)
  | some m => exact (steered_walkMeasured _ m).trans (.ite (steered_walkOn _) (.refl _))

theorem undirected_considerSwitch (s : State) : Undirected s s.considerSwitch := by
  unfold State.considerSwitch
  refine .ite (.refl s) (.ite ?_ ?_)
  all_goals split <;> exact undirected_withTunA _ _

theorem steered_measuredA (s : State) (m : Meas) : Steered s (s.measuredA m) := by
  unfold State.measuredA
  split
  · exact ((undirected_reach s _).trans ((undirected_withTunA _ _).trans
      ((undirected_withTunA _ _).trans (.ite (undirected_considerSwitch _) (.refl _))))).steered
  · exact .ite ((undirected_reach s _).trans (undirected_withTunA _ _)).steered (.refl s)
  · exact .ite ((undirected_reach s _).trans (undirected_withTunA _ _)).steered (.refl s)
  · exact (undirected_reach s _).steered.trans (steered_walkMeasured _ _)
  all_goals exact .refl s

theorem listsKept_measuredB (s : State) (m : Meas) : ListsKept s (s.measuredB m) :=
  .ite ((undirected_reach s _).lists.trans (listsKept_withTunB _ _))
    (.ite ((undirected_reach s _).lists.trans (listsKept_withTunB _ _)) (.refl s))

theorem undirected_settledA (s : State) (m : Meas) : Undirected s (s.settledA m) := by
  unfold State.settledA
  split
  · refine .trans (undirected_reach s (s.tunA.rx.since + milliseconds 12)) ?_
    dsimp only
    split
    · exact (undirected_withTunA _ _).trans (undirected_tuneDone _ _)
    · exact undirected_withTunA _ _
  · exact .ite (.refl s) ((undirected_reach s _).trans (undirected_withTunA _ _))
  all_goals exact .refl s

theorem listsKept_settledB (s : State) (m : Meas) : ListsKept s (s.settledB m) :=
  .ite ((undirected_reach s _).lists.trans (listsKept_withTunB _ _)) (.refl s)

theorem listsKept_rejectCandidate (s : State) : ListsKept s s.rejectCandidate := by
  unfold State.rejectCandidate
  dsimp only
  split
  · exact listsKept_withRadio s _ fun h => h.change fun _ _ _ => ⟨rfl, rfl⟩
  · rename_i hf
    split
    · exact listsKept_withRadio s _ fun h => h.place (Option.not_isSome_iff_eq_none.1 hf) rfl ‹_›
    · exact .refl s

theorem listsKept_failVerify (s : State) : ListsKept s s.failVerify := (listsKept_rejectCandidate s).trans (.of_same rfl rfl)

theorem listsKept_judgeIdentity (s : State) : ListsKept s s.judgeIdentity := by
  unfold State.judgeIdentity
  split
  · exact .ite ((undirected_withTunA s _).trans (undirected_tuneDone _ _)).lists (listsKept_failVerify s)
  · exact .refl s

theorem undirected_prefadeEnd (s : State) : Undirected s s.prefadeEnd := by
  unfold State.prefadeEnd
  exact .ite (.refl s) ((undirected_reach s _).trans (.ite (undirected_withTunA _ _) (undirected_withTunA _ _)))

theorem listsKept_checkMeasured (s : State) (m : Meas) : ListsKept s (s.checkMeasured m) := by
  unfold State.checkMeasured
  exact .ite ((undirected_reach s _).lists.trans
    (.ite ((undirected_withTunA _ _).lists.trans (listsKept_judgeIdentity _)) (undirected_withTunA _ _).lists)) (.refl s)

theorem undirected_gapEnded (s : State) : Undirected s s.gapEnded :=
  .ite ((undirected_reach s _).trans (undirected_withTunA _ _)) (.refl s)

theorem listsKept_verifyTimedOut (s : State) : ListsKept s s.verifyTimedOut :=
  .ite ((undirected_reach s _).lists.trans (listsKept_failVerify _)) (.refl s)

theorem listsKept_groupA (s : State) (g : DataGroup) : ListsKept s (s.groupA g) :=
  .ite ((undirected_withTunA s _).lists.trans (listsKept_judgeIdentity _)) (.refl s)

theorem listsKept_groupB (s : State) (g : DataGroup) : ListsKept s (s.groupB g) := .ite (listsKept_withTunB _ _) (.refl s)

theorem listsKept_dataLapsed (s : State) (t : TunerId) : ListsKept s (s.dataLapsed t) := by
  have lapsed : ∀ (u : State) (r : Receiver), ListsKept u (u.setReceiver t r) := fun u r => by
    cases t <;> exact .of_same rfl rfl
  exact .ite (.refl s) ((undirected_reach s _).lists.trans (lapsed _ _))

/-! ### Sweeps (R79, R81, R86) -/

theorem Entry.met_keeps (e : Entry) (qs : Nat) (d : Decoded) :
    (e.met qs d).freq = e.freq ∧ (e.met qs d).preset = e.preset := by
  unfold Entry.met
  dsimp only
  split <;> exact ⟨rfl, rfl⟩

theorem listsKept_changedList (s : State) (xs : List Entry) (h : stationsWf s.radio.stations → stationsWf xs) :
    ListsKept s (s.changedList xs) := (listsKept_withRadio s _ h).trans (listsKept_withTunB _ _)

theorem listsKept_updateChannel (s : State) : ListsKept s s.updateChannel := by
  unfold State.updateChannel
  dsimp only
  split
  · rename_i e he
    have met : stationsWf s.radio.stations → stationsWf
        (changeEntry s.radio.stations s.tunB.rx.freq fun _ => e.met s.tunB.rx.qs s.tunB.rx.decoder.data) := fun h =>
      h.change fun x hx hf => by
        obtain rfl : x = e := h.unique hx (findEntry_eq_some he).1 (hf.trans (findEntry_eq_some he).2.symm)
        exact x.met_keeps _ _
    exact .ite (.ite (listsKept_changedList _ _ met) (listsKept_withRadio _ _ met))
      (listsKept_withRadio _ _ fun h => h.change fun _ _ _ => ⟨rfl, rfl⟩)
  · rename_i hn
    refine .ite ?_ (.refl s)
    split
    · exact listsKept_changedList _ _ fun h => h.place hn rfl ‹_›
    · exact .refl s

theorem stationsWf.aged {xs : List Entry} (h : stationsWf xs) (shields : Entry → Bool) : stationsWf (aged shields xs) := by
  unfold Machine.aged
  refine stationsWf.map ?_ _ fun _ _ => ⟨rfl, rfl⟩
  refine (h.map _ fun e _ => ?_).sublist List.filter_sublist
  split <;> exact ⟨rfl, rfl⟩

theorem listsKept_endSweep (s : State) : ListsKept s s.endSweep := by
  unfold State.endSweep
  dsimp only
  generalize hu : (if (_ || s.tunB.changed) = true then _ else _) = u
  have listed : ListsKept s (s.withRadio (if decide ((aged s.tunA.shields s.radio.stations).length < s.radio.stations.length)
      then s.radio.withNewVersion (aged s.tunA.shields s.radio.stations)
      else s.radio.withStations (aged s.tunA.shields s.radio.stations))) :=
    listsKept_withRadio s _ fun h => by split <;> exact h.aged _
  have told : ListsKept s u := hu ▸ .ite (listed.trans (undirected_riseAll _ _).lists) listed
  exact told.trans (.ite (listsKept_startSweep _ _)
    ((listsKept_enterB u .off none).trans (.ite (listsKept_withPower _ _) (.refl _))))

theorem listsKept_sweepOn (s : State) : ListsKept s s.sweepOn := by
  unfold State.sweepOn
  split
  · exact listsKept_withTunB _ _
  · exact listsKept_endSweep s

theorem listsKept_sweepChannelEnd (s : State) (m : Option Meas) : ListsKept s (s.sweepChannelEnd m) := by
  unfold State.sweepChannelEnd
  refine .ite (.refl s) (.trans (undirected_reach s (s.tunB.rx.since + milliseconds (if s.tunB.dwell then 400 else 8))).lists ?_)
  generalize s.reach (s.tunB.rx.since + milliseconds (if s.tunB.dwell then 400 else 8)) = u
  have measured : ListsKept u
      (match m with | some m => u.withTunB { u.tunB with rx := u.tunB.rx.measure m u.clock.now } | none => u) := by
    cases m <;> exact .of_same rfl rfl
  exact measured.trans (.ite (listsKept_withTunB _ _) ((listsKept_updateChannel _).trans (listsKept_sweepOn _)))

theorem steered_countRejections (s : State) : Steered s s.countRejections := by
  refine (undirected_reach s _).steered.trans ⟨listsKept_withRadio _ _ fun h => h.map _ fun _ _ => ⟨rfl, rfl⟩, id⟩

end Sys2Proof.Machine
end

section
namespace Sys2Proof.Machine

/-! ### The ports -/

theorem undirected_withTracker (s : State) (p : Port) (t : Tracker) : Undirected s (s.withTracker p t) :=
  .of_happens (happens_withTracker s p t) (by decide) (s.withTracker_links p t)

theorem undirected_takeSync (s : State) (gap : Time) (set : PortFrame) : Undirected s (s.takeSync gap set) := by
  unfold State.takeSync
  have sent : ∀ u : State, Undirected u (match PortFrame.port set with | .p2 => u.withPorts u.ports.sendUplink | .p0 | .p1 => u) :=
    fun u => by cases PortFrame.port set <;> exact .of_same rfl rfl
  exact .ite (.refl s) ((undirected_reach s _).trans ((undirected_withTracker _ _ _).trans (sent _)))

theorem undirected_takeOverdue (s : State) (p : Port) : Undirected s (s.takeOverdue p) := by
  have slipped : ∀ t x, Undirected s ((s.reach t).withTracker p x) := fun t x =>
    (undirected_reach s t).trans (undirected_withTracker _ p x)
  unfold State.takeOverdue
  refine .ite (.refl s) ?_
  split
  · exact .refl s
  · exact .ite (.refl s) (slipped _ _)
  all_goals exact slipped _ _

theorem undirected_takeGiveUp (s : State) (p : Port) : Undirected s (s.takeGiveUp p) :=
  .ite ((undirected_reach s _).trans (undirected_withTracker _ _ _)) (.refl s)

theorem undirected_takeHoldoverTimeout (s : State) (p : Port) : Undirected s (s.takeHoldoverTimeout p) := by
  unfold State.takeHoldoverTimeout
  exact .ite ((undirected_reach s _).trans ((undirected_withTracker _ _ _).trans
    (.foldl _ (fun s l => undirected_advise s l _) _ _))) (.refl s)

/-! ### The Traffic and Shift Unit -/

theorem undirected_memoTurnedOn (s : State) : Undirected s s.memoTurnedOn := by
  unfold State.memoTurnedOn
  split
  · exact undirected_considerMemo _ _
  · exact .refl s

theorem steered_setTraffic (s : State) (on memo : Bool) : Steered s (s.setTraffic on memo) := by
  unfold State.setTraffic
  dsimp only
  have assessed : Steered s (s.withTraffic { s.traffic with on := on, memo := memo }).reassess :=
    ListsKept.reassessed (.of_same rfl rfl)
  generalize (s.withTraffic { s.traffic with on := on, memo := memo }).reassess = u at assessed ⊢
  have dropped : Steered s
      (if s.traffic.on && !on && u.shift.purpose = some .memo then u.discard .trafficOff else u) :=
    .ite (assessed.trans (undirected_discard _ _).steered) assessed
  exact .ite (dropped.trans (undirected_memoTurnedOn _).steered) dropped

theorem undirected_resumeReplay (s : State) : Undirected s s.resumeReplay := .of_same rfl rfl

theorem steered_eligibleExpired (s : State) : Steered s s.eligibleExpired := by
  unfold State.eligibleExpired
  split
  · rename_i t _
    exact (undirected_reach s (t + seconds 2)).steered.trans (ListsKept.reassessed (.of_same rfl rfl))
  · exact .refl s

theorem undirected_replayDrained (s : State) : Undirected s s.replayDrained := .ite (undirected_shiftOff s) (.refl s)

theorem undirected_memoReplayEnded (s : State) : Undirected s s.memoReplayEnded :=
  .ite ((undirected_shiftOff s).trans (undirected_dropClaim _ _)) (.refl s)

/-! ### Power (R194 to R196) -/

theorem steered_enterRun (s : State) (c : EntryCause) : Steered s (s.enterRun c) := by
  unfold State.enterRun
  exact ⟨(listsKept_withPower s _).trans ((undirected_withClock _ _).lists.trans (steered_retuneA _ _ _).toListsKept),
    fun _ => State.reassess_assigned _⟩

theorem steered_wake (s : State) (on : Bool) (c : EntryCause) : Steered s (s.wake on c) := .ite (steered_enterRun _ _) (.refl s)

/-! ### The call (R36, R118) -/

theorem undirected_followCallClaim (s : State) (was is : CallPhase) : Undirected s (s.followCallClaim was is) :=
  .ite (undirected_setClaim _ _ _) (.ite (undirected_post _ _ _) (undirected_changeClaim _ _ _))

theorem undirected_enterCall (s : State) (p : CallPhase) : Undirected s (s.enterCall p) := by
  unfold State.enterCall
  have claimed : Undirected s ((s.withCall { s.call with state := p }).followCallClaim s.call.state p).tableChanged :=
    (undirected_withCall s _).trans ((undirected_followCallClaim _ _ _).trans (undirected_tableChanged _))
  refine claimed.trans ?_
  dsimp only
  split
  · exact undirected_withCall _ _
  · exact (undirected_withCall _ _).trans (.ite (undirected_startCapture _ _ _ _ _) (.refl _))
  · exact undirected_withCall _ _
  · exact (undirected_withCall _ _).trans (.ite (undirected_resumeReplay _) (.refl _))

theorem undirected_chooseMic (s : State) : Undirected s s.chooseMic := .ite (.refl s) (.of_same rfl rfl)

theorem undirected_placeCall (s : State) (p : Placement) : Undirected s (s.placeCall p) := by
  unfold State.placeCall
  refine (undirected_withCall s { s.call with placement := p }).trans ?_
  generalize s.withCall { s.call with placement := p } = u
  have claimed : Undirected u (if u.call.state = .idle then u
      else (u.changeClaim callHandle fun c => { c with zones := placementZones p }).tableChanged) :=
    .ite (.refl u) ((undirected_changeClaim u _ _).trans (undirected_tableChanged _))
  exact claimed.trans ((undirected_chooseMic _).trans (undirected_withCall _ _))

theorem undirected_placementFallback (s : State) (st : StationId) : Undirected s (s.placementFallback st) :=
  .ite (undirected_placeCall _ _)
    ((undirected_placeCall _ _).trans ((undirected_advise _ _ _).trans (undirected_advise _ _ _)))

theorem undirected_windowJudged (s : State) : Undirected s s.windowJudged := .ite (undirected_withCall _ _) (.refl s)

/-! ### The rear stations -/

theorem undirected_setClass (s : State) (st : StationId) (c : JackClass) : Undirected s (s.setClass st c) := by
  unfold State.setClass
  exact .ite (.refl s) ((undirected_setStation s st { s.station st with jack := c }).trans
    (.ite (.refl _) (.ite (undirected_placementFallback _ _) (undirected_chooseMic _))))

theorem undirected_setGrace (s : State) (st : StationId) (g : Option Time) : Undirected s (s.setGrace st g) :=
  undirected_setStation _ _ _

theorem undirected_removed (s : State) (st : StationId) : Undirected s (s.removed st) := by
  unfold State.removed
  have opened := (undirected_setStation s st { s.station st with inserted := false, measuring := false }).trans
    (undirected_setClass _ st .vacant)
  exact .ite (.refl s) (.ite (opened.trans (undirected_setGrace _ _ _)) opened)

theorem undirected_measured (s : State) (st : StationId) (load1 load2 : Nat) (mic : Bool) :
    Undirected s (s.measured st load1 load2 mic) := by
  unfold State.measured
  exact .ite (.refl s) ((undirected_reach s _).trans ((undirected_setStation _ _ _).trans (undirected_setClass _ _ _)))

theorem listsKept_setHolder (s : State) (h : Option StationId) : ListsKept s (s.setHolder h) := listsKept_withTunB _ _

/-- Tuner B passed from one holder to another is held as before (R85). -/
theorem steered_handOver {s : State} {st : StationId} (h : s.tunB.holder = some st) (x : StationId) :
    Steered s (s.setHolder (some x)) := by
  refine ⟨listsKept_setHolder s _, fun k => ?_⟩
  simp only [State.assigned, h] at k
  exact k

theorem steered_endHolding (s : State) : Steered s s.endHolding := by
  unfold State.endHolding
  split
  · exact .refl s
  · rename_i st hst
    have stopped := undirected_setGrace s st none
    have held : (s.setGrace st none).tunB.holder = some st := by
      rw [← hst]
      exact congrArg Directions.holder stopped.directions
    exact stopped.steered.trans (.ite ((steered_handOver held _).trans (undirected_setGrace _ _ _).steered)
      (listsKept_setHolder _ none).reassessed)

theorem steered_lend (s : State) (st : StationId) (f : Freq) : Steered s (s.lend st f) := by
  unfold State.lend
  have lent : ListsKept s (if s.tunB.holder = some st then s else (s.setHolder (some st)).setGrace st (s.graceOf st)) :=
    .ite (.refl s) ((listsKept_setHolder _ _).trans (undirected_setGrace _ _ _).lists)
  exact (lent.trans (listsKept_enterB _ _ _)).reassessed

theorem steered_setSource (s : State) (st : StationId) (src : Source) : Steered s (s.setSource st src) := by
  have chosen := (undirected_setStation s st { s.station st with source := src }).steered
  exact .ite (chosen.trans (steered_endHolding _)) chosen

theorem steered_inserted (s : State) (st : StationId) : Steered s (s.inserted st) :=
  .ite (.refl s) (((undirected_setStation _ _ _).trans (undirected_setStation _ _ _)).steered.trans (steered_wake _ _ _))

theorem steered_graceExpired (s : State) (st : StationId) : Steered s (s.graceExpired st) := by
  unfold State.graceExpired
  split
  · exact .ite ((undirected_reach s _).steered.trans (steered_endHolding _)) (.refl s)
  · exact .refl s

/-! ### The voices (R158, R159) -/

theorem undirected_keepRequest (s : State) (n : Fin 4) : Undirected s (s.keepRequest n) := .ite (.refl s) (undirected_setPosted _ _ _)

theorem undirected_requestEnded (s : State) (r : Request) (c : EndCause) : Undirected s (s.requestEnded r c) :=
  (undirected_withChime s _).trans (undirected_notice _ _ _)

theorem undirected_startVoice (s : State) (n : Fin 4) (r : Request) (d : Descriptor) : Undirected s (s.startVoice n r d) := by
  unfold State.startVoice
  exact (undirected_withChime s _).trans ((undirected_setVoice _ _ _).trans ((undirected_post _ _ _).trans
    ((undirected_tableChanged _).trans (undirected_setPosted _ _ _))))

theorem undirected_stopVoice (s : State) (n : Fin 4) (c : EndCause) : Undirected s (s.stopVoice n c) :=
  .ite ((undirected_setVoice _ _ _).trans ((undirected_changeClaim _ _ _).trans (undirected_keepRequest _ _))) (.refl s)

theorem undirected_takeQueue (n : Fin 4) (rs : List Request) (s : State) : Undirected s (State.takeQueue n rs s) := by
  induction rs generalizing s with
  | nil => exact .refl s
  | cons r rest ih =>
    unfold State.takeQueue
    refine (undirected_withChime s { s.chime with queue := rest }).trans ?_
    dsimp only
    split
    · exact undirected_startVoice _ _ _ _
    · exact (undirected_requestEnded _ _ _).trans (ih _)

theorem undirected_takeNext (s : State) (n : Fin 4) (r : Option Request) : Undirected s (s.takeNext n r) := by
  unfold State.takeNext
  split
  · split
    · exact undirected_startVoice _ _ _ _
    · exact (undirected_requestEnded _ _ _).trans (undirected_takeQueue _ _ _)
  · exact undirected_takeQueue _ _ _

theorem undirected_endVoice (s : State) (n : Fin 4) (c : EndCause) : Undirected s (s.endVoice n c) := by
  have reported : ∀ u : State, Undirected u
      (match (s.voice n.val).starter, (s.voice n.val).desc with
        | some l, some d =>
          if (s.voice n.val).cause = some EndCause.reset then u.setEnded l ⟨d, some n, c⟩ else u.chimeEnded l ⟨d, some n, c⟩
        | _, _ => u) := fun u => by
    split
    · exact .ite (undirected_withChime u _) ((undirected_withChime u _).trans (undirected_notice _ _ _))
    · exact .refl u
  unfold State.endVoice
  exact (undirected_dropClaim s _).trans ((reported _).trans ((undirected_setVoice _ _ _).trans (undirected_keepRequest _ _)))

theorem undirected_reachIdle (s : State) (n : Fin 4) : Undirected s (s.reachIdle n) :=
  .ite ((undirected_endVoice _ _ _).trans (undirected_takeNext _ _ _)) (.refl s)

theorem undirected_chainStep (s : State) (n : Fin 4) (d : Descriptor) (next : Option Nat) : Undirected s (s.chainStep n d next) := by
  unfold State.chainStep
  dsimp only
  split
  · split
    · exact (undirected_setVoice _ _ _).trans ((undirected_changeClaim _ _ _).trans (undirected_tableChanged _))
    · exact undirected_stopVoice _ _ _
  · exact undirected_stopVoice _ _ _

theorem undirected_playEnded (s : State) (n : Fin 4) : Undirected s (s.playEnded n) := by
  unfold State.playEnded
  dsimp only
  split
  · rename_i d _
    refine .ite (.trans (undirected_setVoice s n.val ((s.voice n.val).restarted d.mode)) (.trans ?_ (undirected_keepRequest _ n)))
      (.refl s)
    split
    · exact undirected_setVoice _ _ _
    · split
      · exact undirected_setVoice _ _ _
      · split
        · exact undirected_chainStep _ _ _ _
        · exact undirected_stopVoice _ _ _
  · exact .refl s

theorem undirected_gapOver (s : State) (n : Fin 4) : Undirected s (s.gapOver n) := by
  unfold State.gapOver
  dsimp only
  split
  · exact .ite ((undirected_setVoice _ _ _).trans (undirected_setPosted _ _ _)) (.refl s)
  · exact .refl s

theorem undirected_deadlinePassed (s : State) (n : Fin 4) : Undirected s (s.deadlinePassed n) := by
  unfold State.deadlinePassed
  dsimp only
  split
  · exact .ite ((undirected_reach s _).trans (undirected_stopVoice _ _ _)) (.refl s)
  · exact .refl s

theorem undirected_cutVoice (s : State) (n : Fin 4) : Undirected s (s.cutVoice n) := by
  unfold State.cutVoice
  refine .ite (.refl s) ((undirected_endVoice s n .power).trans ?_)
  dsimp only
  split
  · exact undirected_requestEnded _ _ _
  · exact .refl _

theorem undirected_cutChimes (s : State) : Undirected s s.cutChimes :=
  (Undirected.foldl _ undirected_cutVoice _ s).trans ((undirected_withChime _ { (State.chime _) with queue := [] }).trans
    (.foldl _ (fun s r => undirected_requestEnded s r .power) _ _))

theorem undirected_cancelSuccessor (s : State) (p : Request → Bool) (n : Fin 4) : Undirected s (s.cancelSuccessor p n) := by
  unfold State.cancelSuccessor
  split
  · exact .ite ((undirected_setVoice s n.val { s.voice n.val with successor := none }).trans (undirected_requestEnded _ _ _))
      (.refl s)
  · exact .refl s

theorem undirected_stopWhere (s : State) (v : Voice → Bool) (r : Request → Bool) (c : EndCause) :
    Undirected s (s.stopWhere v r c) := by
  have withdrawn : ∀ u : State, Undirected u (u.withdrawQueued r) := fun u =>
    (undirected_withChime u _).trans (.foldl _ (fun s r => undirected_requestEnded s r _) _ _)
  unfold State.stopWhere
  exact (Undirected.foldl _ (fun s n => .ite (undirected_stopVoice s n c) (.refl s)) _ s).trans
    ((withdrawn _).trans (.foldl _ (fun s n => undirected_cancelSuccessor s r n) _ _))

theorem undirected_preempt (s : State) (n : Fin 4) (r : Request) : Undirected s (s.preempt n r) := by
  have stopped : Undirected s ((s.stopVoice n .preempted).setVoice n.val
      { (s.stopVoice n .preempted).voice n.val with successor := some r }) :=
    (undirected_stopVoice _ _ _).trans (undirected_setVoice _ _ _)
  unfold State.preempt
  dsimp only
  split
  · exact stopped.trans (undirected_advise _ _ _)
  · exact stopped

theorem undirected_requestChime (s : State) (l : Link) (d : Nat) (x : Descriptor) : Undirected s (s.requestChime l d x).2 := by
  unfold State.requestChime
  repeat' split
  · exact undirected_withChime _ _
  · exact .refl s
  · exact undirected_startVoice _ _ _ _
  · exact undirected_preempt _ _ _
  · exact undirected_withChime _ _
  · exact .refl s

/-! ### The Sample Store -/

theorem undirected_burst (s : State) (l : Link) (c : Channel) (x : Transfer) : Undirected s (s.burst l c x) := by
  unfold State.burst
  dsimp only
  generalize hu : State.setWaiting _ l _ = u
  have moved : Undirected s u := hu ▸ .of_same rfl rfl
  have delivered : ∀ (b : Bool) (ws : List Word), Undirected s (if b then u.deliver l ws else u) := fun b ws => by
    refine .ite (moved.trans ?_) moved
    unfold State.deliver
    split
    · exact undirected_setSlot _ _ _
    · exact .refl u
  exact .ite ((delivered _ _).trans (undirected_notice _ _ _)) (delivered _ _)

theorem undirected_bulkTurns (l : Link) (n : Nat) (s : State) : Undirected s (State.bulkTurns l n s) := by
  have turned : ∀ s : State, Undirected s s.bulkTurn := fun s => by
    unfold State.bulkTurn
    split
    · exact .refl s
    · split
      · exact undirected_burst _ _ _ _
      · exact .of_same rfl rfl
  induction n generalizing s with
  | zero => exact .refl s
  | succ n ih => exact .ite ((turned s).trans (ih _)) (.refl s)

theorem undirected_moveAll (s : State) (l : Link) : Undirected s (s.moveAll l) := undirected_bulkTurns _ _ _

theorem undirected_replyReady (s : State) (l : Link) : Undirected s (s.replyReady l) := by
  unfold State.replyReady
  refine .trans (undirected_moveAll s l) ?_
  dsimp only
  split
  · exact .refl _
  · exact undirected_setSlot _ _ _

theorem undirected_moveBounds (s : State) (u0 u1 : Nat) : Undirected s (s.moveBounds u0 u1).2 := by
  unfold State.moveBounds
  dsimp only
  generalize hu : List.foldl _ _ Link.every = u
  have told : Undirected s u := by
    rw [← hu]
    exact (undirected_withStore s _).trans ((undirected_withChime _ _).trans
      (.foldl _ (fun t l => by exact .ite (.refl t) (undirected_advise _ _ _)) _ _))
  exact .ite (told.trans (undirected_discard _ _)) told

/-! ### The Mix Engine and the frame event -/

theorem undirected_setSink (s : State) (k : Nat) (x : Sink) : Undirected s (s.setSink k x) := .of_same rfl rfl

theorem undirected_fadeOutEnd (s : State) (k : Nat) : Undirected s (s.fadeOutEnd k) := by
  unfold State.fadeOutEnd
  exact .ite (.ite (.of_same rfl rfl) (.of_same rfl rfl)) (.refl s)

theorem undirected_fadeInEnd (s : State) (k : Nat) : Undirected s (s.fadeInEnd k) := .ite (undirected_setSink s k _) (.refl s)

theorem undirected_releaseGuard (s : State) (k : Nat) : Undirected s (s.releaseGuard k) := .ite (undirected_setSink s k _) (.refl s)

theorem undirected_speedGrowsStale (s : State) : Undirected s s.speedGrowsStale :=
  .ite (.refl s) ((undirected_reach s _).trans (undirected_withMix _ _))

theorem undirected_settled {f : State → State} (s : State) (h : Undirected s (f s)) : Undirected s (settled f s) :=
  h.trans (undirected_offerEdges _ _)

theorem undirected_settleDue (s : State) : Undirected s s.settleDue := by
  unfold State.settleDue
  have sinks : ∀ (s : State) (k : Nat), Undirected s
      (settled (fun s => s.fadeInEnd k) (settled (fun s => s.fadeOutEnd k) (settled (fun s => s.releaseGuard k) s))) :=
    fun s k => (undirected_settled s (undirected_releaseGuard s k)).trans
      ((undirected_settled _ (undirected_fadeOutEnd _ k)).trans (undirected_settled _ (undirected_fadeInEnd _ k)))
  have plays : ∀ (s : State) (n : Fin 4), Undirected s (settled (fun s => s.gapOver n) (settled (fun s => s.playEnded n) s)) :=
    fun s n => (undirected_settled s (undirected_playEnded s n)).trans (undirected_settled _ (undirected_gapOver _ n))
  have ends : ∀ (s : State) (n : Fin 4), Undirected s (settled (fun s => s.reachIdle n) s) :=
    fun s n => undirected_settled s (undirected_reachIdle s n)
  exact (undirected_settled s (undirected_windowJudged s)).trans ((Undirected.foldl _ sinks _ _).trans
    ((undirected_settled _ (undirected_replayDrained _)).trans ((undirected_settled _ (undirected_memoReplayEnded _)).trans
      ((Undirected.foldl _ plays _ _).trans (Undirected.foldl _ ends _ _)))))

theorem undirected_record (s : State) (w : Word) : Undirected s (s.record w) := by
  unfold State.record
  refine .ite (.of_same rfl rfl) (.ite (.of_same rfl rfl) ?_)
  exact (undirected_withStore s _).trans ((undirected_withShift _ _).trans (undirected_riseAll _ 4))

theorem undirected_capture (s : State) (o : Offers) : Undirected s (s.capture o) := by
  unfold State.capture
  refine .ite ?_ (.refl s)
  split
  · exact .foldl _ undirected_record _ _
  · exact .refl s

theorem undirected_postStreams (s : State) : Undirected s s.postStreams := by
  unfold State.postStreams
  exact (undirected_withStore s _).trans ((undirected_setPosted _ _ _).trans ((undirected_setPosted _ _ _).trans
    (.foldl _ (fun s n => undirected_setPosted s _ _) _ _)))

theorem undirected_conference (s : State) (x : FrameInput) : Undirected s (s.conference x) :=
  .ite (.refl s) ((undirected_withCall _ _).trans (undirected_withCall _ _))

theorem undirected_frame (s : State) (x : FrameInput) : Undirected s (s.frame x) := by
  unfold State.frame
  have replayed : ∀ u : State, Undirected u u.afterReplay := fun u => .ite (undirected_withShift _ _) (.refl u)
  have cancelled : ∀ u : State, Undirected u (u.cancel x) := fun u => .ite (undirected_withCall _ _) (undirected_withCall _ _)
  have handed : ∀ u : State, Undirected u u.handUplink := fun u => .ite (undirected_withPorts _ _) (.refl u)
  have sampled : ∀ u : State, Undirected u u.startSampling := fun u => undirected_withStations u _
  have moved : ∀ u : State, Undirected u u.nextFrame := fun u => .of_same rfl rfl
  exact (undirected_withMix s _).trans ((replayed _).trans ((undirected_capture _ _).trans ((undirected_withCall _ _).trans
    ((cancelled _).trans ((handed _).trans ((undirected_conference _ x).trans ((sampled _).trans
      ((undirected_withChime _ _).trans ((undirected_postStreams _).trans (moved _))))))))))

theorem undirected_frameEvent (s : State) (x : FrameInput) : Undirected s (s.frameEvent x) := by
  unfold State.frameEvent
  split
  · exact .refl s
  · exact (undirected_settleDue s).trans ((undirected_reach _ _).trans (undirected_frame _ x))

/-! ### Power Control -/

theorem listsKept_parkTuners (s : State) : ListsKept s s.parkTuners :=
  .trans (t := (s.withTunA s.tunA.rest).dropHolder) (.of_same rfl rfl) ((listsKept_enterB _ _ _).trans (.of_same rfl rfl))

theorem steered_leaveRun (s : State) (st : PowerState) : Steered s (s.leaveRun st) := by
  rw [State.leaveRun_eq]
  have ended : ∀ u : State, ListsKept u u.endFrames := fun _ => .of_same rfl rfl
  have stopped : ListsKept s (s.stopRun st) :=
    (listsKept_withPower s _).trans (((undirected_withMix _ _).trans ((undirected_cutChimes _).trans
      (undirected_discard _ _))).lists.trans ((listsKept_parkTuners _).trans (ended _)))
  exact (stopped.trans (.ite (listsKept_withPower _ _) (listsKept_withPower _ _))).reassessed

theorem steered_moveParked (s : State) {st : PowerState} (hst : st ≠ .run) : Steered s (s.moveParked st) := by
  unfold State.moveParked
  have moved := listsKept_withPower s { s.power with state := st }
  have stopped : ∀ u : State, ListsKept u u.stopTimer := fun u => listsKept_withPower u _
  exact .ite ⟨.of_same rfl rfl, fun _ k => absurd k hst⟩
    ((ListsKept.ite (moved.trans (listsKept_enterB _ _ _)) moved).trans (stopped _)).reassessed

theorem steered_moveTo (s : State) (st : PowerState) : Steered s (s.moveTo st) := by
  unfold State.moveTo
  split
  · exact steered_enterRun _ _
  · exact .ite (steered_leaveRun _ _) (steered_moveParked _ ‹_›)

theorem steered_filled (s : State) : Steered s s.filled := by
  unfold State.filled
  refine .ite ((undirected_reach s (s.store.initAt + milliseconds 40)).steered.trans (.trans ?_ (steered_wake _ _ _))) (.refl s)
  exact ⟨.of_same rfl rfl, fun _ k => by cases k⟩

theorem steered_ignitionRose (s : State) : Steered s s.ignitionRose :=
  (undirected_withPower s { s.power with ignition := highFrom s.clock.now } rfl).steered.trans (steered_wake _ _ _)

theorem steered_refreshDue (s : State) : Steered s s.refreshDue := by
  unfold State.refreshDue
  split
  · rename_i t m _
    dsimp only
    split
    · rename_i hq
      have stopped : Undirected s (s.reach (t + minutes m)).stopTimer :=
        (undirected_reach s _).trans (undirected_withPower _ _ rfl)
      generalize (s.reach (t + minutes m)).stopTimer = u at stopped ⊢
      have parked : u.power.state = .quiet := (congrArg Directions.power stopped.directions).trans hq
      refine stopped.steered.trans (.ite (.refl u) ⟨listsKept_startSweep _ _, fun _ k => ?_⟩)
      have : (u.startSweep .refresh).power.state = u.power.state :=
        congrArg Directions.power (u.startSweep_directions .refresh)
      rw [this, parked] at k
      cases k
    · exact .refl s
  · exact .refl s

/-! ### The two resets (R192, R193) -/

theorem steered_resetOwn (s : State) (l : Link) : Steered s (s.resetOwn l) := by
  match l with
  | .telephony => exact .ite (.refl s) (undirected_enterCall _ _).steered
  | .rear => exact steered_endHolding s
  | .cockpit => exact .refl s
  | .body => exact .refl s

theorem steered_resetLink (s : State) (l : Link) : Steered s (s.resetLink l) := by
  unfold State.resetLink
  have cleared : Steered s (s.setLink l ((s.link l).cleared false)) := steered_setLink s l _ (.inl (Nat.zero_le 4))
  have unmuted : ∀ u : State, Undirected u ((u.unmuteAll l).setChannel l none) := fun u => .of_same rfl rfl
  exact cleared.trans (((undirected_withTable _ _).trans ((undirected_tableChanged _).trans ((unmuted _).trans
    (undirected_stopWhere _ _ _ _)))).steered.trans (steered_resetOwn _ _))

theorem listsKept_resetTuners (s : State) : ListsKept s s.resetTuners := by
  unfold State.resetTuners
  have ruled : ListsKept s
      (s.withRadio { s.radio with scan := true, rearFirst := false, afOn := true, afThreshold := 35 }) :=
    listsKept_withRadio s _ id
  exact ruled.trans (((undirected_withTunA _ _).lists.trans (listsKept_setHolder _ none)).trans
    (.ite (.refl _) (listsKept_enterB _ _ _)))

theorem PerLink.get_map {α β : Type} (f : α → β) (p : PerLink α) (l : Link) : (p.map f).get l = f (p.get l) := by
  cases l <;> rfl

theorem steered_resetHub (s : State) : Steered s s.resetHub := by
  unfold State.resetHub
  refine (Undirected.foldl _ (fun s l => undirected_moveAll s l) Link.every s).steered.trans ?_
  dsimp only
  change Steered s.finishTransfers _
  generalize s.finishTransfers = u
  have cleared : ListsKept u (u.withLinks (u.links.map fun x => x.cleared true)) := by
    refine ⟨id, fun _ k => ?_⟩
    simp only [State.link, State.withLinks_links, PerLink.get_map]
    exact Nat.zero_le 4
  have restarted : ∀ v : State, Steered v v.restartTuners := fun v => .ite (steered_retuneA _ _ _) (steered_reassess _)
  refine ⟨cleared.trans ?_, fun _ => ?_⟩
  · generalize u.withLinks (u.links.map fun x => x.cleared true) = v
    exact (undirected_withTable _ _).lists.trans ((undirected_withMix _ _).lists.trans ((listsKept_withTraffic _ _).trans
      ((undirected_withShift _ _).lists.trans ((undirected_withCall _ _).lists.trans ((undirected_withStations _ _).lists.trans
        ((undirected_withChime _ _).lists.trans ((undirected_withStore _ _).lists.trans ((listsKept_withPower _ _).trans
          ((listsKept_resetTuners _).trans (restarted _).toListsKept)))))))))
  · unfold State.restartTuners
    split <;> exact State.reassess_assigned _

end Sys2Proof.Machine
end

section
namespace Sys2Proof.Machine

/-! ### The orders -/

/-- An order that is refused, or that changes nothing. -/
theorem steered_answer (st : Status) (s : State) : Steered s (answer st s).2 := .refl s

/-- An order that is answered after what it does. -/
theorem Steered.answered {s t : State} (h : Steered s t) (st : Status) : Steered s (answer st t).2 := h

/-- Every answer of an order keeps the lists and Tuner B's assignment. -/
def BodySteered (body : List Byte → State → Reply × State) : Prop := ∀ b s, Steered s (body b s).2

theorem steered_setProgramBody : BodySteered setProgramBody := fun b s => by
  unfold setProgramBody
  repeat' split
  any_goals with_reducible exact steered_answer _ s
  exact (Undirected.ite ((undirected_withMix s _).trans (undirected_discard _ _)) (undirected_withMix s _)).steered

theorem steered_setVolumeBody : BodySteered setVolumeBody := fun b s => by
  unfold setVolumeBody
  repeat' split
  all_goals exact Undirected.steered (.of_same rfl rfl)

theorem steered_setTrimBody : BodySteered setTrimBody := fun b s => by
  unfold setTrimBody
  dsimp only
  repeat' split
  all_goals exact Undirected.steered (.of_same rfl rfl)

theorem steered_setDelayBody : BodySteered setDelayBody := fun b s => by
  unfold setDelayBody
  dsimp only
  repeat' split
  all_goals exact Undirected.steered (.of_same rfl rfl)

theorem steered_setSpeedCurveBody : BodySteered setSpeedCurveBody := fun b s => by
  unfold setSpeedCurveBody
  repeat' split
  all_goals exact Undirected.steered (.of_same rfl rfl)

theorem steered_speedBody : BodySteered speedBody := fun _ s => (undirected_withMix s _).steered

theorem steered_muteBody (l : Link) (g : LinkSet → LinkSet) : BodySteered (muteBody l g) := fun b s => by
  unfold muteBody
  repeat' split
  all_goals exact Undirected.steered (.of_same rfl rfl)

theorem steered_tuneABody : BodySteered tuneABody := fun b s => by
  unfold tuneABody
  repeat' split
  any_goals with_reducible exact steered_answer _ s
  exact steered_retuneA _ _ _

theorem steered_seekABody : BodySteered seekABody := fun b s => by
  unfold seekABody
  repeat' split
  any_goals with_reducible exact steered_answer _ s
  exact steered_seek _ _

/-- R82: the entry of Tuner A's frequency is in the list, or is placed in it, before it takes the preset. -/
theorem steered_presetStoreBody : BodySteered presetStoreBody := fun b s => by
  have numbered : 1 ≤ clampNat 1 12 (u8 b 0) ∧ clampNat 1 12 (u8 b 0) ≤ 12 := by unfold clampNat; omega
  have stored : ∀ xs f, (stationsWf s.radio.stations → stationsWf xs) →
      Steered s (s.withRadio (s.radio.withNewVersion (givePreset xs f (clampNat 1 12 (u8 b 0))))).reassess := fun xs f h =>
    (listsKept_withRadio s _ fun k => stationsWf.givePreset (h k) f numbered).reassessed
  unfold presetStoreBody
  dsimp only
  split
  · exact steered_answer _ s
  · split
    · exact steered_answer _ s
    · split
      · exact steered_answer _ s
      · rename_i xs hxs
        refine stored xs _ fun h => ?_
        split at hxs
        · cases hxs; exact h
        · exact h.place (Option.not_isSome_iff_eq_none.1 ‹_›) rfl hxs

theorem steered_presetRecallBody : BodySteered presetRecallBody := fun b s => by
  unfold presetRecallBody
  dsimp only
  repeat' split
  any_goals with_reducible exact steered_answer _ s
  exact steered_retuneA _ _ _

theorem steered_scanPolicyBody : BodySteered scanPolicyBody := fun b s => by
  unfold scanPolicyBody
  repeat' split
  any_goals with_reducible exact steered_answer _ s
  exact (listsKept_withRadio _ _ (by exact id)).reassessed

theorem steered_afPolicyBody : BodySteered afPolicyBody := fun b s => by
  unfold afPolicyBody
  dsimp only
  repeat' split
  all_goals exact ⟨⟨id, advisoriesWf_of_links rfl⟩, id⟩

theorem steered_listReadBody : BodySteered listReadBody := fun b s => by
  unfold listReadBody
  dsimp only
  split <;> exact .refl s

theorem steered_trafficModeBody : BodySteered trafficModeBody := fun b s => by
  unfold trafficModeBody
  repeat' split
  any_goals with_reducible exact steered_answer _ s
  exact steered_setTraffic _ _ _

theorem steered_pauseBody : BodySteered pauseBody := fun b s => by
  unfold pauseBody
  repeat' split
  any_goals with_reducible exact steered_answer _ s
  · exact Undirected.steered (.of_same rfl rfl)
  · exact (undirected_startCapture _ _ _ _ _).steered

theorem steered_resumeBody : BodySteered resumeBody := fun b s => by
  unfold resumeBody
  split
  · exact (undirected_resumeReplay _).steered
  · exact .refl s

theorem steered_goLiveBody : BodySteered goLiveBody := fun b s => by
  unfold goLiveBody
  split
  · exact (undirected_shiftOff _).steered
  · exact .refl s

theorem steered_shiftPolicyBody : BodySteered shiftPolicyBody := fun b s => by
  unfold shiftPolicyBody
  repeat' split
  all_goals exact Undirected.steered (.of_same rfl rfl)

theorem steered_callStateBody (b : List Byte) (s : State) : Steered s (callStateBody b s).2 := by
  unfold callStateBody
  split
  · exact steered_answer _ s
  · split
    · exact steered_answer _ s
    · exact (undirected_enterCall s _).steered.trans (.ite (steered_wake _ _ _) (.refl _))

theorem steered_callPlaceBody : BodySteered callPlaceBody := fun b s => by
  unfold callPlaceBody
  repeat' split
  any_goals with_reducible exact steered_answer _ s
  exact (undirected_placeCall _ _).steered

theorem steered_micSelectBody : BodySteered micSelectBody := fun b s => by
  unfold micSelectBody
  dsimp only
  repeat' split
  any_goals with_reducible exact steered_answer _ s
  all_goals exact ((undirected_withCall s _).trans (undirected_chooseMic _)).steered

theorem steered_micMuteBody (g : LinkSet → LinkSet) : BodySteered (micMuteBody g) := fun _ s => (undirected_withCall s _).steered

theorem steered_callVolumeBody : BodySteered callVolumeBody := fun _ s => (undirected_withCall s _).steered

theorem steered_stationSourceBody (l : Link) : BodySteered (stationSourceBody l) := fun b s => by
  unfold stationSourceBody
  repeat' split
  any_goals with_reducible exact steered_answer _ s
  exact steered_setSource _ _ _

theorem steered_stationTuneBody (l : Link) : BodySteered (stationTuneBody l) := fun b s => by
  unfold stationTuneBody
  repeat' split
  any_goals with_reducible exact steered_answer _ s
  exact steered_lend _ _ _

theorem steered_stationVolumeBody (l : Link) : BodySteered (stationVolumeBody l) := fun b s => by
  unfold stationVolumeBody
  repeat' split
  any_goals with_reducible exact steered_answer _ s
  exact (undirected_setStation _ _ _).steered

theorem steered_stationSwapBody (l : Link) : BodySteered (stationSwapBody l) := fun b s => by
  unfold stationSwapBody
  repeat' split
  any_goals with_reducible exact steered_answer _ s
  exact (undirected_setStation _ _ _).steered

theorem steered_jackMeasureBody (l : Link) : BodySteered (jackMeasureBody l) := fun b s => by
  unfold jackMeasureBody
  repeat' split
  any_goals with_reducible exact steered_answer _ s
  exact (undirected_setStation _ _ _).steered

theorem steered_stationCapBody : BodySteered stationCapBody := fun _ s => (undirected_withStations s _).steered

theorem steered_rearLockBody : BodySteered rearLockBody := fun b s => by
  unfold rearLockBody
  repeat' split
  all_goals exact Undirected.steered (.of_same rfl rfl)

theorem steered_chimeDefineBody (l : Link) : BodySteered (chimeDefineBody l) := fun b s => by
  unfold chimeDefineBody
  dsimp only
  repeat' split
  all_goals exact Undirected.steered (.of_same rfl rfl)

theorem steered_chimeStartBody (l : Link) (b : List Byte) (s : State) : Steered s (chimeStartBody l b s).2 := by
  unfold chimeStartBody
  dsimp only
  repeat' split
  any_goals with_reducible exact steered_answer _ s
  exact (steered_wake _ _ _).trans (undirected_requestChime _ _ _ _).steered

theorem steered_chimeStopBody : BodySteered chimeStopBody := fun b s => by
  unfold chimeStopBody
  dsimp only
  repeat' split
  any_goals with_reducible exact steered_answer _ s
  exact (undirected_stopWhere _ _ _ _).steered.answered _

theorem steered_chimeStopAllBody : BodySteered chimeStopAllBody := fun _ s => (undirected_stopWhere s _ _ _).steered.answered _

theorem steered_chimeRenewBody : BodySteered chimeRenewBody := fun b s => by
  unfold chimeRenewBody
  dsimp only
  repeat' split
  all_goals exact Undirected.steered (.of_same rfl rfl)

theorem steered_chimeReadBody : BodySteered chimeReadBody := fun b s => by
  unfold chimeReadBody
  repeat' split
  all_goals exact .refl s

theorem steered_regionSetBody : BodySteered regionSetBody := fun b s => by
  unfold regionSetBody
  dsimp only
  repeat' split
  any_goals with_reducible exact steered_answer _ s
  exact (undirected_moveBounds _ _ _).steered

theorem steered_rightsSetBody : BodySteered rightsSetBody := fun b s => by
  unfold rightsSetBody
  repeat' split
  all_goals exact Undirected.steered (.of_same rfl rfl)

theorem steered_storeOpenBody (l : Link) : BodySteered (storeOpenBody l) := fun b s => by
  unfold storeOpenBody
  dsimp only
  repeat' split
  all_goals exact Undirected.steered (.of_same rfl rfl)

theorem steered_storeDataBody (l : Link) (x : DataForm) (s : State) : Steered s (storeDataBody l x s).2 := by
  unfold storeDataBody
  have waits : ∀ ws n, Steered s (s.awaitWords l ws n).2 := fun _ _ => .ite (.refl s) (undirected_withStore _ _).steered
  repeat' split
  any_goals with_reducible exact steered_answer _ s
  all_goals exact waits _ _

theorem steered_storeCloseBody (l : Link) : BodySteered (storeCloseBody l) := fun b s => by
  unfold storeCloseBody
  repeat' split
  all_goals exact Undirected.steered (.of_same rfl rfl)

theorem steered_watchSetBody (l : Link) : BodySteered (watchSetBody l) := fun b s =>
  steered_setLink s l { s.link l with
    riseEnable := (s.link l).riseEnable ||| (selections b).1, fallEnable := (s.link l).fallEnable ||| (selections b).2 }
    (.inr rfl)

theorem steered_watchClearBody (l : Link) : BodySteered (watchClearBody l) := fun b s =>
  steered_setLink s l { s.link l with
    riseEnable := (s.link l).riseEnable &&& ~~~(selections b).1, fallEnable := (s.link l).fallEnable &&& ~~~(selections b).2 }
    (.inr rfl)

theorem steered_eventsReadBody (l : Link) : BodySteered (eventsReadBody l) := fun _ s =>
  steered_setLink s l { s.link l with riseLatch := 0, fallLatch := 0, advisories := [], restart := false }
    (.inl (Nat.zero_le 4))

theorem steered_powerBody (b : List Byte) (s : State) : Steered s (powerBody b s).2 := by
  unfold powerBody
  repeat' split
  any_goals with_reducible exact steered_answer _ s
  exact steered_moveTo _ _

theorem steered_wakeSetBody : BodySteered wakeSetBody := fun b s => by
  unfold wakeSetBody
  repeat' split
  all_goals exact Undirected.steered (.of_same rfl rfl)

theorem steered_claimBody (l : Link) : BodySteered (claimBody l) := fun b s => by
  unfold claimBody
  repeat' split
  any_goals with_reducible exact steered_answer _ s
  exact ((undirected_post s _ _).trans (undirected_tableChanged _)).steered

theorem steered_releaseBody (l : Link) : BodySteered (releaseBody l) := fun b s => by
  unfold releaseBody
  dsimp only
  repeat' split
  any_goals with_reducible exact steered_answer _ s
  exact (undirected_dropClaim s _).steered

theorem steered_amendBody (l : Link) : BodySteered (amendBody l) := fun b s => by
  unfold amendBody
  dsimp only
  repeat' split
  any_goals with_reducible exact steered_answer _ s
  exact ((undirected_setClaim s _ _).trans (undirected_tableChanged _)).steered

/-! ### Commands -/

theorem steered_order {α : Type} {l : Link} {f : Frame} {links : List Link} {ops : Option α} {body : α → State → Reply × State}
    {s t : State} (hb : ∀ b u, Steered u (body b u).2) (h : order l f links ops body s = .next t) : Steered s t := by
  obtain rfl := Host.Outcome.next.inj h
  have checks : ∀ u, Steered u (checked l links ops body u).2 := by
    intro u
    unfold checked
    repeat' split
    · exact .refl u
    · exact hb _ u
    · exact .refl u
  have shown : ∀ r, Steered s (s.shiftOut l (clocked f) r) := fun r => (undirected_shiftOut s _ _ r).steered
  unfold takeOrder
  split
  · exact shown _
  · exact (shown _).trans ((checks _).trans ((undirected_offerEdges _ _).trans (undirected_setSlot _ _ _)).steered)

theorem steered_event {f : State → State} {s t : State} (hf : ∀ u, Steered u (f u)) (h : event f s = .next t) :
    Steered s t := by
  obtain rfl := Host.Outcome.next.inj h
  exact (hf s).trans (undirected_offerEdges _ _).steered

theorem steered_quietEvent {f : State → State} {s t : State} (hf : ∀ u, Undirected u (f u)) (h : event f s = .next t) :
    Steered s t := steered_event (fun u => (hf u).steered) h

/-- An event of the tuners ends with a new assessment. -/
theorem steered_tunerEvent {f : State → State} {s t : State} (hf : ∀ u, ListsKept u (f u)) (h : tunerEvent f s = .next t) :
    Steered s t := steered_event (fun u => (hf u).reassessed) h

theorem steered_nullFrame {p : SelectPeriod} {s t : State} (h : execNullFrame p s = .next t) : Steered s t := by
  unfold execNullFrame at h
  split at h <;> obtain rfl := Host.Outcome.next.inj h <;> exact (undirected_shiftOut s _ _ _).steered

theorem steered_wait {p : SelectPeriod} {s t : State} (h : execWait p s = .next t) : Steered s t := by
  unfold execWait at h
  split at h <;> obtain rfl := Host.Outcome.next.inj h
  · exact .refl s
  · exact (undirected_shiftOut s _ _ _).steered

theorem steered_unknownOrder {l : Link} {c : Byte} {f : Frame} {s t : State} (h : execUnknownOrder l c f s = .next t) :
    Steered s t := by
  obtain rfl := Host.Outcome.next.inj h
  unfold takeOrder
  split
  · exact (undirected_shiftOut s _ _ _).steered
  · dsimp only
    rw [unknownBody_state]
    exact ((undirected_shiftOut s _ _ _).trans ((undirected_offerEdges _ _).trans (undirected_setSlot _ _ _))).steered

theorem steered_statusRead {l : Link} {f : Frame} {s t : State} (h : execStatusRead l f s = .next t) : Steered s t :=
  steered_order (fun b u => by rw [statusReadBody_state]; exact .refl u) h

theorem steered_tunerMeasurement {x : TunerId} {m : Meas} {s t : State} (h : execTunerMeasurement x m s = .next t) :
    Steered s t := by
  cases x
  · exact steered_tunerEvent (fun u => (steered_measuredA u m).toListsKept) h
  · exact steered_tunerEvent (fun u => listsKept_measuredB u m) h

theorem steered_settleEnd {x : TunerId} {m : Meas} {s t : State} (h : execSettleEnd x m s = .next t) : Steered s t := by
  cases x
  · exact steered_tunerEvent (fun u => (undirected_settledA u m).lists) h
  · exact steered_tunerEvent (fun u => listsKept_settledB u m) h

theorem steered_dataGroup {x : TunerId} {g : DataGroup} {s t : State} (h : execDataGroup x g s = .next t) : Steered s t := by
  cases x
  · exact steered_tunerEvent (fun u => listsKept_groupA u g) h
  · exact steered_tunerEvent (fun u => listsKept_groupB u g) h

/-- At power-on the lists are empty, and the hub is not in RUN. -/
theorem steered_powerOn (ignition jack1 jack2 : Bool) (s : State) (cs : List Instr) :
    Steered s ((State.powerOn ignition jack1 jack2).withPending cs) where
  stations _ := stationsWf_nil
  advisories _ := fun k => by cases k <;> exact Nat.zero_le 4
  assigned _ := fun h => by cases h

/-- The orders' own bodies and the events' own steps, put together: one arm for each command. -/
theorem steered_exec (c : Instr) {s t : State} (h : exec c s = .next t) : Steered s t := by
  cases c with
  | claim l f => exact steered_order (steered_claimBody l) h
  | release l f => exact steered_order (steered_releaseBody l) h
  | amend l f => exact steered_order (steered_amendBody l) h
  | setProgram l f => exact steered_order steered_setProgramBody h
  | setVolume l f => exact steered_order steered_setVolumeBody h
  | setTrim l f => exact steered_order steered_setTrimBody h
  | setDelay l f => exact steered_order steered_setDelayBody h
  | setSpeedCurve l f => exact steered_order steered_setSpeedCurveBody h
  | speed l f => exact steered_order steered_speedBody h
  | muteSet l f => exact steered_order (steered_muteBody l _) h
  | muteClear l f => exact steered_order (steered_muteBody l _) h
  | tuneA l f => exact steered_order steered_tuneABody h
  | seekA l f => exact steered_order steered_seekABody h
  | presetStore l f => exact steered_order steered_presetStoreBody h
  | presetRecall l f => exact steered_order steered_presetRecallBody h
  | scanPolicy l f => exact steered_order steered_scanPolicyBody h
  | afPolicy l f => exact steered_order steered_afPolicyBody h
  | listRead l f => exact steered_order steered_listReadBody h
  | trafficMode l f => exact steered_order steered_trafficModeBody h
  | pause l f => exact steered_order steered_pauseBody h
  | resume l f => exact steered_order steered_resumeBody h
  | goLive l f => exact steered_order steered_goLiveBody h
  | shiftPolicy l f => exact steered_order steered_shiftPolicyBody h
  | callState l f => exact steered_order steered_callStateBody h
  | callPlace l f => exact steered_order steered_callPlaceBody h
  | micSelect l f => exact steered_order steered_micSelectBody h
  | micMuteSet l f => exact steered_order (steered_micMuteBody _) h
  | micMuteClear l f => exact steered_order (steered_micMuteBody _) h
  | callVolume l f => exact steered_order steered_callVolumeBody h
  | stationSource l f => exact steered_order (steered_stationSourceBody l) h
  | stationTune l f => exact steered_order (steered_stationTuneBody l) h
  | stationVolume l f => exact steered_order (steered_stationVolumeBody l) h
  | stationSwap l f => exact steered_order (steered_stationSwapBody l) h
  | jackMeasure l f => exact steered_order (steered_jackMeasureBody l) h
  | stationCap l f => exact steered_order steered_stationCapBody h
  | rearLock l f => exact steered_order steered_rearLockBody h
  | chimeDefine l f => exact steered_order (steered_chimeDefineBody l) h
  | chimeStart l f => exact steered_order (steered_chimeStartBody l) h
  | chimeStop l f => exact steered_order steered_chimeStopBody h
  | chimeRenew l f => exact steered_order steered_chimeRenewBody h
  | chimeStopAll l f => exact steered_order steered_chimeStopAllBody h
  | chimeRead l f => exact steered_order steered_chimeReadBody h
  | storeOpen l f => exact steered_order (steered_storeOpenBody l) h
  | storeData l f => exact steered_order (steered_storeDataBody l) h
  | storeClose l f => exact steered_order (steered_storeCloseBody l) h
  | regionSet l f => exact steered_order steered_regionSetBody h
  | rightsSet l f => exact steered_order steered_rightsSetBody h
  | watchSet l f => exact steered_order (steered_watchSetBody l) h
  | watchClear l f => exact steered_order (steered_watchClearBody l) h
  | eventsRead l f => exact steered_order (steered_eventsReadBody l) h
  | statusRead l f => exact steered_statusRead h
  | power l f => exact steered_order steered_powerBody h
  | wakeSet l f => exact steered_order steered_wakeSetBody h
  | linkReset l f => exact steered_order (fun _ u => (steered_resetLink u l).answered _) h
  | hubReset l f => exact steered_order (fun _ u => (steered_resetHub u).answered _) h
  | unknownOrder l code f => exact steered_unknownOrder (c := code) h
  | nullFrame p => exact steered_nullFrame h
  | wait p => exact steered_wait h
  | replyReady l => exact Host.Outcome.next.inj h ▸ (undirected_replyReady s l).steered
  | powerOn ignition jack1 jack2 => exact Host.Outcome.next.inj h ▸ steered_powerOn ignition jack1 jack2 s _
  | storeReady => exact steered_event steered_filled h
  | ignitionRise => exact steered_event steered_ignitionRose h
  | refreshTimerExpiry => exact steered_event steered_refreshDue h
  | frameEvent x => exact steered_quietEvent (fun u => undirected_frameEvent u x) h
  | frameSync gap set => exact steered_quietEvent (fun u => undirected_takeSync u gap set) h
  | overdueSlip p => exact steered_quietEvent (fun u => undirected_takeOverdue u p) h
  | acquireGiveUp p => exact steered_quietEvent (fun u => undirected_takeGiveUp u p) h
  | holdoverTimeout p => exact steered_quietEvent (fun u => undirected_takeHoldoverTimeout u p) h
  | clipGuardRelease sink => exact steered_quietEvent (fun u => undirected_releaseGuard u sink.val) h
  | delayFadeOutEnd sink => exact steered_quietEvent (fun u => undirected_fadeOutEnd u sink.val) h
  | delayFadeInEnd sink => exact steered_quietEvent (fun u => undirected_fadeInEnd u sink.val) h
  | speedStale => exact steered_quietEvent undirected_speedGrowsStale h
  | tunerMeasurement x m => exact steered_tunerMeasurement h
  | settleEnd x m => exact steered_settleEnd h
  | seekChannelEnd m => exact steered_tunerEvent (fun u => (steered_seekChannelEnd u m).toListsKept) h
  | afPrefadeEnd => exact steered_tunerEvent (fun u => (undirected_prefadeEnd u).lists) h
  | afCheckMeasurement m => exact steered_tunerEvent (fun u => listsKept_checkMeasured u m) h
  | afGapEnd => exact steered_tunerEvent (fun u => (undirected_gapEnded u).lists) h
  | afVerifyTimeout => exact steered_tunerEvent listsKept_verifyTimedOut h
  | dataGroup x g => exact steered_dataGroup h
  | dataTimeout x => exact steered_tunerEvent (fun u => listsKept_dataLapsed u x) h
  | sweepChannelEnd m => exact steered_tunerEvent (fun u => listsKept_sweepChannelEnd u m) h
  | rejectionTick => exact steered_event steered_countRejections h
  | aEligibleExpiry => exact steered_event steered_eligibleExpired h
  | replayDrained => exact steered_quietEvent undirected_replayDrained h
  | memoReplayEnd => exact steered_quietEvent undirected_memoReplayEnded h
  | windowJudged => exact steered_quietEvent undirected_windowJudged h
  | jackInsertion st => exact steered_event (fun u => steered_inserted u st) h
  | jackRemoval st => exact steered_quietEvent (fun u => undirected_removed u st) h
  | measurementComplete st load1 load2 mic => exact steered_quietEvent (fun u => undirected_measured u st load1 load2 mic) h
  | graceExpiry st => exact steered_event (fun u => steered_graceExpired u st) h
  | voicePlayEnd v => exact steered_quietEvent (fun u => undirected_playEnded u v) h
  | gapEnd v => exact steered_quietEvent (fun u => undirected_gapOver u v) h
  | deadlineExpiry v => exact steered_quietEvent (fun u => undirected_deadlinePassed u v) h
  | voiceIdle v => exact steered_quietEvent (fun u => undirected_reachIdle u v) h

theorem undirected_withPending (s : State) (cs : List Instr) : Undirected s (s.withPending cs) := .of_same rfl rfl

theorem step_steered {s t : State} (h : step s = .next t) : Steered s t := by
  unfold step at h
  split at h
  · obtain rfl := Host.Outcome.next.inj h
    exact (undirected_reach s _).steered
  · exact (undirected_withPending s _).steered.trans (steered_exec _ h)

/-- Settles O11: an entry joins the list at its place and only where it has none, ageing and rejections leave the order, a preset
number is taken off the entry that had it, and an advisory joins a list that keeps the 4 newest. -/
theorem stepKeepsLists : Obligations.StepKeepsLists := by
  unfold Obligations.StepKeepsLists
  exact fun s t h => ⟨(step_steered h).stations, (step_steered h).advisories⟩

/-- Settles O14: whatever changes what the assignment reads ends with a new assessment, which gives Tuner B its state, or leaves
RUN; a handover leaves Tuner B held. -/
theorem stepKeepsAssignment : Obligations.StepKeepsAssignment := by
  unfold Obligations.StepKeepsAssignment
  exact fun s t _ ha h => (step_steered h).assigned ha

end Sys2Proof.Machine
end

section
namespace Sys2Proof.Machine

/-! ### What closes an event or an order (R186) -/

/-- `t` is `u` with edges offered, and perhaps an answer waiting. -/
structure Offered (u t : State) : Prop where
  blocks : ∀ b, b ≠ .links → u.sameBlock t b
  latched : LatchesKept u t
  advisories : ∀ k, (t.link k).advisories = (u.link k).advisories

namespace Offered
variable {u t : State} (h : Offered u t)
include h

theorem clock : t.clock = u.clock := h.blocks .clock (by decide)
theorem table : t.table = u.table := h.blocks .table (by decide)
theorem tunA : t.tunA = u.tunA := h.blocks .tunA (by decide)
theorem tunB : t.tunB = u.tunB := h.blocks .tunB (by decide)
theorem radio : t.radio = u.radio := h.blocks .radio (by decide)
theorem traffic : t.traffic = u.traffic := h.blocks .traffic (by decide)
theorem shift : t.shift = u.shift := h.blocks .shift (by decide)
theorem stations : t.stations = u.stations := h.blocks .stations (by decide)
theorem power : t.power = u.power := h.blocks .power (by decide)

theorem station (st : StationId) : t.station st = u.station st := by cases st <;> simp only [State.station, h.stations]

end Offered

theorem offered_edges (s u : State) : Offered u (State.offerEdges s u) :=
  ⟨fun b hb => (happens_offerEdges s u).blocks.2 b (by simpa using hb), (undirected_offerEdges s u).latched, fun k => by
    rw [State.offerEdges_link]; rfl⟩

theorem offered_answered (s u : State) (l : Link) (x : Slot) : Offered u ((State.offerEdges s u).setSlot l x) := by
  refine ⟨fun b hb => ?_, (undirected_offerEdges s u).latched.trans (undirected_setSlot _ _ _).latched, (closes_offered s u l x).advisories⟩
  have offers := (happens_offerEdges s u).blocks.2 b (by simpa using hb)
  exact State.sameBlock_trans offers ((onlyChanges_setLink _ l _).2 b (by simpa using hb))

/-- What an event whose operation stays within `bs` leaves. -/
theorem event_spec {bs : List Block} {f : State → State} {s : State} (h : Happens bs s (f s)) :
    ∃ t, event f s = .next t ∧ Happens bs s t ∧ Offered (f s) t :=
  ⟨_, rfl, h.trans ((happens_offerEdges s (f s)).mono (by simp)), offered_edges s (f s)⟩

/-- What an event of the tuners leaves: its operation, with a new assessment behind it. -/
theorem tunerEvent_spec {bs : List Block} {f : State → State} {s : State} (h : Happens bs s (f s)) (hbs : reassessed ⊆ bs) :
    ∃ t, tunerEvent f s = .next t ∧ Happens bs s t ∧ Offered (f s).reassess t :=
  event_spec (f := fun s => (f s).reassess) (h.trans ((happens_reassess _).mono hbs))

/-- An order that passes the Link Block's checks and stays within `bs`. -/
theorem order_offered {α : Type} {l : Link} {f : Frame} {links : List Link} {ops : Option α} {body : α → State → Reply × State}
    {s u : State} {b : α} {r a : Reply} {bs : List Block} (hr : s.holds l r) (ho : ops = some b) (hl : links.contains l = true)
    (hb : body b (s.shiftOut l (clocked f) r) = (a, u)) (hu : Happens bs (s.shiftOut l (clocked f) r) u) :
    ∃ t, order l f links ops body s = .next t ∧ Taken l f r a bs s t ∧ Offered u t := by
  have next := order_next (f := f) (body := body) hr ho hl
  rw [hb] at next
  exact ⟨_, next, taken_of_happens hu, offered_answered _ _ _ _⟩

theorem riseLatched_riseAll (s : State) (c : Nat) (hc : c < 16) : RiseLatched c s (s.riseAll c) := fun k hk => by
  have bit : (conditionBit c true).getLsbD c = true := by simp [conditionBit, BitVec.getLsbD_ofNat, hc, -BitVec.ofNat_pow]
  simp [State.riseAll, LinkState.offer, hk, bit]

/-- What has been told stays told. -/
theorem RiseLatched.kept {c : Nat} {s t u : State} (h : RiseLatched c s t) (k : LatchesKept t u) : RiseLatched c s u :=
  fun l hl => (k l c).1 (h l hl)

theorem RiseLatched.of_undisturbed {c : Nat} {s t u : State} (h : LinksUndisturbed s t) (k : RiseLatched c t u) : RiseLatched c s u :=
  fun l hl => k l ((h l).1 ▸ hl)

/-! ### A new assessment and what it leaves (R85, R97 to R99) -/

@[simp] theorem State.reassess_clock (s : State) : s.reassess.clock = s.clock := (happens_reassess s).blocks.2 .clock (by decide)
@[simp] theorem State.reassess_tunA (s : State) : s.reassess.tunA = s.tunA := (happens_reassess s).blocks.2 .tunA (by decide)
@[simp] theorem State.reassess_power (s : State) : s.reassess.power = s.power := (happens_reassess s).blocks.2 .power (by decide)
@[simp] theorem State.reassess_stations (s : State) : s.reassess.stations = s.stations :=
  (happens_reassess s).blocks.2 .stations (by decide)

theorem latchesKept_enterB (s : State) (st : BState) (f : Option Freq) : LatchesKept s (s.enterB st f) := by
  unfold State.enterB
  refine LatchesKept.trans ?_ (undirected_retuned _ .b).latched
  exact .of_links rfl

theorem latchesKept_startSweep (s : State) (st : BState) : LatchesKept s (s.startSweep st) := by
  unfold State.startSweep
  refine LatchesKept.trans ?_ (latchesKept_enterB _ _ _)
  exact .of_links rfl

theorem latchesKept_assignB (s : State) : LatchesKept s s.assignB := by
  unfold State.assignB
  refine .ite (.refl s) ?_
  split
  · exact .ite (.refl s) (latchesKept_enterB _ _ _)
  · exact .ite (.refl s) (latchesKept_enterB _ _ _)
  · exact .ite (.ite (.refl s) (latchesKept_startSweep _ _)) (.ite (.refl s) (latchesKept_enterB _ _ _))

theorem latchesKept_reassess (s : State) : LatchesKept s s.reassess :=
  (undirected_followEligible s).latched.trans (.trans (t := s.followEligible.followWatch) (.of_links rfl)
    ((latchesKept_assignB _).trans (undirected_followSource _).latched))

theorem State.assignB_of_assigned {s : State} (h : s.assigned) : s.assignB = s := by
  unfold State.assignB
  split
  · rfl
  · rename_i run
    have at_it := h (not_not.1 run)
    split
    · rename_i hh
      rw [hh] at at_it
      exact if_pos at_it
    · rename_i hh hw
      rw [hh, hw] at at_it
      simp only [at_it, decide_true, Bool.and_self, if_true]
    · rename_i hh hw
      rw [hh, hw] at at_it
      cases hs : s.radio.scan <;> simp_all

@[simp] theorem State.followWatch_tunB (s : State) : s.followWatch.tunB = s.tunB := rfl
@[simp] theorem State.followWatch_radio (s : State) : s.followWatch.radio = s.radio := rfl
@[simp] theorem State.followWatch_power (s : State) : s.followWatch.power = s.power := rfl

@[simp] theorem State.followEligible_tunB (s : State) : s.followEligible.tunB = s.tunB :=
  (happens_followEligible s).blocks.2 .tunB (by decide)
@[simp] theorem State.followEligible_radio (s : State) : s.followEligible.radio = s.radio :=
  (happens_followEligible s).blocks.2 .radio (by decide)
@[simp] theorem State.followEligible_power (s : State) : s.followEligible.power = s.power :=
  (happens_followEligible s).blocks.2 .power (by decide)

@[simp] theorem State.followSource_tunB (s : State) : s.followSource.tunB = s.tunB :=
  (happens_followSource s).blocks.2 .tunB (by decide)
@[simp] theorem State.followSource_radio (s : State) : s.followSource.radio = s.radio :=
  (happens_followSource s).blocks.2 .radio (by decide)

/-- R85: an assessment leaves Tuner B alone where the assignment that it makes is the one Tuner B is in. -/
theorem State.reassess_of_assigned {s : State} (h : s.followEligible.followWatch.assigned) :
    s.reassess = s.followEligible.followWatch.followSource := by rw [State.reassess, State.assignB_of_assigned h]

theorem State.reassess_tunB_of_assigned {s : State} (h : s.followEligible.followWatch.assigned) : s.reassess.tunB = s.tunB := by
  rw [State.reassess_of_assigned h]; simp

theorem State.reassess_radio_of_assigned {s : State} (h : s.followEligible.followWatch.assigned) : s.reassess.radio = s.radio := by
  rw [State.reassess_of_assigned h]; simp

/-- R85: a holder's Tuner B needs no other assignment. -/
theorem State.willBeAssigned_of_held {s : State} (hs : s.tunB.state = .held) (hh : s.tunB.holder.isSome = true) :
    s.followEligible.followWatch.assigned := by
  obtain ⟨x, hx⟩ := Option.isSome_iff_exists.1 hh
  intro _
  simp [hs, hx]

/-- Outside RUN there is no assignment. -/
theorem State.willBeAssigned_of_parked {s : State} (h : s.power.state ≠ .run) : s.followEligible.followWatch.assigned :=
  fun k => absurd (by simpa using k) h

theorem State.enterB_holder (s : State) (st : BState) (f : Option Freq) : (s.enterB st f).tunB.holder = s.tunB.holder := by
  unfold State.enterB
  dsimp only
  rw [(happens_retuned _ .b).blocks.2 .tunB (by decide)]
  rfl

theorem State.assignB_holder (s : State) : s.assignB.tunB.holder = s.tunB.holder := by
  unfold State.assignB
  split
  · rfl
  · split
    · split
      · rfl
      · exact s.enterB_holder _ _
    · split
      · rfl
      · exact s.enterB_holder _ _
    · split
      · split
        · rfl
        · exact State.enterB_holder _ _ _
      · split
        · rfl
        · exact s.enterB_holder _ _

@[simp] theorem State.reassess_holder (s : State) : s.reassess.tunB.holder = s.tunB.holder := by
  rw [State.reassess, State.followSource_tunB, State.assignB_holder]
  simp

end Sys2Proof.Machine
end

section
namespace Sys2Proof.Machine

/-! ### The holding of Tuner B (R88, R148, R149) -/

theorem happens_setStation (s : State) (st : StationId) (x : Station) : Happens [.stations] s (s.setStation st x) := by
  cases st <;> exact happens_withStations s _

theorem happens_setGrace (s : State) (st : StationId) (g : Option Time) : Happens [.stations] s (s.setGrace st g) :=
  happens_setStation s st _

theorem happens_setHolder (s : State) (h : Option StationId) : Happens [.tunB] s (s.setHolder h) := happens_withTunB s _

/-- The state in which a station has become holder, its grace timer set (R148). -/
def State.chosen (s : State) (st : StationId) : State :=
  if s.tunB.holder = some st then s else (s.setHolder (some st)).setGrace st (s.graceOf st)

theorem State.lend_eq (s : State) (st : StationId) (f : Freq) : s.lend st f = ((s.chosen st).enterB .held (some f)).reassess := rfl

theorem happens_chosen (s : State) (st : StationId) : Happens [.tunB, .stations] s (s.chosen st) :=
  .ite (.refl _ s) (((happens_setHolder s _).mono (by simp)).trans ((happens_setGrace _ _ _).mono (by simp)))

theorem State.setGrace_tunB (s : State) (st : StationId) (g : Option Time) : (s.setGrace st g).tunB = s.tunB :=
  (happens_setGrace s st g).blocks.2 .tunB (by decide)

theorem State.setGrace_station (s : State) (st k : StationId) (g : Option Time) :
    (s.setGrace st g).station k = if k = st then { s.station st with graceAt := g } else s.station k := by simp [State.setGrace]

theorem State.setHolder_station (s : State) (h : Option StationId) (st : StationId) : (s.setHolder h).station st = s.station st := by
  cases st <;> rfl

theorem State.chosen_holder (s : State) (st : StationId) : (s.chosen st).tunB.holder = some st := by
  unfold State.chosen
  split
  · assumption
  · rw [State.setGrace_tunB]; rfl

theorem State.chosen_station (s : State) (st : StationId) : (s.chosen st).station st =
    if s.tunB.holder = some st then s.station st else { s.station st with graceAt := s.graceOf st } := by
  unfold State.chosen
  split
  · rfl
  · rw [State.setGrace_station, if_pos rfl, State.setHolder_station]

theorem State.enterB_tunB (s : State) (st : BState) (f : Freq) : (s.enterB st (some f)).tunB =
    { s.tunB with rx := (s.tunB.rx.hush s.tunB.open).tune f s.clock.now, state := st, settling := st = .watch || st = .held,
                  dwell := false, changed := false } :=
  (happens_retuned _ .b).blocks.2 .tunB (by decide)

theorem station_congr {s t : State} (h : t.stations = s.stations) (st : StationId) : t.station st = s.station st := by
  cases st <;> simp only [State.station, h]

theorem happens_lend (s : State) (st : StationId) (f : Freq) : Happens (.stations :: reassessed) s (s.lend st f) :=
  ((happens_chosen s st).mono (by simp [reassessed])).trans
    (((happens_enterB _ _ _).mono (by simp [reassessed, tableFollowers])).trans ((happens_reassess _).mono (by simp)))

theorem State.lend_tunB (s : State) (st : StationId) (f : Freq) :
    (s.lend st f).tunB = ((s.chosen st).enterB .held (some f)).tunB := by
  rw [State.lend_eq]
  refine State.reassess_tunB_of_assigned (State.willBeAssigned_of_held ?_ ?_)
  · rw [State.enterB_tunB]
  · rw [State.enterB_holder, State.chosen_holder]; rfl

theorem State.lend_station (s : State) (st : StationId) (f : Freq) : (s.lend st f).station st =
    if s.tunB.holder = some st then s.station st else { s.station st with graceAt := s.graceOf st } := by
  rw [← State.chosen_station, State.lend_eq, station_congr (State.reassess_stations _)]
  exact station_congr ((happens_enterB _ _ _).blocks.2 .stations (by decide)) st

/-! The end of a holding. -/

section
variable {s : State} {st : StationId} (holder : s.tunB.holder = some st)
include holder

theorem State.endHolding_handover (h : (s.station (other st)).source = .tunerB) : s.endHolding =
    ((s.setGrace st none).setHolder (some (other st))).setGrace (other st) ((s.setGrace st none).graceOf (other st)) := by
  have apart : other st ≠ st := by cases st <;> decide
  simp [State.endHolding, holder, State.setGrace_station, apart, h]

theorem State.endHolding_return (h : (s.station (other st)).source ≠ .tunerB) :
    s.endHolding = ((s.setGrace st none).setHolder none).reassess := by
  have apart : other st ≠ st := by cases st <;> decide
  simp [State.endHolding, holder, State.setGrace_station, apart, h]

end

theorem happens_endHolding (s : State) : Happens (.stations :: reassessed) s s.endHolding := by
  cases holder : s.tunB.holder with
  | none => simp only [State.endHolding, holder]; exact .refl _ s
  | some st =>
    have stopped : Happens (.stations :: reassessed) s (s.setGrace st none) := (happens_setGrace s _ _).mono (by simp)
    have held : ∀ h, Happens (.stations :: reassessed) s ((s.setGrace st none).setHolder h) := fun h =>
      stopped.trans ((happens_setHolder _ h).mono (by simp [reassessed]))
    by_cases h : (s.station (other st)).source = .tunerB
    · rw [State.endHolding_handover holder h]
      exact (held _).trans ((happens_setGrace _ _ _).mono (by simp))
    · rw [State.endHolding_return holder h]
      exact (held _).trans ((happens_reassess _).mono (by simp))

theorem happens_graceExpired (s : State) (st : StationId) :
    Happens (.clock :: .ports :: .stations :: reassessed) s (s.graceExpired st) := by
  unfold State.graceExpired
  split
  · exact .ite (((happens_reach s _).mono (by simp)).trans ((happens_endHolding _).mono (by simp))) (.refl _ s)
  · exact .refl _ s

/-- R88: STATION_TUNE where the Tuner Controller may lend. -/
theorem stationTuneBody_grants {l : Link} {a b : Byte} {w : Word} {st : StationId} {band : Band} {s : State}
    (hl : lockedOut l s = false) (ha : stationOf a.toNat = some st) (hb : bandOf b.toNat = some band)
    (hw : Freq.onRaster ⟨band, w.toNat⟩ = true) (hs : (s.station st).source = .tunerB) (hm : s.mayLend st = .done) :
    stationTuneBody l ([a, b] ++ quad w) s = answer .done (s.lend st ⟨band, w.toNat⟩) := by
  have station : stationOf (u8 ([a, b] ++ quad w) 0) = some st := ha
  have operand : u32 ([a, b] ++ quad w) 2 = w.toNat := quad_value w
  have freq : freqAt ([a, b] ++ quad w) 1 = some ⟨band, w.toNat⟩ := by
    have band' : bandOf (u8 ([a, b] ++ quad w) 1) = some band := hb
    simp only [freqAt, band', operand, Option.bind_eq_bind, Option.bind_some, hw, if_true]
  simp only [stationTuneBody, station, freq, hl, hs, hm, Bool.false_eq_true, ne_eq, not_true_eq_false, if_true, if_false]

theorem State.mayLend_done {s : State} {st : StationId}
    (h : s.tunB.state = .idle ∨ s.tunB.state = .scan ∨ (s.tunB.state = .watch ∧ s.radio.rearFirst = true)
      ∨ (s.tunB.state = .held ∧ s.tunB.holder = some st)) : s.mayLend st = .done := by
  rcases h with h | h | ⟨h, k⟩ | ⟨h, k⟩ <;> simp [State.mayLend, *]

/-- R88, R148. -/
theorem stationTune_grants (f : Frame) (s : State) (r : Reply) (l : Link) (a b : Byte) (w : Word) (st : StationId) (band : Band)
    (hr : s.holds l r) (hl : l = .cockpit ∨ (l = .rear ∧ s.stations.lock = false)) (hf : f.carries ([a, b] ++ quad w))
    (ha : stationOf a.toNat = some st) (hb : bandOf b.toNat = some band) (hw : Freq.onRaster ⟨band, w.toNat⟩ = true)
    (hs : (s.station st).source = .tunerB)
    (hm : s.tunB.state = .idle ∨ s.tunB.state = .scan ∨ (s.tunB.state = .watch ∧ s.radio.rearFirst = true)
      ∨ (s.tunB.state = .held ∧ s.tunB.holder = some st)) :
    ∃ t, exec (.stationTune l f) s = .next t ∧ Taken l f r (.plain .done) (.stations :: reassessed) s t
      ∧ t.tunB.holder = some st ∧ t.tunB.state = .held ∧ t.tunB.settling = true ∧ t.tunB.rx.freq = ⟨band, w.toNat⟩
      ∧ t.tunB.rx.decoder = .empty ∧ t.tunB.trim = 360
      ∧ (s.tunB.holder ≠ some st →
          t.station st = { s.station st with graceAt := if (s.station st).inserted then none else some s.clock.now })
      ∧ (s.tunB.holder = some st → t.station st = s.station st) := by
  set u := s.shiftOut l (clocked f) r with hu
  have links : byCockpitRear.contains l = true := by rcases hl with rfl | ⟨rfl, -⟩ <;> rfl
  have unlocked : lockedOut l u = false := by
    rcases hl with rfl | ⟨rfl, hl⟩
    · rfl
    · rw [lockedOut, show u.stations.lock = false from hl]; rfl
  have granted := stationTuneBody_grants (l := l) (s := u) unlocked ha hb hw hs (State.mayLend_done hm)
  obtain ⟨t, next, taken, closes⟩ := order_offered hr (operands_carries hf) links granted (happens_lend u st ⟨band, w.toNat⟩)
  have tunB := closes.tunB.trans (u.lend_tunB st ⟨band, w.toNat⟩)
  have station := (closes.station st).trans (u.lend_station st ⟨band, w.toNat⟩)
  rw [State.enterB_tunB] at tunB
  refine ⟨t, next, taken, ?_, ?_, ?_, ?_, ?_, ?_, fun hne => ?_, fun he => ?_⟩
  · rw [tunB]; exact u.chosen_holder st
  · rw [tunB]
  · rw [tunB]; rfl
  · rw [tunB]; rfl
  · rw [tunB]; rfl
  · rw [tunB]; rfl
  · exact station.trans (if_neg hne)
  · exact station.trans (if_pos he)

/-- R149. -/
theorem graceExpiry_endsHolding (s : State) (st : StationId) (t0 : Time) (hg : (s.station st).graceAt = some t0)
    (hh : s.tunB.holder = some st) :
    ∃ t, exec (.graceExpiry st) s = .next t ∧ Happens (.clock :: .ports :: .stations :: reassessed) s t
      ∧ t.clock.now = max s.clock.now (t0 + seconds 30) ∧ t.station st = { s.station st with graceAt := none }
      ∧ ((s.station (other st)).source = .tunerB → t.tunB = { s.tunB with holder := some (other st) }
          ∧ t.station (other st) = { s.station (other st) with
              graceAt := if (s.station (other st)).inserted then none else some t.clock.now })
      ∧ ((s.station (other st)).source ≠ .tunerB → t.tunB.holder = none ∧ t.station (other st) = s.station (other st)) := by
  obtain ⟨t, next, happens, closes⟩ := event_spec (f := fun s => s.graceExpired st) (happens_graceExpired s st)
  have apart : other st ≠ st := by cases st <;> decide
  set u := s.reach (t0 + seconds 30) with hu
  have reached := happens_reach s (t0 + seconds 30)
  have tunB : u.tunB = s.tunB := reached.blocks.2 .tunB (by decide)
  have station : ∀ k, u.station k = s.station k := station_congr (reached.blocks.2 .stations (by decide))
  have ended : s.graceExpired st = u.endHolding := by simp [State.graceExpired, hg, hh, hu]
  rw [ended] at closes
  have holder : u.tunB.holder = some st := by rw [tunB, hh]
  have now : t.clock.now = max s.clock.now (t0 + seconds 30) := by
    rw [closes.clock, (happens_endHolding u).blocks.2 .clock (by decide), reach_now]
  refine ⟨t, next, happens, now, ?_, fun hs => ⟨?_, ?_⟩, fun hs => ⟨?_, ?_⟩⟩
  · rw [closes.station]
    by_cases hs : (u.station (other st)).source = .tunerB
    · rw [State.endHolding_handover holder hs, State.setGrace_station, if_neg apart.symm, State.setHolder_station,
        State.setGrace_station, if_pos rfl, station]
    · rw [State.endHolding_return holder hs, station_congr (State.reassess_stations _), State.setHolder_station,
        State.setGrace_station, if_pos rfl, station]
  · rw [closes.tunB, State.endHolding_handover holder ((station _).symm ▸ hs), State.setGrace_tunB]
    show { (u.setGrace st none).tunB with holder := some (other st) } = _
    rw [State.setGrace_tunB, tunB]
  · rw [closes.station, now, ← reach_now s, ← hu, State.endHolding_handover holder ((station _).symm ▸ hs), State.setGrace_station, if_pos rfl,
      State.setHolder_station, State.setGrace_station, if_neg apart, station, State.graceOf, State.setGrace_station, if_neg apart,
      station, (happens_setGrace u st none).blocks.2 .clock (by decide)]
  · rw [closes.tunB, State.endHolding_return holder ((station _).symm ▸ hs), State.reassess_holder]; rfl
  · rw [closes.station, State.endHolding_return holder ((station _).symm ▸ hs), station_congr (State.reassess_stations _),
      State.setHolder_station, State.setGrace_station, if_neg apart, station]

/-- Settles O37: STATION_TUNE lends by `stationTune_grants`, and a holding ends by its grace by `graceExpiry_endsHolding`. -/
theorem tunerBHolding : Obligations.TunerBHolding := ⟨stationTune_grants, graceExpiry_endsHolding⟩

end Sys2Proof.Machine
end

section
namespace Sys2Proof.Machine

/-! ### What a clock brought forward leaves -/

@[simp] theorem State.reach_tunA (s : State) (τ : Time) : (s.reach τ).tunA = s.tunA := (happens_reach s τ).blocks.2 .tunA (by decide)
@[simp] theorem State.reach_tunB (s : State) (τ : Time) : (s.reach τ).tunB = s.tunB := (happens_reach s τ).blocks.2 .tunB (by decide)
@[simp] theorem State.reach_radio (s : State) (τ : Time) : (s.reach τ).radio = s.radio := (happens_reach s τ).blocks.2 .radio (by decide)
@[simp] theorem State.reach_traffic (s : State) (τ : Time) : (s.reach τ).traffic = s.traffic :=
  (happens_reach s τ).blocks.2 .traffic (by decide)
@[simp] theorem State.reach_shift (s : State) (τ : Time) : (s.reach τ).shift = s.shift := (happens_reach s τ).blocks.2 .shift (by decide)
@[simp] theorem State.reach_power (s : State) (τ : Time) : (s.reach τ).power = s.power := (happens_reach s τ).blocks.2 .power (by decide)

theorem happens_reach_withTunA (s : State) (τ : Time) (x : TunerA) :
    Happens (.clock :: .ports :: .tunA :: reassessed) s ((s.reach τ).withTunA x) :=
  ((happens_reach s τ).mono (by simp)).trans ((happens_withTunA _ x).mono (by simp))

theorem happens_reach_withTunB (s : State) (τ : Time) (x : TunerB) :
    Happens (.clock :: .ports :: reassessed) s ((s.reach τ).withTunB x) :=
  ((happens_reach s τ).mono (by simp)).trans ((happens_withTunB _ x).mono (by simp [reassessed]))

theorem reassessed_sub_tunB : reassessed ⊆ .clock :: .ports :: reassessed := by decide

theorem reassessed_sub_tunA : reassessed ⊆ .clock :: .ports :: .tunA :: reassessed := by decide

theorem Offered.tunA_of_reassess {u t : State} (h : Offered u.reassess t) : t.tunA = u.tunA := h.tunA.trans u.reassess_tunA
theorem Offered.clock_of_reassess {u t : State} (h : Offered u.reassess t) : t.clock = u.clock := h.clock.trans u.reassess_clock
theorem Offered.latched_of_reassess {u t : State} (h : Offered u.reassess t) : LatchesKept u t :=
  (latchesKept_reassess u).trans h.latched

/-! ### Measurements of a receiver (R68 to R71) -/

/-- R69: the first measurement after a tune sets Qs. -/
theorem Receiver.measure_qs_of_aside {r : Receiver} (h : r.aside = true) (m : Meas) (now : Time) :
    (r.measure m now).qs = quality r.freq.band m := by simp [Receiver.measure, h]

theorem Receiver.release_qs_of_aside {r : Receiver} (h : r.aside = true) (m : Meas) (now : Time) :
    (r.release m now).qs = quality r.freq.band m := r.measure_qs_of_aside h m now

/-! ### The end of a settle (R74, R85, R92) -/

/-- Tuner A at the end of a settle of a tune. -/
def TunerA.settledOn (x : TunerA) (m : Meas) (now : Time) : TunerA :=
  { x with rx := x.rx.release m now, state := .tuned, released := true, low := 0, report := none }

theorem State.settledA_of_settling {s : State} (h : s.tunA.state = .settling) (m : Meas) : s.settledA m =
    let u := s.reach (s.tunA.rx.since + milliseconds 12)
    match s.tunA.report with
    | some r => (u.withTunA (s.tunA.settledOn m u.clock.now)).tuneDone r
    | none => u.withTunA (s.tunA.settledOn m u.clock.now) := by
  simp only [State.settledA, h, State.reach_tunA]; rfl

theorem State.settledA_of_verify {s : State} (h : s.tunA.state = .afVerify) (hr : s.tunA.released = false) (m : Meas) :
    s.settledA m =
      let u := s.reach (s.tunA.rx.since + milliseconds 12)
      u.withTunA { s.tunA with rx := s.tunA.rx.release m u.clock.now, released := true } := by
  simp only [State.settledA, h, hr, State.reach_tunA, Bool.false_eq_true, if_false]

theorem State.tuneDone_tunA (s : State) (r : TuneCause × TuneResult) :
    (s.tuneDone r).tunA = { s.tunA with lastTune := some ⟨r.1, r.2, s.tunA.rx.freq⟩ } :=
  (happens_riseAll _ _).blocks.2 .tunA (by decide)

theorem State.tuneDone_clock (s : State) (r : TuneCause × TuneResult) : (s.tuneDone r).clock = s.clock :=
  (happens_riseAll _ _).blocks.2 .clock (by decide)

theorem riseLatched_tuneDone (s : State) (r : TuneCause × TuneResult) : RiseLatched 12 s (s.tuneDone r) :=
  riseLatched_riseAll (s.withTunA { s.tunA with lastTune := some ⟨r.1, r.2, s.tunA.rx.freq⟩ }) 12 (by decide)

/-- R74. -/
theorem settleEnd_tunes (s : State) (m : Meas) (hs : s.tunA.state = .settling) (ha : s.tunA.rx.aside = true) :
    ∃ t, exec (.settleEnd .a m) s = .next t ∧ Happens (.clock :: .ports :: .tunA :: reassessed) s t
      ∧ t.clock.now = max s.clock.now (s.tunA.rx.since + milliseconds 12)
      ∧ t.tunA.state = .tuned ∧ t.tunA.rx.freq = s.tunA.rx.freq ∧ t.tunA.rx.qs = quality s.tunA.rx.freq.band m
      ∧ t.tunA.low = 0 ∧ t.tunA.trim = softTrim t.tunA.rx.qs ∧ t.tunA.rx.sep = separation t.tunA.rx.qs
      ∧ (∀ c x, s.tunA.report = some (c, x) → t.tunA.lastTune = some ⟨c, x, s.tunA.rx.freq⟩ ∧ RiseLatched 12 s t)
      ∧ (s.tunA.report = none → t.tunA.lastTune = s.tunA.lastTune) := by
  have settled := State.settledA_of_settling hs m
  set u := s.reach (s.tunA.rx.since + milliseconds 12) with hu
  set v := u.withTunA (s.tunA.settledOn m u.clock.now) with hv
  have brought : Happens (.clock :: .ports :: .tunA :: reassessed) s v := happens_reach_withTunA s _ _
  have qs := Receiver.release_qs_of_aside ha m u.clock.now
  cases hr : s.tunA.report with
  | none =>
    rw [hr] at settled
    have happens : Happens (.clock :: .ports :: .tunA :: reassessed) s (s.settledA m) := settled ▸ brought
    obtain ⟨t, next, happens, offered⟩ := tunerEvent_spec (f := fun s => s.settledA m) happens reassessed_sub_tunA
    rw [show s.settledA m = v from settled] at offered
    refine ⟨t, next, happens, ?_⟩
    rw [offered.clock_of_reassess, offered.tunA_of_reassess]
    exact ⟨reach_now s _, rfl, rfl, qs, rfl, rfl, rfl, by simp, fun _ => rfl⟩
  | some r =>
    rw [hr] at settled
    have happens : Happens (.clock :: .ports :: .tunA :: reassessed) s (s.settledA m) :=
      settled ▸ brought.trans ((happens_tuneDone v r).mono (by simp))
    obtain ⟨t, next, happens, offered⟩ := tunerEvent_spec (f := fun s => s.settledA m) happens reassessed_sub_tunA
    rw [show s.settledA m = v.tuneDone r from settled] at offered
    have told : RiseLatched 12 s t :=
      ((riseLatched_tuneDone v r).of_undisturbed brought.links).kept offered.latched_of_reassess
    refine ⟨t, next, happens, ?_⟩
    rw [offered.clock_of_reassess, State.tuneDone_clock, offered.tunA_of_reassess, State.tuneDone_tunA]
    exact ⟨reach_now s _, rfl, rfl, qs, rfl, rfl, rfl, fun c x h => by cases h; exact ⟨rfl, told⟩, by simp⟩

/-- R92: the first measurement of AF_VERIFY. -/
theorem settleEnd_verifies (s : State) (m : Meas) (hs : s.tunA.state = .afVerify) (hr : s.tunA.released = false)
    (ha : s.tunA.rx.aside = true) :
    ∃ t, exec (.settleEnd .a m) s = .next t ∧ Happens (.clock :: .ports :: .tunA :: reassessed) s t
      ∧ t.clock.now = max s.clock.now (s.tunA.rx.since + milliseconds 12)
      ∧ t.tunA.state = .afVerify ∧ t.tunA.released = true ∧ t.tunA.rx.freq = s.tunA.rx.freq
      ∧ t.tunA.rx.qs = quality s.tunA.rx.freq.band m ∧ t.tunA.trim = softTrim t.tunA.rx.qs
      ∧ t.tunA.home = s.tunA.home ∧ t.tunA.saved = s.tunA.saved ∧ t.tunA.lastTune = s.tunA.lastTune := by
  have settled := State.settledA_of_verify hs hr m
  have happens : Happens (.clock :: .ports :: .tunA :: reassessed) s (s.settledA m) := settled ▸ happens_reach_withTunA s _ _
  obtain ⟨t, next, happens, offered⟩ := tunerEvent_spec (f := fun s => s.settledA m) happens reassessed_sub_tunA
  rw [settled] at offered
  refine ⟨t, next, happens, ?_⟩
  rw [offered.clock_of_reassess, offered.tunA_of_reassess]
  refine ⟨reach_now s _, hs, rfl, rfl, Receiver.release_qs_of_aside ha m _, ?_, rfl, rfl, rfl⟩
  simp [TunerA.trim, TunerA.open, hs]

/-- R98: an assessment that keeps the watch request leaves Tuner B in WATCH on it. -/
theorem State.willBeAssigned_of_watch {s : State} {f : Freq} {e : Entry} (hs : s.tunB.state = .watch) (hh : s.tunB.holder = none)
    (hon : s.traffic.on = true) (hel : s.traffic.eligible = false) (hsv : s.tunA.serving = false) (hw : s.traffic.watch = some f)
    (hf : s.tunB.rx.freq = f) (he : findEntry s.radio.stations f = some e) (tp : e.tp = some true) :
    s.followEligible.followWatch.assigned := by
  have stands : s.followEligible = s := by simp [State.followEligible, hsv, hel]
  have kept : s.followWatch.traffic.watch = some f := by simp [State.followWatch, hon, hel, hw, watchStands, he, tp]
  intro _
  simp [stands, kept, hh, hs, hf]

/-- R85. -/
theorem settleEnd_settlesB (s : State) (m : Meas) (hs : s.tunB.settling = true) (ha : s.tunB.rx.aside = true)
    (h : (s.tunB.state = .held ∧ s.tunB.holder.isSome = true)
      ∨ (s.tunB.state = .watch ∧ s.tunB.holder = none ∧ s.traffic.on = true ∧ s.traffic.eligible = false
          ∧ s.tunA.serving = false ∧ s.traffic.watch = some s.tunB.rx.freq
          ∧ ∃ e, s.radio.stations.find? (fun e => e.freq = s.tunB.rx.freq) = some e ∧ e.tp = some true)) :
    ∃ t, exec (.settleEnd .b m) s = .next t ∧ Happens (.clock :: .ports :: reassessed) s t
      ∧ t.clock.now = max s.clock.now (s.tunB.rx.since + milliseconds 12)
      ∧ t.tunB.state = s.tunB.state ∧ t.tunB.settling = false ∧ t.tunB.rx.freq = s.tunB.rx.freq
      ∧ t.tunB.rx.qs = quality s.tunB.rx.freq.band m ∧ t.tunB.trim = softTrim t.tunB.rx.qs := by
  have watching : s.tunB.state = .watch ∨ s.tunB.state = .held := h.symm.imp And.left And.left
  set u := s.reach (s.tunB.rx.since + milliseconds 12) with hu
  set v := u.withTunB { s.tunB with rx := s.tunB.rx.release m u.clock.now, settling := false } with hv
  have settled : s.settledB m = v := by simp only [State.settledB, watching, hs, and_self, if_true, State.reach_tunB, hv, hu]
  have happens : Happens (.clock :: .ports :: reassessed) s (s.settledB m) := settled ▸ happens_reach_withTunB s _ _
  obtain ⟨t, next, happens, offered⟩ := tunerEvent_spec (f := fun s => s.settledB m) happens reassessed_sub_tunB
  rw [settled] at offered
  have assigned : v.followEligible.followWatch.assigned := by
    rcases h with ⟨hst, hh⟩ | ⟨hst, hh, hon, hel, hsv, hw, e, he, tp⟩
    · exact State.willBeAssigned_of_held hst hh
    · exact State.willBeAssigned_of_watch (f := s.tunB.rx.freq) (e := e) hst hh (by simpa [hv, hu] using hon)
        (by simpa [hv, hu] using hel) (by simpa [hv, hu] using hsv) (by simpa [hv, hu] using hw) rfl
        (by simpa [hv, hu, findEntry] using he) tp
  refine ⟨t, next, happens, ?_⟩
  rw [offered.clock_of_reassess, offered.tunB, State.reassess_tunB_of_assigned assigned]
  refine ⟨reach_now s _, rfl, rfl, rfl, Receiver.release_qs_of_aside ha m _, ?_⟩
  rcases watching with hst | hst <;> simp [hv, TunerB.trim, TunerB.open, hst]

/-- Settles O27: the first measurement sets Qs and releases the output; Tuner A's assignment is nobody's, and Tuner B's stands, so
the assessment that follows leaves both tuners alone. -/
theorem settleEnds : Obligations.SettleEnds := fun s m =>
  ⟨settleEnd_tunes s m, settleEnd_verifies s m, settleEnd_settlesB s m⟩

end Sys2Proof.Machine
end

section
namespace Sys2Proof.Machine

/-! ### The check and the verification of an alternate (R91, R92) -/

/-- Tuner A with the home frequency and the data of the pre-fade's end saved. -/
def TunerA.saving (x : TunerA) : TunerA := { x with home := some x.rx.freq, saved := some x.rx.decoder }

section
variable {s : State} (checking : s.tunA.state = .afCheck)
include checking

theorem State.prefadeEnd_of_check (hp : s.tunA.phase = .prefadeCheck) : s.prefadeEnd =
    let u := s.reach (s.tunA.rx.since + milliseconds 17)
    u.withTunA { s.tunA.saving with phase := .gap, rx := { s.tunA.rx with decoder := .empty, since := u.clock.now } } := by
  simp [State.prefadeEnd, TunerA.prefading, checking, hp, TunerA.saving]

theorem State.prefadeEnd_of_verify (hp : s.tunA.phase = .prefadeVerify) {k : Nat} (hk : s.tunA.candidate = some k) : s.prefadeEnd =
    let u := s.reach (s.tunA.rx.since + milliseconds 17)
    u.withTunA { s.tunA.saving with state := .afVerify, released := false, verifyAt := u.clock.now,
                                    rx := s.tunA.rx.tune ⟨.fm, k⟩ u.clock.now } := by
  simp [State.prefadeEnd, TunerA.prefading, checking, hp, hk, TunerA.saving]

end

/-- The reading of a check measurement, which leaves Qs and data alone. -/
def Receiver.read (r : Receiver) (m : Meas) : Receiver := { r with last := ⟨m.level, m.multipath, m.adjacent, quality .fm m⟩ }

/-- A receiver that a check measurement has released on its candidate. -/
def Receiver.releasedOn (r : Receiver) (m : Meas) (k : Nat) (now : Time) : Receiver :=
  { (r.read m).marked with freq := ⟨.fm, k⟩, qs := quality .fm m, aside := false, sep := separation (quality .fm m),
                           measuredAt := now }

/-- Tuner A on a candidate that its check has found good enough. -/
def TunerA.verifying (x : TunerA) (m : Meas) (k : Nat) (now : Time) : TunerA :=
  { x with cursor := some k, state := .afVerify, released := true, verifyAt := now, rx := x.rx.releasedOn m k now }

section
variable {s : State} {k : Nat} (checking : s.tunA.state = .afCheck) (hp : s.tunA.phase = .gap) (hk : s.tunA.candidate = some k)
include checking hp hk

theorem State.checkMeasured_of_good {m : Meas} (h : s.tunA.rx.qs + 10 ≤ quality .fm m) : s.checkMeasured m =
    let u := s.reach (s.tunA.rx.since + milliseconds 5)
    (u.withTunA (s.tunA.verifying m k u.clock.now)).judgeIdentity := by
  simp [State.checkMeasured, checking, hp, hk, h, TunerA.verifying, Receiver.releasedOn, Receiver.read]

theorem State.checkMeasured_of_poor {m : Meas} (h : quality .fm m < s.tunA.rx.qs + 10) : s.checkMeasured m =
    (s.reach (s.tunA.rx.since + milliseconds 5)).withTunA
      { s.tunA with cursor := some k, phase := .failed, rx := s.tunA.rx.read m } := by
  simp [State.checkMeasured, checking, hp, hk, Nat.not_le.2 h, Receiver.read]

end

theorem State.judgeIdentity_of_none {s : State} (h : s.tunA.rx.decoder.data.identity = none) : s.judgeIdentity = s := by
  unfold State.judgeIdentity
  split
  · rename_i hi _
    exact absurd (h.symm.trans hi) (by simp)
  · rfl

/-- R91: a pre-fade toward a check ends. -/
theorem afPrefadeEnd_checks {s : State} (checking : s.tunA.state = .afCheck) (hp : s.tunA.phase = .prefadeCheck) :
    ∃ t, exec .afPrefadeEnd s = .next t ∧ Happens (.clock :: .ports :: .tunA :: reassessed) s t
      ∧ t.tunA.state = .afCheck ∧ t.tunA.phase = .gap ∧ t.tunA.home = some s.tunA.rx.freq
      ∧ t.tunA.saved = some s.tunA.rx.decoder ∧ t.tunA.rx.decoder = .empty ∧ t.tunA.rx.qs = s.tunA.rx.qs := by
  have faded := State.prefadeEnd_of_check checking hp
  obtain ⟨t, next, happens, offered⟩ :=
    tunerEvent_spec (f := State.prefadeEnd) (faded ▸ happens_reach_withTunA s _ _) reassessed_sub_tunA
  rw [faded] at offered
  refine ⟨t, next, happens, ?_⟩
  rw [offered.tunA_of_reassess]
  exact ⟨checking, rfl, rfl, rfl, rfl, rfl⟩

/-- R92: a pre-fade toward AF_VERIFY ends. -/
theorem afPrefadeEnd_verifies {s : State} {k : Nat} (checking : s.tunA.state = .afCheck) (hk : s.tunA.candidate = some k)
    (hp : s.tunA.phase = .prefadeVerify) :
    ∃ t, exec .afPrefadeEnd s = .next t ∧ Happens (.clock :: .ports :: .tunA :: reassessed) s t
      ∧ t.tunA.state = .afVerify ∧ t.tunA.released = false ∧ t.tunA.home = some s.tunA.rx.freq
      ∧ t.tunA.saved = some s.tunA.rx.decoder ∧ t.tunA.rx.freq = ⟨.fm, k⟩ ∧ t.tunA.rx.decoder = .empty := by
  have faded := State.prefadeEnd_of_verify checking hp hk
  obtain ⟨t, next, happens, offered⟩ :=
    tunerEvent_spec (f := State.prefadeEnd) (faded ▸ happens_reach_withTunA s _ _) reassessed_sub_tunA
  rw [faded] at offered
  refine ⟨t, next, happens, ?_⟩
  rw [offered.tunA_of_reassess]
  exact ⟨rfl, rfl, rfl, rfl, rfl, rfl⟩

/-- R91: the check measurement of a candidate whose identity is not known. -/
theorem afCheckMeasurement_judges {s : State} {k : Nat} (m : Meas) (checking : s.tunA.state = .afCheck)
    (hk : s.tunA.candidate = some k) (hp : s.tunA.phase = .gap) (hi : s.tunA.rx.decoder.data.identity = none) :
    ∃ t, exec (.afCheckMeasurement m) s = .next t
      ∧ Happens (.clock :: .ports :: .tunA :: reassessed) s t ∧ t.tunA.cursor = some k
      ∧ (s.tunA.rx.qs + 10 ≤ quality .fm m → t.tunA.state = .afVerify ∧ t.tunA.released = true
          ∧ t.tunA.rx.freq = ⟨.fm, k⟩ ∧ t.tunA.rx.qs = quality .fm m)
      ∧ (quality .fm m < s.tunA.rx.qs + 10 → t.tunA.state = .afCheck ∧ t.tunA.phase = .failed
          ∧ t.tunA.rx.freq = s.tunA.rx.freq ∧ t.tunA.rx.qs = s.tunA.rx.qs) := by
  rcases Nat.lt_or_ge (quality .fm m) (s.tunA.rx.qs + 10) with poor | good
  · have measured := State.checkMeasured_of_poor checking hp hk poor
    obtain ⟨t, next, happens, offered⟩ :=
      tunerEvent_spec (f := fun s => s.checkMeasured m) (measured ▸ happens_reach_withTunA s _ _) reassessed_sub_tunA
    rw [measured] at offered
    refine ⟨t, next, happens, ?_⟩
    rw [offered.tunA_of_reassess]
    exact ⟨rfl, fun good => absurd good (Nat.not_le.2 poor), fun _ => ⟨checking, rfl, rfl, rfl⟩⟩
  · have measured := State.checkMeasured_of_good checking hp hk good
    dsimp only at measured
    rw [State.judgeIdentity_of_none (by exact hi)] at measured
    obtain ⟨t, next, happens, offered⟩ :=
      tunerEvent_spec (f := fun s => s.checkMeasured m) (measured ▸ happens_reach_withTunA s _ _) reassessed_sub_tunA
    rw [measured] at offered
    refine ⟨t, next, happens, ?_⟩
    rw [offered.tunA_of_reassess]
    exact ⟨rfl, fun _ => ⟨rfl, rfl, rfl, rfl⟩, fun poor => absurd good (Nat.not_le.2 poor)⟩

/-- Settles O28: each event is its operation with a new assessment behind it, which leaves Tuner A alone; a candidate whose identity is
not known is not judged at the check measurement. -/
theorem alternateIsChecked : Obligations.AlternateIsChecked := fun _ m _ checking hk =>
  ⟨afPrefadeEnd_checks checking, afPrefadeEnd_verifies checking hk, afCheckMeasurement_judges m checking hk⟩

end Sys2Proof.Machine
end

section
namespace Sys2Proof.Machine

/-! ### The Station List in a new assessment (R81, R85) -/

/-- The list with its seen flags cleared, as the start of a sweep leaves it. -/
def Radio.unseen (r : Radio) : Radio := r.withStations (r.stations.map Entry.plain)

theorem State.enterB_radio (s : State) (st : BState) (f : Option Freq) : (s.enterB st f).radio = s.radio :=
  (happens_enterB s st f).blocks.2 .radio (by decide)

theorem State.startSweep_radio (s : State) (st : BState) : (s.startSweep st).radio = s.radio.unseen := State.enterB_radio _ _ _

theorem State.assignB_radio (s : State) : s.assignB.radio = s.radio ∨ s.assignB.radio = s.radio.unseen := by
  unfold State.assignB
  split
  · exact .inl rfl
  · split
    · left; split
      · rfl
      · exact s.enterB_radio _ _
    · left; split
      · rfl
      · exact s.enterB_radio _ _
    · split
      · split
        · exact .inl rfl
        · exact .inr (s.startSweep_radio _)
      · left; split
        · rfl
        · exact s.enterB_radio _ _

/-- An assessment changes the Station List in its seen flags alone. -/
theorem State.reassess_radio (s : State) : s.reassess.radio = s.radio ∨ s.reassess.radio = s.radio.unseen := by
  have h := s.followEligible.followWatch.assignB_radio
  rwa [State.followWatch_radio, State.followEligible_radio, ← State.followSource_radio] at h

theorem State.reassess_version (s : State) : s.reassess.radio.version = s.radio.version := by
  rcases s.reassess_radio with h | h <;> rw [h]; rfl

theorem State.reassess_plain (s : State) : s.reassess.radio.stations.map Entry.plain = s.radio.stations.map Entry.plain := by
  rcases s.reassess_radio with h | h <;> rw [h]
  simp [Radio.unseen, Radio.withStations, Entry.plain, Function.comp_def]

/-! ### An entry due to be inserted (R80) -/

theorem mem_dropEntry {x : Entry} {xs : List Entry} {f : Freq} : x ∈ dropEntry xs f ↔ x ∈ xs ∧ x.freq ≠ f := by simp [dropEntry]

theorem inserted_placeEntry (shields : Entry → Bool) (e : Entry) (xs : List Entry) :
    Inserted shields e xs ((placeEntry shields xs e).getD xs) := by
  unfold placeEntry
  refine ⟨fun room x => ?_, fun full dropped => ?_, fun full ⟨x, hx, open_, lower⟩ => ?_⟩
  · rw [if_pos room, Option.getD_some, mem_insertEntry]
  · rw [if_neg (Nat.not_lt.2 full)]
    split
    · rename_i v hv
      obtain ⟨mem, unshielded, -⟩ := victim_spec hv
      have higher : e.qs ≤ v.qs := (dropped v mem).resolve_left (by simp [unshielded])
      rw [if_neg (Nat.not_lt.2 higher), Option.getD_none]
    · rfl
  · rw [if_neg (Nat.not_lt.2 full)]
    cases hv : victim shields xs with
    | none => exact absurd (victim_eq_none hv x hx) (by simp [open_])
    | some v =>
      obtain ⟨mem, unshielded, least⟩ := victim_spec hv
      have below : v.qs < e.qs := (least x hx open_).trans_lt lower
      refine ⟨v, mem, unshielded, least, fun y => ?_⟩
      simp only [below, if_true, Option.getD_some, mem_insertEntry, mem_dropEntry]

theorem mem_of_placeEntry {shields : Entry → Bool} {xs ys : List Entry} {e : Entry} (h : placeEntry shields xs e = some ys) : e ∈ ys := by
  unfold placeEntry at h
  split at h
  · cases h
    exact mem_insertEntry.2 (.inr rfl)
  · split at h
    · split at h
      · cases h
        exact mem_insertEntry.2 (.inr rfl)
      · exact absurd h (by simp)
    · exact absurd h (by simp)

/-- An entry of a new frequency that has been inserted makes the list another one. -/
theorem placeEntry_ne {shields : Entry → Bool} {xs ys : List Entry} {e : Entry} (hn : ∀ x ∈ xs, x.freq ≠ e.freq)
    (h : placeEntry shields xs e = some ys) : ys ≠ xs := fun same => hn e (same ▸ mem_of_placeEntry h) rfl

theorem Inserted.congr {shields shields' : Entry → Bool} {e : Entry} {xs ys : List Entry} (h : Inserted shields e xs ys)
    (hs : ∀ x ∈ xs, shields x = shields' x) : Inserted shields' e xs ys := by
  obtain ⟨room, dropped, replaced⟩ := h
  refine ⟨room, fun full k => dropped full fun x hx => hs x hx ▸ k x hx, fun full ⟨x, hx, open_, lower⟩ => ?_⟩
  obtain ⟨v, mem, unshielded, least, rest⟩ := replaced full ⟨x, hx, hs x hx ▸ open_, lower⟩
  exact ⟨v, mem, hs v mem ▸ unshielded, fun y hy k => least y hy (hs y hy ▸ k), rest⟩

/-! ### A candidate rejected (R92) -/

/-- The entry of a rejected candidate that the list has none for. -/
def rejectedEntry (f : Freq) (q : Nat) : Entry := { Decoded.empty.entry f q with rejected := some 60 }

/-- The list and version with a candidate rejected. -/
def Radio.rejecting (r : Radio) (shields : Entry → Bool) (f : Freq) (q : Nat) : Radio :=
  if (findEntry r.stations f).isSome then r.withStations (changeEntry r.stations f fun e => { e with rejected := some 60 })
  else
    match placeEntry shields r.stations (rejectedEntry f q) with
    | some xs => r.withNewVersion xs
    | none => r

theorem State.rejectCandidate_eq (s : State) :
    s.rejectCandidate = s.withRadio (s.radio.rejecting s.tunA.shields s.tunA.rx.freq s.tunA.rx.qs) := by
  unfold State.rejectCandidate Radio.rejecting
  dsimp only
  split
  · rfl
  · unfold rejectedEntry
    dsimp only
    generalize placeEntry _ _ _ = placed
    cases placed <;> rfl

theorem candidateRejected_rejecting {shields shields' : Entry → Bool} {f : Freq} {q : Nat} {r r' : Radio}
    (hs : (∀ e ∈ r.stations, e.freq ≠ f) → ∀ e ∈ r.stations, shields e = shields' e)
    (hv : r'.version = (r.rejecting shields f q).version)
    (hp : r'.stations.map Entry.plain = (r.rejecting shields f q).stations.map Entry.plain) :
    CandidateRejected shields' f q r r' := by
  refine ⟨fun ⟨e, he, hf⟩ => ?_, fun hn => ⟨(placeEntry shields r.stations (rejectedEntry f q)).getD r.stations, ?_⟩⟩
  · have found : (findEntry r.stations f).isSome = true := by
      rw [Option.isSome_iff_ne_none, Ne, findEntry_eq_none]
      exact fun hn => hn e he hf
    rw [Radio.rejecting, if_pos found] at hv hp
    refine ⟨hv, hp.trans ?_⟩
    simp only [Radio.withStations, changeEntry, List.map_map]
    refine List.map_congr_left fun x _ => ?_
    dsimp only [Function.comp]
    split <;> rfl
  · have missing : ¬(findEntry r.stations f).isSome = true := by simp [findEntry_eq_none.2 hn]
    rw [Radio.rejecting, if_neg missing] at hv hp
    refine ⟨(inserted_placeEntry shields (rejectedEntry f q) r.stations).congr (hs hn), ?_⟩
    cases placed : placeEntry shields r.stations (rejectedEntry f q) with
    | none =>
      rw [placed] at hv hp
      exact ⟨hp, hv.trans (if_pos rfl).symm⟩
    | some ys =>
      rw [placed] at hv hp
      exact ⟨hp, hv.trans (if_neg (placeEntry_ne hn placed)).symm⟩

end Sys2Proof.Machine
end

section
namespace Sys2Proof.Machine

/-! ### The end of a check's gap and of a verification (R91, R92) -/

theorem happens_rejectCandidate (s : State) : Happens [.radio] s s.rejectCandidate := by
  rw [State.rejectCandidate_eq]
  exact happens_withRadio s _

theorem happens_failVerify (s : State) : Happens [.radio, .tunA] s s.failVerify := by
  have tuned := ((happens_rejectCandidate s).mono (cs := [.radio, .tunA]) (by simp)).trans
    ((happens_tuneA s.rejectCandidate (s.tunA.home.getD s.tunA.rx.freq) none).mono (by simp))
  exact tuned.trans ((happens_withTunA _ _).mono (by simp))

theorem happens_passVerify (s : State) (d : Decoder) : Happens [.tunA] s (s.passVerify d) :=
  (happens_withTunA s _).trans (happens_tuneDone _ _)

/-- Tuner A tuned to a frequency. -/
def TunerA.tunedTo (x : TunerA) (f : Freq) (report : Option (TuneCause × TuneResult)) (now : Time) : TunerA :=
  { x with rx := (x.rx.hush x.open).tune f now, state := .settling, released := false, candidate := none, home := none,
           saved := none, seekDir := none, seekStart := none, low := 0, report := report }

theorem State.tuneA_eq (s : State) (f : Freq) (r : Option (TuneCause × TuneResult)) :
    s.tuneA f r = s.withTunA (s.tunA.tunedTo f r s.clock.now) := rfl

theorem TunerA.settlingOn_tunedTo (x : TunerA) (f : Freq) (r : Option (TuneCause × TuneResult)) (now : Time) :
    (x.tunedTo f r now).settlingOn f r now := ⟨rfl, rfl, rfl, rfl, rfl, rfl, rfl, rfl, rfl⟩

/-- R92: an identity that is not the saved one fails the verification. -/
theorem State.judgeIdentity_fails {s : State} {i : Nat} {d : Decoder} (hs : s.tunA.state = .afVerify)
    (hi : s.tunA.rx.decoder.data.identity = some i) (hd : s.tunA.saved = some d) (hne : d.data.identity ≠ some i) :
    s.judgeIdentity = s.failVerify := by
  simp only [State.judgeIdentity, hs, hi, hd, hne, if_false]

/-- R92: the saved identity passes it. -/
theorem State.judgeIdentity_passes {s : State} {i : Nat} {d : Decoder} (hs : s.tunA.state = .afVerify)
    (hi : s.tunA.rx.decoder.data.identity = some i) (hd : s.tunA.saved = some d) (he : d.data.identity = some i) :
    s.judgeIdentity = s.passVerify d := by
  simp only [State.judgeIdentity, hs, hi, hd, he, if_true]

/-- Tuner A after a verification that failed, tuned back with its saved data. -/
def TunerA.turnedBack (x : TunerA) (home : Freq) (d : Decoder) (now : Time) : TunerA :=
  { x.tunedTo home none now with rx := { (x.tunedTo home none now).rx with decoder := d } }

section
variable {v : State} {home : Freq} {d : Decoder} (hh : v.tunA.home = some home) (hd : v.tunA.saved = some d)
include hh hd

theorem State.failVerify_eq : v.failVerify = v.rejectCandidate.withTunA (v.tunA.turnedBack home d v.clock.now) := by
  rw [State.failVerify, State.rejectCandidate_eq, hh, hd]
  rfl

theorem State.failVerify_tunA : v.failVerify.tunA = v.tunA.turnedBack home d v.clock.now := by
  rw [State.failVerify_eq hh hd]
  rfl

theorem State.failVerify_radio : v.failVerify.radio = v.radio.rejecting v.tunA.shields v.tunA.rx.freq v.tunA.rx.qs := by
  rw [State.failVerify_eq hh hd, State.rejectCandidate_eq]
  rfl

/-- A verification that fails, told of an earlier state `s` in which Tuner A had the same last tune and shielded the same entries. -/
theorem verifyFailed_of_failVerify {s t : State} (ht : Offered v.failVerify.reassess t) (hl : v.tunA.lastTune = s.tunA.lastTune)
    (hr : v.radio = s.radio)
    (hs : (∀ e ∈ s.radio.stations, e.freq ≠ v.tunA.rx.freq) → ∀ e ∈ s.radio.stations, v.tunA.shields e = s.tunA.shields e) :
    VerifyFailed v.tunA.rx.freq v.tunA.rx.qs home d s t := by
  have tunA := ht.tunA_of_reassess.trans (State.failVerify_tunA hh hd)
  have clock : t.clock = v.clock := ht.clock_of_reassess.trans ((happens_failVerify v).blocks.2 .clock (by decide))
  have radio := State.failVerify_radio hh hd
  rw [hr] at radio
  unfold VerifyFailed
  rw [tunA, clock]
  refine ⟨v.tunA.settlingOn_tunedTo home none v.clock.now, rfl, hl, candidateRejected_rejecting hs ?_ ?_⟩
  · rw [ht.radio, State.reassess_version, radio]
  · rw [ht.radio, State.reassess_plain, radio]

end

/-- Tuner A after a verification that passed. -/
theorem State.passVerify_tunA (s : State) (d : Decoder) : (s.passVerify d).tunA =
    { s.tunA with rx := { s.tunA.rx with decoder := { s.tunA.rx.decoder with data := s.tunA.rx.decoder.data.over d.data } },
                  state := .tuned, candidate := none, home := none, saved := none, low := 0,
                  lastTune := some ⟨.af, .switched, s.tunA.rx.freq⟩ } :=
  State.tuneDone_tunA _ _

theorem verifyPassed_of_passVerify {s v t : State} {d : Decoder} (ht : Offered (v.passVerify d).reassess t)
    (hl : LinksUndisturbed s v) : VerifyPassed v.tunA.rx.freq s t := by
  have told : RiseLatched 12 v (v.passVerify d) := by
    unfold State.passVerify
    exact .of_undisturbed (happens_withTunA v _).links (riseLatched_tuneDone _ _)
  unfold VerifyPassed
  rw [ht.tunA_of_reassess, State.passVerify_tunA]
  exact ⟨rfl, rfl, rfl, rfl, rfl, rfl, (told.of_undisturbed hl).kept ht.latched_of_reassess⟩

/-- R91: the gap of a failed check ends. -/
theorem afGapEnd_resumes (s : State) (d : Decoder) (hs : s.tunA.state = .afCheck) (hp : s.tunA.phase = .failed)
    (hd : s.tunA.saved = some d) :
    ∃ t, exec .afGapEnd s = .next t ∧ Happens (.clock :: .ports :: .tunA :: reassessed) s t
      ∧ t.clock.now = max s.clock.now (s.tunA.rx.since + milliseconds 7)
      ∧ t.tunA.state = .tuned ∧ t.tunA.rx.freq = s.tunA.rx.freq ∧ t.tunA.rx.qs = s.tunA.rx.qs ∧ t.tunA.rx.decoder = d
      ∧ t.tunA.home = none ∧ t.tunA.saved = none ∧ t.tunA.low = 0 := by
  have ended : s.gapEnded =
      let u := s.reach (s.tunA.rx.since + milliseconds 7)
      u.withTunA { s.tunA with state := .tuned, candidate := none, home := none, saved := none, low := 0,
                               rx := { s.tunA.rx.marked with decoder := d, measuredAt := u.clock.now } } := by
    simp [State.gapEnded, hs, hp, hd]
  obtain ⟨t, next, happens, offered⟩ :=
    tunerEvent_spec (f := State.gapEnded) (ended ▸ happens_reach_withTunA s _ _) reassessed_sub_tunA
  rw [ended] at offered
  refine ⟨t, next, happens, ?_⟩
  rw [offered.clock_of_reassess, offered.tunA_of_reassess]
  exact ⟨reach_now s _, rfl, rfl, rfl, rfl, rfl, rfl, rfl⟩

/-! What a group leaves of the fields that its payload does not carry. -/

theorem Decoder.takeSegment_keeps (d : Decoder) (n : Nat) (c0 c1 : Byte) :
    (d.takeSegment n c0 c1).data = { d.data with name := (d.takeSegment n c0 c1).data.name } := by
  unfold Decoder.takeSegment
  split
  · rfl
  · dsimp only; split <;> rfl

theorem Decoder.takeAlternates_keeps (d : Decoder) (n p f0 f1 : Nat) :
    (d.takeAlternates n p f0 f1).data = { d.data with alternates := (d.takeAlternates n p f0 f1).data.alternates } := by
  unfold Decoder.takeAlternates
  dsimp only
  generalize placeAlternate _ (p + 1) f1 = parts
  split <;> rfl

/-- The decoder with a group's identity and flags taken, before its payload. -/
def Decoder.takeHead (d : Decoder) (g : DataGroup) : Decoder :=
  let e := d.takeIdentity g.identity.toNat
  { e with data := { e.data with tp := some g.tp, ta := some g.ta } }

theorem Decoder.take_eq (d : Decoder) (g : DataGroup) : d.take g =
    match g.payload with
    | .name s c0 c1 => (d.takeHead g).takeSegment s.val c0 c1
    | .alternates count p f0 f1 => (d.takeHead g).takeAlternates count p f0 f1 := by
  unfold Decoder.take
  cases g.payload <;> rfl

theorem Decoder.take_identity (d : Decoder) (g : DataGroup) : (d.take g).data.identity = (d.takeHead g).data.identity := by
  rw [Decoder.take_eq]
  cases g.payload with
  | name n c0 c1 => dsimp only; rw [Decoder.takeSegment_keeps]
  | alternates n p f0 f1 => dsimp only; rw [Decoder.takeAlternates_keeps]

theorem Decoder.take_tp (d : Decoder) (g : DataGroup) : (d.take g).data.tp = some g.tp := by
  rw [Decoder.take_eq]
  cases g.payload with
  | name n c0 c1 => dsimp only; rw [Decoder.takeSegment_keeps]; rfl
  | alternates n p f0 f1 => dsimp only; rw [Decoder.takeAlternates_keeps]; rfl

theorem Decoder.take_ta (d : Decoder) (g : DataGroup) : (d.take g).data.ta = some g.ta := by
  rw [Decoder.take_eq]
  cases g.payload with
  | name n c0 c1 => dsimp only; rw [Decoder.takeSegment_keeps]; rfl
  | alternates n p f0 f1 => dsimp only; rw [Decoder.takeAlternates_keeps]; rfl

theorem Decoder.take_name {g : DataGroup} (h : ∀ n c0 c1, g.payload ≠ .name n c0 c1) (d : Decoder) :
    (d.take g).data.name = (d.takeHead g).data.name := by
  rw [Decoder.take_eq]
  cases hp : g.payload with
  | name n c0 c1 => exact absurd hp (h n c0 c1)
  | alternates n p f0 f1 => dsimp only; rw [Decoder.takeAlternates_keeps]

theorem Decoder.take_alternates {g : DataGroup} (h : ∀ n p f0 f1, g.payload ≠ .alternates n p f0 f1) (d : Decoder) :
    (d.take g).data.alternates = (d.takeHead g).data.alternates := by
  rw [Decoder.take_eq]
  cases hp : g.payload with
  | name n c0 c1 => dsimp only; rw [Decoder.takeSegment_keeps]
  | alternates n p f0 f1 => exact absurd hp (h n p f0 f1)

/-- R72: the second of two consecutive groups makes an absent identity present. -/
theorem Decoder.takeHead_of_absent {d : Decoder} {g : DataGroup} (hi : d.data.identity = none)
    (hl : d.lastIdentity = some g.identity.toNat) : (d.takeHead g).data =
      { d.data with identity := some g.identity.toNat, tp := some g.tp, ta := some g.ta } := by
  simp [Decoder.takeHead, Decoder.takeIdentity, hi, hl]

/-- R92: the group by which a candidate's identity becomes present. -/
theorem dataGroup_verifies (s : State) (g : DataGroup) (d : Decoder) (home : Freq) (hs : s.tunA.state = .afVerify)
    (hr : s.tunA.released = true) (hf : s.tunA.rx.freq.band = .fm) (hh : s.tunA.home = some home) (hd : s.tunA.saved = some d)
    (hi : s.tunA.rx.decoder.data.identity = none) (hl : s.tunA.rx.decoder.lastIdentity = some g.identity.toNat) :
    ∃ t, exec (.dataGroup .a g) s = .next t ∧ Happens (.tunA :: reassessed) s t
      ∧ (d.data.identity = some g.identity.toNat →
          VerifyPassed s.tunA.rx.freq s t ∧ t.tunA.rx.decoder.data.identity = some g.identity.toNat
            ∧ t.tunA.rx.decoder.data.tp = some g.tp ∧ t.tunA.rx.decoder.data.ta = some g.ta
            ∧ ((∀ n c0 c1, g.payload ≠ .name n c0 c1) →
                t.tunA.rx.decoder.data.name = s.tunA.rx.decoder.data.name.or d.data.name)
            ∧ ((∀ n p f0 f1, g.payload ≠ .alternates n p f0 f1) →
                t.tunA.rx.decoder.data.alternates = s.tunA.rx.decoder.data.alternates.or d.data.alternates))
      ∧ (d.data.identity ≠ some g.identity.toNat → VerifyFailed s.tunA.rx.freq s.tunA.rx.qs home d s t) := by
  set v := s.withTunA { s.tunA with rx := s.tunA.rx.takeGroup g s.clock.now } with hv
  have taken : s.groupA g = v.judgeIdentity := by simp [State.groupA, TunerA.decodes, hs, hr, hf, hv]
  have head := Decoder.takeHead_of_absent hi hl
  have identity : v.tunA.rx.decoder.data.identity = some g.identity.toNat := by
    show (s.tunA.rx.decoder.take g).data.identity = _
    rw [Decoder.take_identity, head]
  have brought : Happens (.tunA :: reassessed) s v := (happens_withTunA s _).mono (by simp)
  by_cases same : d.data.identity = some g.identity.toNat
  · have judged := taken.trans (State.judgeIdentity_passes hs identity hd same)
    obtain ⟨t, next, happens, offered⟩ := tunerEvent_spec (f := fun s => s.groupA g)
      (judged ▸ brought.trans ((happens_passVerify v d).mono (by simp))) (List.subset_cons_self _ _)
    rw [judged] at offered
    have passed : VerifyPassed v.tunA.rx.freq s t := verifyPassed_of_passVerify offered brought.links
    refine ⟨t, next, happens, fun _ => ⟨passed, ?_⟩, fun hne => absurd same hne⟩
    have data : t.tunA.rx.decoder.data = (s.tunA.rx.decoder.take g).data.over d.data := by
      rw [offered.tunA_of_reassess, State.passVerify_tunA]; rfl
    rw [data]
    simp only [Decoded.over, Option.orElse_eq_orElse, Option.orElse_eq_or, Decoder.take_identity, Decoder.take_tp, Decoder.take_ta, head]
    refine ⟨rfl, rfl, rfl, fun hn => ?_, fun ha => ?_⟩
    · rw [Decoder.take_name hn, head]
    · rw [Decoder.take_alternates ha, head]
  · have judged := taken.trans (State.judgeIdentity_fails hs identity hd same)
    obtain ⟨t, next, happens, offered⟩ := tunerEvent_spec (f := fun s => s.groupA g)
      (judged ▸ brought.trans ((happens_failVerify v).mono (by simp [reassessed]))) (List.subset_cons_self _ _)
    rw [judged] at offered
    exact ⟨t, next, happens, fun h => absurd h same,
      fun _ => verifyFailed_of_failVerify (v := v) hh hd offered rfl rfl fun _ _ _ => rfl⟩

/-- In a check of `k` the entries of other frequencies are shielded as in the verification that follows. -/
theorem TunerA.shields_verifying {x : TunerA} (hs : x.state = .afCheck) (hh : x.home = some x.rx.freq) (m : Meas) (k : Nat)
    (now : Time) {e : Entry} (he : e.freq ≠ ⟨.fm, k⟩) : (x.verifying m k now).shields e = x.shields e := by
  simp [TunerA.shields, TunerA.ownFreqs, TunerA.verifying, Receiver.releasedOn, hs, hh, he]

/-- R91, R92: a good candidate whose identity is known already. -/
theorem afCheckMeasurement_verifies (s : State) (m : Meas) (k i : Nat) (d : Decoder) (hs : s.tunA.state = .afCheck)
    (hp : s.tunA.phase = .gap) (hk : s.tunA.candidate = some k) (hd : s.tunA.saved = some d) (hh : s.tunA.home = some s.tunA.rx.freq)
    (hi : s.tunA.rx.decoder.data.identity = some i) (hq : s.tunA.rx.qs + 10 ≤ quality .fm m) :
    ∃ t, exec (.afCheckMeasurement m) s = .next t ∧ Happens (.clock :: .ports :: .tunA :: reassessed) s t
      ∧ (d.data.identity = some i → VerifyPassed ⟨.fm, k⟩ s t ∧ t.tunA.rx.qs = quality .fm m)
      ∧ (d.data.identity ≠ some i → VerifyFailed ⟨.fm, k⟩ (quality .fm m) s.tunA.rx.freq d s t) := by
  have good := State.checkMeasured_of_good hs hp hk hq
  set u := s.reach (s.tunA.rx.since + milliseconds 5) with hu
  set v := u.withTunA (s.tunA.verifying m k u.clock.now) with hv
  have brought : Happens (.clock :: .ports :: .tunA :: reassessed) s v := happens_reach_withTunA s _ _
  by_cases same : d.data.identity = some i
  · have judged : s.checkMeasured m = v.passVerify d := good.trans (State.judgeIdentity_passes rfl hi hd same)
    obtain ⟨t, next, happens, offered⟩ := tunerEvent_spec (f := fun s => s.checkMeasured m)
      (judged ▸ brought.trans ((happens_passVerify v d).mono (by simp))) reassessed_sub_tunA
    rw [judged] at offered
    refine ⟨t, next, happens, fun _ => ⟨verifyPassed_of_passVerify offered brought.links, ?_⟩, fun hne => absurd same hne⟩
    rw [offered.tunA_of_reassess, State.passVerify_tunA]
    rfl
  · have judged : s.checkMeasured m = v.failVerify := good.trans (State.judgeIdentity_fails rfl hi hd same)
    obtain ⟨t, next, happens, offered⟩ := tunerEvent_spec (f := fun s => s.checkMeasured m)
      (judged ▸ brought.trans ((happens_failVerify v).mono (by simp [reassessed]))) reassessed_sub_tunA
    rw [judged] at offered
    refine ⟨t, next, happens, fun h => absurd h same, fun _ => ?_⟩
    exact verifyFailed_of_failVerify (v := v) hh hd offered rfl (State.reach_radio s _) fun hn e he =>
      TunerA.shields_verifying hs hh m k u.clock.now (hn e he)

/-- R92: 500 ms without an identity. -/
theorem afVerifyTimeout_fails (s : State) (d : Decoder) (home : Freq) (hs : s.tunA.state = .afVerify)
    (hh : s.tunA.home = some home) (hd : s.tunA.saved = some d) :
    ∃ t, exec .afVerifyTimeout s = .next t ∧ Happens (.clock :: .ports :: .tunA :: reassessed) s t
      ∧ t.clock.now = max s.clock.now (s.tunA.verifyAt + milliseconds 500)
      ∧ VerifyFailed s.tunA.rx.freq s.tunA.rx.qs home d s t := by
  set v := s.reach (s.tunA.verifyAt + milliseconds 500) with hv
  have timedOut : s.verifyTimedOut = v.failVerify := if_pos hs
  have tunA : v.tunA = s.tunA := s.reach_tunA _
  obtain ⟨t, next, happens, offered⟩ := tunerEvent_spec (f := State.verifyTimedOut)
    (timedOut ▸ ((happens_reach s _).mono (by simp)).trans ((happens_failVerify v).mono (by simp [reassessed]))) reassessed_sub_tunA
  rw [timedOut] at offered
  refine ⟨t, next, happens, ?_, ?_⟩
  · rw [offered.clock_of_reassess, (happens_failVerify v).blocks.2 .clock (by decide), reach_now]
  · have failed := verifyFailed_of_failVerify (v := v) (s := s) (tunA ▸ hh) (tunA ▸ hd) offered (by rw [tunA]) (s.reach_radio _)
      fun _ _ _ => by rw [tunA]
    rwa [tunA] at failed

/-- Settles O29: a verification ends by `passVerify` or `failVerify`, and the assessment behind it changes of the list its seen flags
alone. -/
theorem verificationEnds : Obligations.VerificationEnds :=
  ⟨afGapEnd_resumes, dataGroup_verifies, afCheckMeasurement_verifies, afVerifyTimeout_fails⟩

end Sys2Proof.Machine
end

section
namespace Sys2Proof.Machine

/-! ### A channel update (R79) -/

/-- R79: decoded data carries another identity than the entry. -/
def Entry.supplanted (e : Entry) (d : Decoded) : Bool := d.identity.isSome && d.identity ≠ e.identity

theorem Entry.supplanted_iff (e : Entry) (d : Decoded) : e.supplanted d = true ↔ ∃ i, d.identity = some i ∧ e.identity ≠ some i := by
  unfold Entry.supplanted
  cases hd : d.identity with
  | none => simp
  | some i => simp only [Option.isSome_some, Bool.true_and, decide_eq_true_eq, Option.some.injEq, exists_eq_left', ne_comm (a := some i)]

theorem Entry.met_eq (e : Entry) (q : Nat) (d : Decoded) : e.met q d =
    { e with qs := q, missed := 0, seen := true, identity := d.identity.or e.identity,
             name := d.name.or (if e.supplanted d then none else e.name),
             tp := d.tp.or (if e.supplanted d then none else e.tp),
             alternates := d.alternates.getD (if e.supplanted d then [] else e.alternates) } := by
  unfold Entry.met Entry.supplanted
  dsimp only
  split <;> simp only [Option.orElse_eq_orElse, Option.orElse_eq_or]

theorem Entry.differs_iff (a b : Entry) : a.differs b = true ↔
    ¬(a.identity = b.identity ∧ a.name = b.name ∧ a.tp = b.tp ∧ a.alternates = b.alternates) := by
  rw [Entry.differs, Bool.not_eq_true', ← Bool.not_eq_true]
  simp only [Bool.and_eq_true, decide_eq_true_eq, and_assoc]

section
variable {shields : Entry → Bool} {f : Freq} {q : Nat} {d : Decoded} {r : Radio}

theorem channelUpdated_poor {e : Entry} (he : findEntry r.stations f = some e) (hq : q < 25) :
    ChannelUpdated shields f q d r (r.withStations (changeEntry r.stations f fun e => { e with qs := q })) := by
  refine ⟨rfl, fun e' he' => ⟨fun _ => ⟨rfl, rfl⟩, fun good => absurd good (Nat.not_le.2 hq)⟩, fun hn => ?_⟩
  exact absurd (findEntry_eq_some he).2 (hn e (findEntry_eq_some he).1)

/-- The list with the entry of a channel met again. -/
def Radio.meeting (r : Radio) (e : Entry) (q : Nat) (d : Decoded) : Radio :=
  let ys := changeEntry r.stations e.freq fun _ => e.met q d
  if (e.met q d).differs e then r.withNewVersion ys else r.withStations ys

theorem channelUpdated_met {e : Entry} (he : findEntry r.stations f = some e) (hq : 25 ≤ q) :
    ChannelUpdated shields f q d r (r.meeting e q d) := by
  obtain ⟨mem, rfl⟩ := findEntry_eq_some he
  have stations : (r.meeting e q d).stations = r.stations.map fun x => if x.freq = e.freq then e.met q d else x := by
    unfold Radio.meeting
    dsimp only
    split <;> rfl
  refine ⟨?_, fun e' he' => ⟨fun poor => absurd hq (Nat.not_le.2 poor), fun _ => ?_⟩, fun hn => absurd rfl (hn e mem)⟩
  · unfold Radio.meeting
    dsimp only
    split <;> rfl
  · obtain rfl : e = e' := Option.some.inj (he.symm.trans he')
    refine ⟨e.supplanted d, e.met q d, e.supplanted_iff d, e.met_eq q d, stations, ?_⟩
    unfold Radio.meeting
    dsimp only
    by_cases moved : (e.met q d).differs e = true
    · rw [if_pos moved, if_neg ((Entry.differs_iff _ _).1 moved)]
      rfl
    · rw [if_neg moved, if_pos (not_not.1 (mt (Entry.differs_iff _ _).2 moved))]
      rfl

theorem channelUpdated_silent (hn : findEntry r.stations f = none) (hq : q < 25) : ChannelUpdated shields f q d r r := by
  refine ⟨rfl, fun e he => ?_, fun _ => ⟨fun _ => rfl, fun good => absurd good (Nat.not_le.2 hq)⟩⟩
  exact absurd (hn.symm.trans he) (by simp)

/-- The list with an entry due to be inserted for a new channel. -/
def Radio.inserting (r : Radio) (shields : Entry → Bool) (e : Entry) : Radio :=
  match placeEntry shields r.stations e with
  | some ys => r.withNewVersion ys
  | none => r

theorem channelUpdated_new (hn : findEntry r.stations f = none) (hq : 25 ≤ q) :
    ChannelUpdated shields f q d r (r.inserting shields { d.entry f q with seen := true }) := by
  have missing := findEntry_eq_none.1 hn
  have inserted := inserted_placeEntry shields { d.entry f q with seen := true } r.stations
  unfold Radio.inserting
  refine ⟨?_, fun e he => absurd (hn.symm.trans he) (by simp), fun _ => ⟨fun poor => absurd hq (Nat.not_le.2 poor), fun _ => ?_⟩⟩
  · split <;> rfl
  · cases placed : placeEntry shields r.stations { d.entry f q with seen := true } with
    | none =>
      rw [placed] at inserted
      exact ⟨inserted, (if_pos rfl).symm⟩
    | some ys =>
      rw [placed] at inserted
      exact ⟨inserted, (if_neg (placeEntry_ne missing placed)).symm⟩

end

/-- What a channel update does: the list as R79 has it, and the sweep marked where it has raised the version. -/
theorem State.updateChannel_spec (s : State) : ∃ (u : Radio) (b : Bool),
    s.updateChannel = (s.withRadio u).withTunB { s.tunB with changed := b }
      ∧ ChannelUpdated s.tunA.shields s.tunB.rx.freq s.tunB.rx.qs s.tunB.rx.decoder.data s.radio u
      ∧ (u.version ≠ s.radio.version ∨ s.tunB.changed = true → b = true) := by
  have quiet : ∀ {u : Radio}, u.version = s.radio.version → u.version ≠ s.radio.version ∨ s.tunB.changed = true →
      s.tunB.changed = true := fun same h => h.resolve_left fun k => k same
  unfold State.updateChannel
  dsimp only
  cases he : findEntry s.radio.stations s.tunB.rx.freq with
  | some e =>
    dsimp only
    by_cases hq : 25 ≤ s.tunB.rx.qs
    · have met := channelUpdated_met (shields := s.tunA.shields) (d := s.tunB.rx.decoder.data) he hq
      have freq := (findEntry_eq_some he).2
      rw [if_pos hq]
      unfold Radio.meeting at met
      rw [freq] at met
      dsimp only at met
      split at met
      · rename_i moved
        exact ⟨_, true, if_pos moved, met, fun _ => rfl⟩
      · rename_i moved
        exact ⟨_, s.tunB.changed, if_neg moved, met, quiet rfl⟩
    · rw [if_neg hq]
      exact ⟨_, s.tunB.changed, rfl, channelUpdated_poor he (Nat.lt_of_not_le hq), quiet rfl⟩
  | none =>
    dsimp only
    by_cases hq : 25 ≤ s.tunB.rx.qs
    · have listed := channelUpdated_new (shields := s.tunA.shields) (d := s.tunB.rx.decoder.data) he hq
      rw [if_pos hq]
      unfold Radio.inserting at listed
      dsimp only at listed
      generalize placeEntry _ _ _ = placed at listed ⊢
      cases placed with
      | some ys => exact ⟨_, true, rfl, listed, fun _ => rfl⟩
      | none => exact ⟨_, s.tunB.changed, rfl, listed, quiet rfl⟩
    · rw [if_neg hq]
      exact ⟨_, s.tunB.changed, rfl, channelUpdated_silent he (Nat.lt_of_not_le hq), quiet rfl⟩

end Sys2Proof.Machine
end

section
namespace Sys2Proof.Machine

/-! ### The end of a sweep (R81, R93, R197) -/

/-- Nothing gives Tuner B another assignment: the hub is parked, or Tuner B scans and nobody else wants it. -/
def Directions.Unbidden (d : Directions) : Prop :=
  d.power ≠ .run ∨ (d.state = .scan ∧ d.holder = none ∧ d.radio.scan = true ∧ d.traffic = false)

theorem State.willBeAssigned_of_unbidden {s : State} (h : s.directions.Unbidden) : s.followEligible.followWatch.assigned := by
  rcases h with parked | ⟨scans, free, scan, off⟩
  · exact State.willBeAssigned_of_parked parked
  · have on : s.followEligible.traffic.on = false := by
      rw [← off]
      exact congrArg Directions.traffic (undirected_followEligible s).directions
    have unwatched : s.followEligible.followWatch.traffic.watch = none := by simp [State.followWatch, on]
    intro _
    rw [unwatched, State.followWatch_tunB, State.followEligible_tunB, State.followWatch_radio, State.followEligible_radio,
      show s.tunB.holder = none from free, show s.radio.scan = true from scan]
    exact scans

theorem agedList_plain (shields : Entry → Bool) (xs : List Entry) : (agedList shields xs).map Entry.plain = agedList shields xs := by
  unfold agedList
  rw [List.map_filterMap]
  refine List.filterMap_congr fun e _ => ?_
  split
  · rfl
  · split <;> rfl

theorem aged_eq (shields : Entry → Bool) (hs : ∀ (e : Entry) (n : Nat), shields { e with missed := n } = shields e) (xs : List Entry) :
    aged shields xs = agedList shields xs := by
  unfold aged agedList
  dsimp only
  rw [← List.filterMap_eq_filter, List.map_filterMap, List.filterMap_map]
  refine List.filterMap_congr fun e _ => ?_
  dsimp only [Function.comp]
  cases hseen : e.seen with
  | true => simp [Option.guard, hseen, Entry.plain]
  | false =>
    have missed : min 3 (e.missed + 1) < 3 ↔ e.missed + 1 < 3 := by omega
    have shielded := hs e (min 3 (e.missed + 1))
    rw [hseen] at shielded
    by_cases stays : e.missed + 1 < 3 ∨ shields e = true <;> simp [Option.guard, shielded, missed, stays]

theorem TunerA.shields_missed (x : TunerA) (e : Entry) (n : Nat) : x.shields { e with missed := n } = x.shields e := rfl

/-- The list aged at a sweep's end. -/
def Radio.ageing (r : Radio) (shields : Entry → Bool) : Radio :=
  if (agedList shields r.stations).length < r.stations.length then r.withNewVersion (agedList shields r.stations)
  else r.withStations (agedList shields r.stations)

theorem Radio.ageing_stations (r : Radio) (shields : Entry → Bool) : (r.ageing shields).stations = agedList shields r.stations := by
  unfold Radio.ageing
  split <;> rfl

theorem Radio.ageing_version (r : Radio) (shields : Entry → Bool) : (r.ageing shields).version =
    if (agedList shields r.stations).length < r.stations.length then (r.version + 1) % 65536 else r.version := by
  unfold Radio.ageing
  split <;> rfl

theorem Radio.ageing_scan (r : Radio) (shields : Entry → Bool) : (r.ageing shields).scan = r.scan := by
  unfold Radio.ageing
  split <;> rfl

theorem Radio.ageing_unseen (r : Radio) (shields : Entry → Bool) : (r.ageing shields).unseen = r.ageing shields := by
  unfold Radio.unseen
  rw [Radio.ageing_stations, agedList_plain, ← Radio.ageing_stations]
  rfl

/-- The state at a sweep's end with the list aged, and LIST_UPDATED raised if the sweep has changed the list. -/
def State.sweptOut (s : State) : State :=
  let t := s.withRadio (s.radio.ageing s.tunA.shields)
  if decide ((agedList s.tunA.shields s.radio.stations).length < s.radio.stations.length) || s.tunB.changed then t.riseAll 11 else t

theorem happens_sweptOut (s : State) : Happens [.radio] s s.sweptOut := by
  have aged := happens_withRadio s (s.radio.ageing s.tunA.shields)
  exact .ite (aged.trans ((happens_riseAll _ _).mono (by simp))) aged

theorem State.sweptOut_radio (s : State) : s.sweptOut.radio = s.radio.ageing s.tunA.shields := by
  unfold State.sweptOut
  dsimp only
  split
  · exact (happens_riseAll _ _).blocks.2 .radio (by decide)
  · rfl

theorem State.sweptOut_directions (s : State) :
    s.sweptOut.directions = { s.directions with radio := s.radio.ageing s.tunA.shields } := by
  unfold State.sweptOut
  dsimp only
  split
  · rw [(undirected_riseAll _ _).directions]; rfl
  · rfl

theorem riseLatched_sweptOut {s : State} (h : (agedList s.tunA.shields s.radio.stations).length < s.radio.stations.length
    ∨ s.tunB.changed = true) : RiseLatched 11 s s.sweptOut := by
  unfold State.sweptOut
  dsimp only
  rw [if_pos (by simpa using h)]
  exact .of_undisturbed (happens_withRadio s _).links (riseLatched_riseAll _ 11 (by decide))

theorem State.endSweep_eq (s : State) : s.endSweep =
    if s.tunB.state = .scan then s.sweptOut.startSweep .scan
    else
      let t := s.sweptOut.enterB .off none
      if t.power.state = .quiet then t.withPower { t.power with timer := some (t.clock.now, t.power.interval) } else t := by
  unfold State.endSweep State.sweptOut Radio.ageing
  dsimp only
  simp only [aged_eq _ s.tunA.shields_missed, decide_eq_true_eq]

/-- What a sweep's end leaves: Tuner B as the directions have it, list and power. -/
structure SweepEnded (s t : State) : Prop where
  happens : Happens (.power :: reassessed) s t
  latched : LatchesKept s.sweptOut t
  radio : t.radio = s.radio.ageing s.tunA.shields

theorem State.endSweep_of_scan {s : State} (h : s.tunB.state = .scan) : SweepEnded s s.endSweep ∧ s.endSweep.directions =
    { s.directions with freq := firstChannel, radio := s.radio.ageing s.tunA.shields } ∧ s.endSweep.power = s.power := by
  have ended : s.endSweep = s.sweptOut.startSweep .scan := by rw [State.endSweep_eq, if_pos h]
  have radio : s.endSweep.radio = s.radio.ageing s.tunA.shields := by
    rw [ended, State.startSweep_radio, State.sweptOut_radio, Radio.ageing_unseen]
  have started := happens_startSweep s.sweptOut .scan
  refine ⟨⟨?_, ended ▸ latchesKept_startSweep _ _, radio⟩, ?_, ?_⟩
  · rw [ended]
    exact ((happens_sweptOut s).mono (by simp [reassessed])).trans (started.mono (by simp [reassessed, tableFollowers]))
  · have directions := s.sweptOut.startSweep_directions .scan
    rw [← ended, State.sweptOut_directions] at directions
    rw [directions, ← radio, ended, State.startSweep_radio]
    simp only [State.directions, h]
    rfl
  · rw [ended, started.blocks.2 .power (by decide), (happens_sweptOut s).blocks.2 .power (by decide)]

theorem State.endSweep_of_refresh {s : State} (h : s.tunB.state = .refresh) : SweepEnded s s.endSweep ∧ s.endSweep.directions =
    { s.directions with state := .off, radio := s.radio.ageing s.tunA.shields } ∧ s.endSweep.power =
      { s.power with timer := if s.power.state = .quiet then some (s.clock.now, s.power.interval) else s.power.timer } := by
  have ended := s.endSweep_eq
  rw [if_neg (by simp [h])] at ended
  have entered := happens_enterB s.sweptOut .off none
  have brought : Happens (.power :: reassessed) s (s.sweptOut.enterB .off none) :=
    ((happens_sweptOut s).mono (by simp [reassessed])).trans (entered.mono (by simp [reassessed, tableFollowers]))
  have power : (s.sweptOut.enterB .off none).power = s.power := by
    rw [entered.blocks.2 .power (by decide), (happens_sweptOut s).blocks.2 .power (by decide)]
  have clock : (s.sweptOut.enterB .off none).clock = s.clock := by
    rw [entered.blocks.2 .clock (by decide), (happens_sweptOut s).blocks.2 .clock (by decide)]
  have radio : (s.sweptOut.enterB .off none).radio = s.radio.ageing s.tunA.shields := by
    rw [State.enterB_radio, State.sweptOut_radio]
  have latched := latchesKept_enterB s.sweptOut .off none
  have directions := s.sweptOut.enterB_directions .off none
  have freq : s.sweptOut.tunB = s.tunB := (happens_sweptOut s).blocks.2 .tunB (by decide)
  rw [State.sweptOut_directions, freq] at directions
  dsimp only at ended
  rw [power] at ended
  split at ended
  · rename_i quiet
    rw [ended]
    refine ⟨⟨brought.trans ((happens_withPower _ _).mono (by simp)), latched.trans (.of_links rfl), radio⟩, ?_, ?_⟩
    · exact (undirected_withPower _ _ (congrArg Power.state power.symm)).directions.trans directions
    · rw [clock, if_pos quiet]; rfl
  · rename_i noisy
    rw [ended]
    refine ⟨⟨brought, latched, radio⟩, directions, ?_⟩
    rw [power, if_neg noisy]

end Sys2Proof.Machine
end

section
namespace Sys2Proof.Machine

/-! ### The end of a sweep's channel (R86) -/

/-- The clock brought to the end of a sweep's channel, with the measurement that falls due then. -/
def State.channelSwept (s : State) (m : Option Meas) : State :=
  let u := s.reach (s.tunB.rx.since + milliseconds (if s.tunB.dwell then 400 else 8))
  match m with
  | some m => u.withTunB { u.tunB with rx := u.tunB.rx.measure m u.clock.now }
  | none => u

theorem happens_channelSwept (s : State) (m : Option Meas) : Happens [.clock, .ports, .tunB] s (s.channelSwept m) := by
  have reached := (happens_reach s (s.tunB.rx.since + milliseconds (if s.tunB.dwell then 400 else 8))).mono
    (cs := [.clock, .ports, .tunB]) (by simp)
  cases m with
  | none => exact reached
  | some m => exact reached.trans ((happens_withTunB _ _).mono (by simp))

theorem State.channelSwept_now (s : State) (m : Option Meas) : (s.channelSwept m).clock.now =
    max s.clock.now (s.tunB.rx.since + milliseconds (if s.tunB.dwell then 400 else 8)) := by
  cases m with
  | none => exact reach_now s _
  | some m => exact reach_now s _

/-- R86: the Qs that a channel of a sweep ends with. -/
def Receiver.finalQs (r : Receiver) (m : Option Meas) : Nat :=
  match m with
  | some x => if r.aside then quality r.freq.band x else (3 * r.qs + quality r.freq.band x + 2) / 4
  | none => r.qs

theorem State.channelSwept_tunB (s : State) (m : Option Meas) : ∃ rx : Receiver, (s.channelSwept m).tunB = { s.tunB with rx := rx }
    ∧ rx.freq = s.tunB.rx.freq ∧ rx.decoder = s.tunB.rx.decoder ∧ rx.qs = s.tunB.rx.finalQs m := by
  cases m with
  | none => exact ⟨s.tunB.rx, s.reach_tunB _, rfl, rfl, rfl⟩
  | some m =>
    refine ⟨s.tunB.rx.measure m (s.reach (s.tunB.rx.since + milliseconds (if s.tunB.dwell then 400 else 8))).clock.now,
      ?_, rfl, rfl, rfl⟩
    simp only [State.channelSwept, State.reach_tunB, State.withTunB_tunB]

theorem State.sweepChannelEnd_eq {s : State} (h : s.tunB.sweeping = true) (m : Option Meas) : s.sweepChannelEnd m =
    let v := s.channelSwept m
    if !v.tunB.dwell && v.tunB.rx.freq.band = .fm && decide (25 ≤ v.tunB.rx.qs) then
      v.withTunB { v.tunB with dwell := true, rx := { v.tunB.rx with since := v.clock.now, groupAt := v.clock.now } }
    else v.updateChannel.sweepOn := by
  simp only [State.sweepChannelEnd, h, Bool.not_true, Bool.false_eq_true, if_false]
  cases m <;> rfl

theorem ChannelUpdated.scan {shields : Entry → Bool} {f : Freq} {q : Nat} {d : Decoded} {r r' : Radio}
    (h : ChannelUpdated shields f q d r r') : r'.scan = r.scan := by
  rw [h.1]

/-- The sweeps of R86: of REFRESH while the hub is parked, and of SCAN while nothing ends it. -/
def State.sweeps (s : State) : Prop :=
  (s.tunB.state = .refresh ∧ s.power.state ≠ .run)
    ∨ (s.tunB.state = .scan ∧ s.power.state = .run ∧ s.tunB.holder = none ∧ s.radio.scan = true ∧ s.traffic.on = false)

namespace State.sweeps
variable {s : State} (h : s.sweeps)
include h

theorem sweeping : s.tunB.sweeping = true := by
  rcases h with ⟨h, -⟩ | ⟨h, -⟩ <;> simp [TunerB.sweeping, h]

theorem unbidden : s.directions.Unbidden := by
  rcases h with ⟨-, h⟩ | ⟨scans, -, free, scan, off⟩
  · exact .inl h
  · exact .inr ⟨scans, free, scan, off⟩

end State.sweeps

/-- Tuner B on another channel, and the list in other entries, leave nobody else to bid. -/
theorem Directions.Unbidden.moved {d e : Directions} (h : d.Unbidden) (hp : e.power = d.power) (hs : e.state = d.state)
    (hh : e.holder = d.holder) (hr : e.radio.scan = d.radio.scan) (ht : e.traffic = d.traffic) : e.Unbidden := by
  unfold Directions.Unbidden at *
  rwa [hp, hs, hh, hr, ht]

section
variable {s : State} {m : Option Meas} (sweeps : s.sweeps)
include sweeps

/-- R86: an FM channel that is received well gets a dwell. -/
theorem sweepChannelEnd_dwells (short : s.tunB.dwell = false) (fm : s.tunB.rx.freq.band = .fm) (good : 25 ≤ s.tunB.rx.finalQs m) :
    ∃ t, exec (.sweepChannelEnd m) s = .next t ∧ Happens (.clock :: .ports :: .power :: reassessed) s t
      ∧ t.clock.now = max s.clock.now (s.tunB.rx.since + milliseconds (if s.tunB.dwell then 400 else 8))
      ∧ t.tunB.state = s.tunB.state ∧ t.tunB.dwell = true ∧ t.tunB.rx.freq = s.tunB.rx.freq ∧ t.tunB.rx.qs = s.tunB.rx.finalQs m
      ∧ t.radio = s.radio := by
  obtain ⟨rx, tunB, freq, -, qs⟩ := s.channelSwept_tunB m
  have swept := happens_channelSwept s m
  have now := s.channelSwept_now m
  have ended := State.sweepChannelEnd_eq sweeps.sweeping m
  set v := s.channelSwept m with hv
  dsimp only at ended
  rw [tunB, if_pos (by simp [short, freq, fm, qs, good])] at ended
  set w := v.withTunB { s.tunB with dwell := true, rx := { rx with since := v.clock.now, groupAt := v.clock.now } } with hw
  have happens : Happens (.clock :: .ports :: .power :: reassessed) s (s.sweepChannelEnd m) :=
    ended ▸ (swept.mono (by simp [reassessed])).trans ((happens_withTunB v _).mono (by simp [reassessed]))
  obtain ⟨t, next, happens, offered⟩ := tunerEvent_spec (f := fun s => s.sweepChannelEnd m) happens (by decide)
  rw [ended] at offered
  have radio : w.radio = s.radio := swept.blocks.2 .radio (by decide)
  have power : w.power = s.power := swept.blocks.2 .power (by decide)
  have traffic : w.traffic = s.traffic := swept.blocks.2 .traffic (by decide)
  have assigned := State.willBeAssigned_of_unbidden (s := w) (sweeps.unbidden.moved (by simp only [State.directions, power]) rfl rfl
    (by simp only [State.directions, radio]) (by simp only [State.directions, traffic]))
  refine ⟨t, next, happens, ?_⟩
  rw [offered.clock_of_reassess, offered.tunB, offered.radio, State.reassess_tunB_of_assigned assigned,
    State.reassess_radio_of_assigned assigned]
  exact ⟨now, rfl, rfl, freq, qs, radio⟩

/-- `w` is the state after the update of a channel that ends, its list `u` (R79). -/
structure ChannelEnded (s : State) (m : Option Meas) (w : State) (u : Radio) : Prop where
  goes : s.sweepChannelEnd m = w.sweepOn
  happens : Happens (.clock :: .ports :: .power :: reassessed) s w
  now : w.clock.now = max s.clock.now (s.tunB.rx.since + milliseconds (if s.tunB.dwell then 400 else 8))
  list : ChannelUpdated s.tunA.shields s.tunB.rx.freq (s.tunB.rx.finalQs m) s.tunB.rx.decoder.data s.radio u
  radio : w.radio = u
  tunA : w.tunA = s.tunA
  state : w.tunB.state = s.tunB.state
  freq : w.tunB.rx.freq = s.tunB.rx.freq
  marked : u.version ≠ s.radio.version ∨ s.tunB.changed = true → w.tunB.changed = true
  power : w.power = s.power
  unbidden : w.directions.Unbidden

theorem channelEnded (done : s.tunB.dwell = true ∨ s.tunB.rx.freq.band = .mw ∨ s.tunB.rx.finalQs m < 25) :
    ∃ w u, ChannelEnded s m w u := by
  obtain ⟨rx, tunB, freq, decoder, qs⟩ := s.channelSwept_tunB m
  have swept := happens_channelSwept s m
  have ended := State.sweepChannelEnd_eq sweeps.sweeping m
  have now := s.channelSwept_now m
  set v := s.channelSwept m with hv
  have radio : v.radio = s.radio := swept.blocks.2 .radio (by decide)
  have tunA : v.tunA = s.tunA := swept.blocks.2 .tunA (by decide)
  have power : v.power = s.power := swept.blocks.2 .power (by decide)
  have traffic : v.traffic = s.traffic := swept.blocks.2 .traffic (by decide)
  have long : ¬(!s.tunB.dwell && decide (rx.freq.band = .fm) && decide (25 ≤ rx.qs)) = true := by
    rcases done with h | h | h <;> simp [freq, qs, h]
  dsimp only at ended
  rw [tunB, if_neg long] at ended
  obtain ⟨u, b, updated, list, marked⟩ := v.updateChannel_spec
  rw [tunB] at updated list marked
  rw [radio] at list marked
  simp only [tunA, freq, decoder, qs] at list
  rw [updated] at ended
  refine ⟨_, u, ended, ?_, now, list, rfl, tunA, rfl, freq, marked, power, ?_⟩
  · exact (swept.mono (by simp [reassessed])).trans
      (((happens_withRadio v u).mono (by simp [reassessed])).trans ((happens_withTunB _ _).mono (by simp [reassessed])))
  · refine sweeps.unbidden.moved ?_ rfl rfl list.scan ?_
    · exact congrArg Power.state power
    · exact congrArg Traffic.on traffic

end

theorem State.sweepOn_of_some {s : State} {f : Freq} (h : sweepNext s.tunB.rx.freq = some f) :
    s.sweepOn = s.withTunB { s.tunB with rx := s.tunB.rx.tune f s.clock.now, dwell := false } := by simp only [State.sweepOn, h]

theorem State.sweepOn_of_none {s : State} (h : sweepNext s.tunB.rx.freq = none) : s.sweepOn = s.endSweep := by
  simp only [State.sweepOn, h]

theorem reassessed_sub_power : reassessed ⊆ .clock :: .ports :: .power :: reassessed := by decide

section
variable {s w : State} {m : Option Meas} {u : Radio} (ended : ChannelEnded s m w u)
include ended

/-- R86: the sweep goes on to the next channel. -/
theorem sweepChannelEnd_goesOn {x : Freq} (hx : sweepNext s.tunB.rx.freq = some x) :
    ∃ t, exec (.sweepChannelEnd m) s = .next t ∧ Happens (.clock :: .ports :: .power :: reassessed) s t
      ∧ t.clock = w.clock ∧ t.radio = u ∧ t.tunB.state = s.tunB.state ∧ t.tunB.dwell = false ∧ t.tunB.rx.freq = x := by
  have on : s.sweepChannelEnd m = w.withTunB { w.tunB with rx := w.tunB.rx.tune x w.clock.now, dwell := false } :=
    ended.goes.trans (State.sweepOn_of_some (ended.freq ▸ hx))
  obtain ⟨t, next, happens, offered⟩ := tunerEvent_spec (f := fun s => s.sweepChannelEnd m)
    (on ▸ ended.happens.trans ((happens_withTunB w _).mono (by simp [reassessed]))) reassessed_sub_power
  rw [on] at offered
  have assigned := State.willBeAssigned_of_unbidden
    (s := w.withTunB { w.tunB with rx := w.tunB.rx.tune x w.clock.now, dwell := false }) (ended.unbidden.moved rfl rfl rfl rfl rfl)
  refine ⟨t, next, happens, ?_⟩
  rw [offered.clock_of_reassess, offered.tunB, offered.radio, State.reassess_tunB_of_assigned assigned,
    State.reassess_radio_of_assigned assigned]
  exact ⟨rfl, ended.radio, ended.state, rfl, rfl⟩

/-- What the end of a sweep leaves of list and notices, whichever it is. -/
structure SweepClosed (s : State) (u : Radio) (t : State) : Prop where
  stations : t.radio.stations = agedList s.tunA.shields u.stations
  version : t.radio.version = if t.radio.stations.length < u.stations.length then (u.version + 1) % 65536 else u.version
  told : t.radio.stations.length < u.stations.length ∨ u.version ≠ s.radio.version ∨ s.tunB.changed = true → RiseLatched 11 s t

theorem sweepClosed_of_sweepEnded {v t : State} (closed : SweepEnded w v) (assigned : v.followEligible.followWatch.assigned)
    (offered : Offered v.reassess t) : SweepClosed s u t := by
  have radio : t.radio = u.ageing s.tunA.shields := by
    rw [offered.radio, State.reassess_radio_of_assigned assigned, closed.radio, ended.radio, ended.tunA]
  have stations : t.radio.stations = agedList s.tunA.shields u.stations := by rw [radio, Radio.ageing_stations]
  refine ⟨stations, ?_, fun h => ?_⟩
  · rw [stations, radio, Radio.ageing_version]
  · have told : RiseLatched 11 w w.sweptOut := by
      refine riseLatched_sweptOut ?_
      rw [ended.tunA, ended.radio, ← stations]
      exact h.imp_right ended.marked
    exact ((told.kept closed.latched).of_undisturbed ended.happens.links).kept offered.latched_of_reassess

/-- R93, R197: a sweep of REFRESH ends. -/
theorem sweepChannelEnd_parks (hx : sweepNext s.tunB.rx.freq = none) (hs : s.tunB.state = .refresh) (hp : s.power.state ≠ .run) :
    ∃ t, exec (.sweepChannelEnd m) s = .next t ∧ Happens (.clock :: .ports :: .power :: reassessed) s t
      ∧ t.clock = w.clock ∧ SweepClosed s u t ∧ t.tunB.state = .off
      ∧ t.power = { s.power with timer := if s.power.state = .quiet then some (t.clock.now, s.power.interval) else s.power.timer } := by
  have on : s.sweepChannelEnd m = w.endSweep := ended.goes.trans (State.sweepOn_of_none (ended.freq ▸ hx))
  obtain ⟨closed, directions, power⟩ := State.endSweep_of_refresh (ended.state.trans hs)
  obtain ⟨t, next, happens, offered⟩ := tunerEvent_spec (f := fun s => s.sweepChannelEnd m)
    (on ▸ ended.happens.trans (closed.happens.mono (by simp))) reassessed_sub_power
  rw [on] at offered
  have clock : t.clock = w.clock := offered.clock_of_reassess.trans (closed.happens.blocks.2 .clock (by decide))
  rw [ended.power] at power
  have parked : w.endSweep.power.state ≠ .run := power ▸ hp
  have assigned := State.willBeAssigned_of_parked parked
  refine ⟨t, next, happens, clock, sweepClosed_of_sweepEnded ended closed assigned offered, ?_, ?_⟩
  · rw [offered.tunB, State.reassess_tunB_of_assigned assigned]
    exact congrArg Directions.state directions
  · rw [offered.power, State.reassess_power, power, clock]

/-- R81: SCAN begins again. -/
theorem sweepChannelEnd_restarts (hx : sweepNext s.tunB.rx.freq = none) (hs : s.tunB.state = .scan) :
    ∃ t, exec (.sweepChannelEnd m) s = .next t ∧ Happens (.clock :: .ports :: .power :: reassessed) s t
      ∧ t.clock = w.clock ∧ SweepClosed s u t ∧ t.tunB.state = .scan ∧ t.tunB.rx.freq = ⟨.fm, 87500⟩ ∧ t.power = s.power := by
  have on : s.sweepChannelEnd m = w.endSweep := ended.goes.trans (State.sweepOn_of_none (ended.freq ▸ hx))
  obtain ⟨closed, directions, power⟩ := State.endSweep_of_scan (ended.state.trans hs)
  obtain ⟨t, next, happens, offered⟩ := tunerEvent_spec (f := fun s => s.sweepChannelEnd m)
    (on ▸ ended.happens.trans (closed.happens.mono (by simp))) reassessed_sub_power
  rw [on] at offered
  have clock : t.clock = w.clock := offered.clock_of_reassess.trans (closed.happens.blocks.2 .clock (by decide))
  have unbidden : w.endSweep.directions.Unbidden := by
    rw [directions]
    exact ended.unbidden.moved rfl rfl rfl (Radio.ageing_scan _ _) rfl
  have assigned := State.willBeAssigned_of_unbidden unbidden
  refine ⟨t, next, happens, clock, sweepClosed_of_sweepEnded ended closed assigned offered, ?_, ?_, ?_⟩
  · rw [offered.tunB, State.reassess_tunB_of_assigned assigned]
    exact (congrArg Directions.state directions).trans (ended.state.trans hs)
  · rw [offered.tunB, State.reassess_tunB_of_assigned assigned]
    exact congrArg Directions.freq directions
  · rw [offered.power, State.reassess_power, power, ended.power]

end

/-- R78 to R81, R86, R93, R197. -/
theorem sweepChannelEnd_ends (s : State) (m : Option Meas) (q : Nat) (sweeps : s.sweeps) (hq : q = s.tunB.rx.finalQs m) :
    ∃ t, exec (.sweepChannelEnd m) s = .next t ∧ Happens (.clock :: .ports :: .power :: reassessed) s t
      ∧ t.clock.now = max s.clock.now (s.tunB.rx.since + milliseconds (if s.tunB.dwell then 400 else 8))
      ∧ (s.tunB.dwell = false → s.tunB.rx.freq.band = .fm → 25 ≤ q →
          t.tunB.state = s.tunB.state ∧ t.tunB.dwell = true ∧ t.tunB.rx.freq = s.tunB.rx.freq ∧ t.tunB.rx.qs = q
            ∧ t.radio = s.radio)
      ∧ ((s.tunB.dwell = true ∨ s.tunB.rx.freq.band = .mw ∨ q < 25) →
          ∃ u : Radio, ChannelUpdated s.tunA.shields s.tunB.rx.freq q s.tunB.rx.decoder.data s.radio u
            ∧ (∀ x, sweepNext s.tunB.rx.freq = some x →
                t.radio = u ∧ t.tunB.state = s.tunB.state ∧ t.tunB.dwell = false ∧ t.tunB.rx.freq = x)
            ∧ (sweepNext s.tunB.rx.freq = none →
                t.radio.stations = agedList s.tunA.shields u.stations
                ∧ t.radio.version =
                    (if t.radio.stations.length < u.stations.length then (u.version + 1) % 65536 else u.version)
                ∧ (t.radio.stations.length < u.stations.length ∨ u.version ≠ s.radio.version ∨ s.tunB.changed = true →
                    RiseLatched 11 s t)
                ∧ (s.tunB.state = .refresh → t.tunB.state = .off
                    ∧ t.power = { s.power with
                        timer := if s.power.state = .quiet then some (t.clock.now, s.power.interval) else s.power.timer })
                ∧ (s.tunB.state = .scan → t.tunB.state = .scan ∧ t.tunB.rx.freq = ⟨.fm, 87500⟩ ∧ t.power = s.power))) := by
  subst hq
  by_cases done : s.tunB.dwell = true ∨ s.tunB.rx.freq.band = .mw ∨ s.tunB.rx.finalQs m < 25
  · have undone : ∀ {p : Prop}, s.tunB.dwell = false → s.tunB.rx.freq.band = .fm → 25 ≤ s.tunB.rx.finalQs m → p :=
      fun short fm good => by
        rcases done with h | h | h
        · simp [short] at h
        · simp [fm] at h
        · omega
    obtain ⟨w, u, ended⟩ := channelEnded sweeps done
    cases hx : sweepNext s.tunB.rx.freq with
    | some x =>
      obtain ⟨t, next, happens, clock, tuned⟩ := sweepChannelEnd_goesOn ended hx
      exact ⟨t, next, happens, clock ▸ ended.now, undone, fun _ => ⟨u, ended.list, fun y hy => Option.some.inj hy ▸ tuned, by simp⟩⟩
    | none =>
      rcases sweeps with ⟨hs, hp⟩ | ⟨hs, -⟩
      · obtain ⟨t, next, happens, clock, closed, parked⟩ := sweepChannelEnd_parks ended hx hs hp
        exact ⟨t, next, happens, clock ▸ ended.now, undone, fun _ => ⟨u, ended.list, by simp, fun _ =>
          ⟨closed.stations, closed.version, closed.told, fun _ => parked, fun h => absurd (hs.symm.trans h) (by decide)⟩⟩⟩
      · obtain ⟨t, next, happens, clock, closed, restarted⟩ := sweepChannelEnd_restarts ended hx hs
        exact ⟨t, next, happens, clock ▸ ended.now, undone, fun _ => ⟨u, ended.list, by simp, fun _ =>
          ⟨closed.stations, closed.version, closed.told, fun h => absurd (hs.symm.trans h) (by decide), fun _ => restarted⟩⟩⟩
  · obtain ⟨short, fm, good⟩ : s.tunB.dwell = false ∧ s.tunB.rx.freq.band = .fm ∧ 25 ≤ s.tunB.rx.finalQs m := by
      obtain ⟨short, fm, good⟩ : ¬s.tunB.dwell = true ∧ ¬s.tunB.rx.freq.band = .mw ∧ ¬s.tunB.rx.finalQs m < 25 := by
        simpa only [not_or] using done
      refine ⟨by simpa using short, ?_, Nat.not_lt.1 good⟩
      cases hb : s.tunB.rx.freq.band with
      | fm => rfl
      | mw => exact absurd hb fm
    obtain ⟨t, next, happens, now, dwells⟩ := sweepChannelEnd_dwells sweeps short fm good
    exact ⟨t, next, happens, now, fun _ _ _ => dwells, fun h => absurd h done⟩

/-! ### The second that counts rejections down (R78) -/

theorem rejectionTick_counts (s : State) : ∃ t, exec .rejectionTick s = .next t ∧ Happens [.clock, .ports, .radio] s t ∧ Unreported s t
    ∧ t.clock.now = max s.clock.now (s.radio.secondAt + seconds 1) ∧ t.radio.version = s.radio.version
    ∧ t.radio.stations = s.radio.stations.map fun e =>
        { e with rejected := e.rejected.bind fun n => if n ≤ 1 then none else some (n - 1) } := by
  have reached := happens_reach s (s.radio.secondAt + seconds 1)
  have happens : Happens [.clock, .ports, .radio] s s.countRejections :=
    (reached.mono (by simp)).trans ((happens_withRadio _ _).mono (by simp))
  have radio : (s.reach (s.radio.secondAt + seconds 1)).radio = s.radio := s.reach_radio _
  refine ⟨_, rfl, happens.trans ((happens_offerEdges _ _).mono (by simp)),
    unreported_event (s.reach_links _) fun k => levels_of_happens reached k, ?_⟩
  have offered := offered_edges s s.countRejections
  rw [offered.clock, offered.radio]
  have version : s.countRejections.radio.version = (s.reach (s.radio.secondAt + seconds 1)).radio.version := rfl
  refine ⟨reach_now s _, version.trans (by rw [radio]), ?_⟩
  show ((s.reach (s.radio.secondAt + seconds 1)).radio.stations.map _) = _
  rw [radio]
  refine List.map_congr_left fun e _ => ?_
  cases e.rejected <;> rfl

/-- Settles O31: a channel's end is a dwell, or the list's update with the sweep going on or ending, and nothing then bids for Tuner B; a
second counts every rejection down. -/
theorem sweepAndRejections : Obligations.SweepAndRejections := ⟨sweepChannelEnd_ends, rejectionTick_counts⟩

end Sys2Proof.Machine
end

section
namespace Sys2Proof.Machine

/-! ### The list phase of a seek (R76) -/

/-- In a list ordered by `R`, what nothing precedes stands first. -/
theorem head?_eq_some_of_first {α : Type} {R : α → α → Prop} {xs : List α} (ordered : xs.Pairwise R) {x : α} (hx : x ∈ xs)
    (first : ∀ y ∈ xs, ¬R y x) : xs.head? = some x := by
  cases xs with
  | nil => simp at hx
  | cons y ys =>
    obtain rfl | behind := List.mem_cons.1 hx
    · rfl
    · exact absurd (List.rel_of_pairwise_cons ordered behind) (first y (by simp))

/-- The frequencies of the list phase, in list order. -/
def heardOn (xs : List Entry) (band : Band) : List Freq :=
  (xs.filter fun e => e.freq.band = band && decide (25 ≤ e.qs)).map (·.freq)

theorem mem_heardOn {xs : List Entry} {band : Band} {f : Freq} :
    f ∈ heardOn xs band ↔ f.band = band ∧ ∃ e ∈ xs, e.freq = f ∧ 25 ≤ e.qs := by
  simp only [heardOn, List.mem_map, List.mem_filter, Bool.and_eq_true, decide_eq_true_eq]
  constructor
  · rintro ⟨e, ⟨he, hb, hq⟩, rfl⟩
    exact ⟨hb, e, he, rfl, hq⟩
  · rintro ⟨hb, e, he, rfl, hq⟩
    exact ⟨e, ⟨he, hb, hq⟩, rfl⟩

theorem heardOn_sorted {xs : List Entry} (h : stationsWf xs) (band : Band) :
    (heardOn xs band).Pairwise fun a b => a.khz < b.khz := by
  refine List.pairwise_map.2 ((h.2.1.sublist List.filter_sublist).imp_of_mem fun {a b} ha hb before => ?_)
  simp only [List.mem_filter, Bool.and_eq_true, decide_eq_true_eq] at ha hb
  obtain k | ⟨-, k⟩ := Freq.before_iff.1 before
  · rw [ha.2.1, hb.2.1] at k
    exact absurd k (Nat.lt_irrefl _)
  · exact k

/-- The frequencies of the list phase in the order in which a seek meets them. -/
def seekOrder (xs : List Entry) (d : Direction) (start : Freq) : List Freq :=
  let above := (heardOn xs start.band).filter fun f => decide (start.khz < f.khz)
  let below := (heardOn xs start.band).filter fun f => decide (f.khz < start.khz)
  match d with
  | .up => above ++ below
  | .down => below.reverse ++ above.reverse

theorem listPhase_eq (xs : List Entry) (d : Direction) (start : Freq) : listPhase xs d start = (seekOrder xs d start).head? := by
  cases d <;> rfl

theorem mem_seekOrder {xs : List Entry} {d : Direction} {start f : Freq} : f ∈ seekOrder xs d start ↔ receivable xs start f := by
  have apart : f.band = start.band → (start.khz < f.khz ∨ f.khz < start.khz ↔ f ≠ start) := fun hb => by
    rw [Ne, Freq.mk.injEq, not_and, ← Nat.ne_iff_lt_or_gt, ne_comm]
    exact ⟨fun h _ => h, fun h => h hb⟩
  have placed : f ∈ seekOrder xs d start ↔ f ∈ heardOn xs start.band ∧ (start.khz < f.khz ∨ f.khz < start.khz) := by
    cases d <;>
      simp only [seekOrder, List.mem_append, List.mem_reverse, List.mem_filter, decide_eq_true_eq, ← and_or_left]
    rw [or_comm]
  rw [placed, mem_heardOn, receivable]
  constructor
  · rintro ⟨⟨hb, he⟩, hf⟩
    exact ⟨hb, (apart hb).1 hf, he⟩
  · rintro ⟨hb, hf, he⟩
    exact ⟨⟨hb, he⟩, (apart hb).2 hf⟩

theorem seekOrder_ordered {xs : List Entry} (h : stationsWf xs) (d : Direction) (start : Freq) :
    (seekOrder xs d start).Pairwise fun a b => ¬notAfter d start.khz b.khz a.khz := by
  have sorted := heardOn_sorted h start.band
  cases d with
  | up =>
    refine List.pairwise_append.2 ⟨?_, ?_, fun a ha b hb => ?_⟩
    · refine (sorted.sublist List.filter_sublist).imp_of_mem fun {a b} ha hb k => ?_
      simp only [List.mem_filter, decide_eq_true_eq] at ha hb
      simp only [notAfter]; omega
    · refine (sorted.sublist List.filter_sublist).imp_of_mem fun {a b} ha hb k => ?_
      simp only [List.mem_filter, decide_eq_true_eq] at ha hb
      simp only [notAfter]; omega
    · simp only [List.mem_filter, decide_eq_true_eq] at ha hb
      simp only [notAfter]; omega
  | down =>
    refine List.pairwise_append.2 ⟨?_, ?_, fun a ha b hb => ?_⟩
    · refine List.pairwise_reverse.2 ((sorted.sublist List.filter_sublist).imp_of_mem fun {a b} ha hb k => ?_)
      simp only [List.mem_filter, decide_eq_true_eq] at ha hb
      simp only [notAfter]; omega
    · refine List.pairwise_reverse.2 ((sorted.sublist List.filter_sublist).imp_of_mem fun {a b} ha hb k => ?_)
      simp only [List.mem_filter, decide_eq_true_eq] at ha hb
      simp only [notAfter]; omega
    · simp only [List.mem_reverse, List.mem_filter, decide_eq_true_eq] at ha hb
      simp only [notAfter]; omega

theorem listPhase_eq_some {xs : List Entry} (h : stationsWf xs) {d : Direction} {start x : Freq} (hx : receivable xs start x)
    (first : ∀ y, receivable xs start y → notAfter d start.khz x.khz y.khz) : listPhase xs d start = some x := by
  rw [listPhase_eq]
  exact head?_eq_some_of_first (seekOrder_ordered h d start) (mem_seekOrder.2 hx) fun y hy k => k (first y (mem_seekOrder.1 hy))

theorem listPhase_eq_none {xs : List Entry} {d : Direction} {start : Freq} (h : ∀ x, ¬receivable xs start x) :
    listPhase xs d start = none := by
  rw [listPhase_eq, List.head?_eq_none_iff]
  exact List.eq_nil_iff_forall_not_mem.2 fun x hx => h x (mem_seekOrder.1 hx)

theorem TunerA.seekFrom_eq (x : TunerA) : x.seekFrom = x.seekStart.getD (x.home.getD x.rx.freq) := by
  unfold TunerA.seekFrom
  cases x.seekStart <;> rfl

/-! ### A programme retune and a walk (R74, R77) -/

@[simp] theorem State.retuned_tunA (s : State) (t : TunerId) : (s.retuned t).tunA = s.tunA :=
  (happens_retuned s t).blocks.2 .tunA (by decide)

@[simp] theorem State.retuned_clock (s : State) (t : TunerId) : (s.retuned t).clock = s.clock :=
  (happens_retuned s t).blocks.2 .clock (by decide)

@[simp] theorem State.retuneA_tunA (s : State) (f : Freq) (r : TuneCause × TuneResult) :
    (s.retuneA f r).tunA = s.tunA.tunedTo f (some r) s.clock.now := by
  rw [State.retuneA, State.reassess_tunA, State.retuned_tunA, State.tuneA_eq]
  rfl

@[simp] theorem State.retuneA_clock (s : State) (f : Freq) (r : TuneCause × TuneResult) : (s.retuneA f r).clock = s.clock := by
  rw [State.retuneA, State.reassess_clock, State.retuned_clock]
  rfl

/-- Tuner A at the beginning of the raster phase. -/
def TunerA.walkingFrom (x : TunerA) (d : Direction) (start : Freq) (now : Time) : TunerA :=
  { x with rx := (x.rx.hush x.open).tune (nextChannel d start) now, state := .seeking, released := false, candidate := none,
           home := none, saved := none, seekDir := some d, seekStart := some start, low := 0, report := none }

theorem State.startWalk_eq (s : State) (d : Direction) (start : Freq) :
    s.startWalk d start = (s.withTunA (s.tunA.walkingFrom d start s.clock.now)).retuned .a := rfl

theorem happens_startWalk (s : State) (d : Direction) (start : Freq) : Happens (.tunA :: reassessed) s (s.startWalk d start) :=
  ((happens_withTunA s _).mono (by simp)).trans ((happens_retuned _ _).mono (by simp [reassessed, tableFollowers]))

theorem happens_seek (s : State) (d : Direction) : Happens (.tunA :: reassessed) s (s.seek d) := by
  unfold State.seek
  dsimp only
  split
  · exact happens_retuneA s _ _
  · exact (happens_startWalk s d _).trans ((happens_reassess _).mono (by simp))

/-- R76, R77. -/
theorem seekA_seeks (f : Frame) (s : State) (r : Reply) (b : Byte) (d : Direction) (start : Freq)
    (hr : s.holds .cockpit r) (hf : f.carries [b]) (hd : directionOf b.toNat = some d) (run : s.power.state = .run)
    (hs : start = s.tunA.seekStart.getD (s.tunA.home.getD s.tunA.rx.freq)) (wf : stationsWf s.radio.stations) :
    ∃ t, exec (.seekA .cockpit f) s = .next t ∧ Taken .cockpit f r (.plain .accepted) (.tunA :: reassessed) s t
      ∧ (∀ x, receivable s.radio.stations start x →
          (∀ y, receivable s.radio.stations start y → notAfter d start.khz x.khz y.khz) →
          t.tunA.settlingOn x (some (.seekA, .found)) s.clock.now ∧ t.tunA.rx.decoder = .empty)
      ∧ ((∀ x, ¬receivable s.radio.stations start x) →
          t.tunA.state = .seeking ∧ t.tunA.seekDir = some d ∧ t.tunA.seekStart = some start
            ∧ t.tunA.rx.freq = nextChannel d start ∧ t.tunA.rx.decoder = .empty ∧ t.tunA.trim = 360) := by
  set u := s.shiftOut .cockpit (clocked f) r with hu
  have from_ : u.tunA.seekFrom = start := (TunerA.seekFrom_eq _).trans hs.symm
  have accepted : seekABody [b] u = answer .accepted (u.seek d) := by
    have operand : directionOf (u8 [b] 0) = some d := hd
    have runs : u.power.state = .run := run
    simp [seekABody, operand, runs]
  obtain ⟨t, next, taken, offered⟩ := order_offered (links := byCockpit) hr (operands_carries hf) rfl accepted (happens_seek u d)
  refine ⟨t, next, taken, fun x hx first => ?_, fun nothing => ?_⟩
  · have found : u.seek d = u.retuneA x (.seekA, .found) := by
      have phase : listPhase u.radio.stations d start = some x := listPhase_eq_some wf hx first
      simp only [State.seek, from_, phase]
    rw [offered.tunA, found, State.retuneA_tunA]
    exact ⟨u.tunA.settlingOn_tunedTo x _ _, rfl⟩
  · have walks : u.seek d = (u.startWalk d start).reassess := by
      have phase : listPhase u.radio.stations d start = none := listPhase_eq_none nothing
      simp only [State.seek, from_, phase]
    rw [offered.tunA, walks, State.reassess_tunA, State.startWalk_eq, State.retuned_tunA]
    exact ⟨rfl, rfl, rfl, rfl, rfl, rfl⟩

/-! The end of a walk's channel. -/

/-- Tuner A with a channel of its walk measured. -/
def TunerA.measured (x : TunerA) (m : Meas) (now : Time) : TunerA := { x with rx := x.rx.measure m now }

theorem State.walkMeasured_eq (s : State) (m : Meas) : s.walkMeasured m =
    let v := s.withTunA (s.tunA.measured m s.clock.now)
    if 30 ≤ quality s.tunA.rx.freq.band m then v.retuneA s.tunA.rx.freq (.seekA, .found) else v := rfl

section
variable {s : State} {d : Direction} {start : Freq} (hs : s.tunA.state = .seeking) (hd : s.tunA.seekDir = some d)
  (hst : s.tunA.seekStart = some start)

include hd hst in
theorem State.walkOn_of_back (h : nextChannel d s.tunA.rx.freq = start) : s.walkOn = s.retuneA start (.seekA, .notFound) := by
  simp only [State.walkOn, hd, hst, h, if_true]

include hd hst in
theorem State.walkOn_of_on (h : nextChannel d s.tunA.rx.freq ≠ start) :
    s.walkOn = s.withTunA { s.tunA with rx := s.tunA.rx.tune (nextChannel d s.tunA.rx.freq) s.clock.now } := by
  simp only [State.walkOn, hd, hst, h, if_false]

/-- The walk at the end of a channel, its clock brought there and a measurement below the mark taken in. -/
def State.walked (s : State) (m : Option Meas) : State :=
  let u := s.reach (s.tunA.rx.since + milliseconds 8)
  match m with
  | some m => u.withTunA (s.tunA.measured m u.clock.now)
  | none => u

include hs in
theorem State.seekChannelEnd_of_good {m : Meas} (good : 30 ≤ quality s.tunA.rx.freq.band m) :
    s.seekChannelEnd (some m) = (s.walked (some m)).retuneA s.tunA.rx.freq (.seekA, .found) := by
  set u := s.reach (s.tunA.rx.since + milliseconds 8) with hu
  have measured : u.walkMeasured m = (s.walked (some m)).retuneA s.tunA.rx.freq (.seekA, .found) := by
    rw [State.walkMeasured_eq, State.reach_tunA]
    exact if_pos good
  have left : ((s.walked (some m)).retuneA s.tunA.rx.freq (.seekA, .found)).tunA.state ≠ .seeking := by
    rw [State.retuneA_tunA]
    exact fun h => by cases h
  simp only [State.seekChannelEnd, hs, ne_eq, not_true_eq_false, if_false, ← hu, measured, left]

include hs in
theorem State.seekChannelEnd_of_poor {m : Option Meas} (poor : ∀ x, m = some x → quality s.tunA.rx.freq.band x < 30) :
    s.seekChannelEnd m = (s.walked m).walkOn := by
  set u := s.reach (s.tunA.rx.since + milliseconds 8) with hu
  cases m with
  | none =>
    have seeks : u.tunA.state = .seeking := by rw [hu, State.reach_tunA, hs]
    simp only [State.seekChannelEnd, hs, ne_eq, not_true_eq_false, if_false, ← hu, seeks, if_true]
    rfl
  | some m =>
    have measured : u.walkMeasured m = s.walked (some m) := by
      rw [State.walkMeasured_eq, State.reach_tunA]
      exact if_neg (Nat.not_le.2 (poor m rfl))
    have seeks : (s.walked (some m)).tunA.state = .seeking := hs
    simp only [State.seekChannelEnd, hs, ne_eq, not_true_eq_false, if_false, ← hu, measured, seeks, if_true]

end

theorem happens_walked (s : State) (m : Option Meas) : Happens (.clock :: .ports :: .tunA :: reassessed) s (s.walked m) := by
  cases m with
  | none => exact (happens_reach s _).mono (by simp)
  | some m => exact happens_reach_withTunA s _ _

theorem State.walked_tunA (s : State) (m : Option Meas) : ∃ rx : Receiver, (s.walked m).tunA = { s.tunA with rx := rx }
    ∧ rx.freq = s.tunA.rx.freq := by
  cases m with
  | none => exact ⟨s.tunA.rx, s.reach_tunA _, rfl⟩
  | some m => exact ⟨s.tunA.rx.measure m _, rfl, rfl⟩

theorem State.walked_now (s : State) (m : Option Meas) :
    (s.walked m).clock.now = max s.clock.now (s.tunA.rx.since + milliseconds 8) := by
  cases m with
  | none => exact reach_now s _
  | some m => exact reach_now s _

/-- R77. -/
theorem seekChannelEnd_walks (s : State) (m : Option Meas) (d : Direction) (start : Freq) (hs : s.tunA.state = .seeking)
    (hd : s.tunA.seekDir = some d) (hst : s.tunA.seekStart = some start) :
    ∃ t, exec (.seekChannelEnd m) s = .next t ∧ Happens (.clock :: .ports :: .tunA :: reassessed) s t
      ∧ t.clock.now = max s.clock.now (s.tunA.rx.since + milliseconds 8)
      ∧ (∀ x, m = some x → 30 ≤ quality s.tunA.rx.freq.band x →
          t.tunA.settlingOn s.tunA.rx.freq (some (.seekA, .found)) t.clock.now)
      ∧ ((∀ x, m = some x → quality s.tunA.rx.freq.band x < 30) →
          (nextChannel d s.tunA.rx.freq = start → t.tunA.settlingOn start (some (.seekA, .notFound)) t.clock.now)
          ∧ (nextChannel d s.tunA.rx.freq ≠ start →
              t.tunA.state = .seeking ∧ t.tunA.rx.freq = nextChannel d s.tunA.rx.freq ∧ t.tunA.seekStart = some start)) := by
  set v := s.walked m with hv
  obtain ⟨rx, tunA, freq⟩ := s.walked_tunA m
  have walked : Happens (.clock :: .ports :: .tunA :: reassessed) s v := happens_walked s m
  have now : v.clock.now = _ := s.walked_now m
  have retunes : ∀ f r, s.seekChannelEnd m = v.retuneA f r →
      ∃ t, exec (.seekChannelEnd m) s = .next t ∧ Happens (.clock :: .ports :: .tunA :: reassessed) s t
        ∧ t.clock = v.clock ∧ t.tunA.settlingOn f (some r) t.clock.now := fun f r ended => by
    obtain ⟨t, next, happens, offered⟩ := tunerEvent_spec (f := fun s => s.seekChannelEnd m)
      (ended ▸ walked.trans ((happens_retuneA v f r).mono (by simp))) reassessed_sub_tunA
    rw [ended] at offered
    have clock : t.clock = v.clock := offered.clock_of_reassess.trans (v.retuneA_clock f r)
    refine ⟨t, next, happens, clock, ?_⟩
    rw [clock, offered.tunA_of_reassess, State.retuneA_tunA]
    exact v.tunA.settlingOn_tunedTo f _ _
  by_cases poor : ∀ x, m = some x → quality s.tunA.rx.freq.band x < 30
  · have ended : s.seekChannelEnd m = v.walkOn := State.seekChannelEnd_of_poor hs poor
    have refuse : ∀ {p : Prop} x, m = some x → 30 ≤ quality s.tunA.rx.freq.band x → p := fun x hx good =>
      absurd good (Nat.not_le.2 (poor x hx))
    have dir : v.tunA.seekDir = some d := by rw [tunA]; exact hd
    have from_ : v.tunA.seekStart = some start := by rw [tunA]; exact hst
    have at_ : v.tunA.rx.freq = s.tunA.rx.freq := by rw [tunA]; exact freq
    by_cases back : nextChannel d s.tunA.rx.freq = start
    · obtain ⟨t, next, happens, clock, settling⟩ := retunes _ _ (ended.trans (State.walkOn_of_back dir from_ (at_ ▸ back)))
      exact ⟨t, next, happens, clock ▸ now, refuse, fun _ => ⟨fun _ => settling, fun on => absurd back on⟩⟩
    · have on := ended.trans (State.walkOn_of_on dir from_ (at_ ▸ back))
      obtain ⟨t, next, happens, offered⟩ := tunerEvent_spec (f := fun s => s.seekChannelEnd m)
        (on ▸ walked.trans ((happens_withTunA v _).mono (by simp))) reassessed_sub_tunA
      rw [on] at offered
      refine ⟨t, next, happens, ?_, refuse, fun _ => ⟨fun h => absurd h back, fun _ => ?_⟩⟩
      · rw [offered.clock_of_reassess]; exact now
      · rw [offered.tunA_of_reassess, ← at_]
        exact ⟨by rw [State.withTunA_tunA, tunA]; exact hs, rfl, from_⟩
  · obtain ⟨x, hx⟩ := not_forall.1 poor
    obtain ⟨rfl, good⟩ := Classical.not_imp.1 hx
    obtain ⟨t, next, happens, clock, settling⟩ := retunes _ _ (State.seekChannelEnd_of_good hs (Nat.not_lt.1 good))
    exact ⟨t, next, happens, clock ▸ now, fun _ _ _ => settling, fun h => absurd h poor⟩

/-- Settles O24: the list phase finds the first frequency in the order in which the seek meets them, and a walk's channel ends with a
find, with the start come back to, or with the next channel. -/
theorem seeking : Obligations.Seeking := ⟨seekA_seeks, seekChannelEnd_walks⟩

end Sys2Proof.Machine
end

section
namespace Sys2Proof.Machine

/-! ### The choice of a candidate (R90) -/

theorem rejects_eq_false {xs : List Entry} (h : stationsWf xs) {k : Nat} :
    rejects xs k = false ↔ ∀ e ∈ xs, e.freq = ⟨.fm, k⟩ → e.rejected = none := by
  unfold rejects
  cases he : findEntry xs ⟨.fm, k⟩ with
  | none => simpa using fun e hm hf => absurd hf (findEntry_eq_none.1 he e hm)
  | some e =>
    obtain ⟨mem, freq⟩ := findEntry_eq_some he
    simp only [Option.isSome_eq_false_iff, Option.isNone_iff_eq_none]
    exact ⟨fun hr x hx hf => h.unique hx mem (hf.trans freq.symm) ▸ hr, fun hr => hr e mem freq⟩

theorem Freq.eq_mk_iff {f : Freq} {b : Band} {k : Nat} : f = ⟨b, k⟩ ↔ f.band = b ∧ f.khz = k := by
  cases f
  simp only [Freq.mk.injEq]

theorem State.mem_candidates {s : State} (h : stationsWf s.radio.stations) (hi : s.tunA.rx.decoder.data.identity.isSome = true)
    {k : Nat} : k ∈ s.candidates ↔ s.switchable k := by
  have listed : (∃ e ∈ s.radio.stations, (e.freq.band = .fm ∧ e.identity = s.tunA.rx.decoder.data.identity) ∧ e.freq.khz = k)
      ↔ ∃ e ∈ s.radio.stations, e.freq = ⟨.fm, k⟩ ∧ e.identity = s.tunA.rx.decoder.data.identity := by
    refine exists_congr fun e => and_congr_right fun _ => ?_
    rw [Freq.eq_mk_iff]
    tauto
  have alternate : k ∈ s.tunA.rx.decoder.data.alternates.getD [] ↔
      ∃ ks, s.tunA.rx.decoder.data.alternates = some ks ∧ k ∈ ks := by
    cases s.tunA.rx.decoder.data.alternates <;> simp
  unfold State.candidates State.switchable
  simp only [List.mem_filter, List.mem_append, List.mem_map, Bool.and_eq_true, decide_eq_true_eq, hi, and_true, Bool.not_eq_true',
    alternate, rejects_eq_false h, and_assoc]
  simp only [and_assoc] at listed
  rw [listed]

/-- `v` goes before `x` in the choice of R90 while Tuner B scans. -/
def Entry.beats (v x : Entry) : Prop := x.qs < v.qs ∨ (x.qs = v.qs ∧ v.freq.khz ≤ x.freq.khz)

/-- The one of two entries, the first of them before the other in the list, that the choice keeps. -/
def higher (best : Option Entry) (e : Entry) : Option Entry :=
  match best with
  | none => some e
  | some b => if b.qs < e.qs then some e else some b

theorem foldl_higher_some (ys : List Entry) (b : Entry) (sorted : (b :: ys).Pairwise fun x y => x.freq.khz < y.freq.khz) :
    ∃ v ∈ b :: ys, ys.foldl higher (some b) = some v ∧ ∀ x ∈ b :: ys, v.beats x := by
  induction ys generalizing b with
  | nil => exact ⟨b, by simp, rfl, by simp [Entry.beats]⟩
  | cons y ys ih =>
    obtain ⟨ahead, sorted'⟩ := List.pairwise_cons.1 sorted
    rw [List.foldl_cons]
    by_cases up : b.qs < y.qs
    · obtain ⟨v, hm, hv, best⟩ := ih y sorted'
      refine ⟨v, List.mem_cons_of_mem _ hm, ?_, List.forall_mem_cons.2 ⟨?_, best⟩⟩
      · rw [← hv, higher, if_pos up]
      · have tops := best y (by simp)
        unfold Entry.beats at tops ⊢
        omega
    · have behind : (b :: ys).Pairwise fun x y => x.freq.khz < y.freq.khz :=
        List.pairwise_cons.2 ⟨fun x hx => ahead x (List.mem_cons_of_mem _ hx), (List.pairwise_cons.1 sorted').2⟩
      obtain ⟨v, hm, hv, best⟩ := ih b behind
      have tops := best b (by simp)
      have later := ahead y (by simp)
      refine ⟨v, ?_, ?_, List.forall_mem_cons.2 ⟨tops, List.forall_mem_cons.2 ⟨?_, fun x hx => best x (List.mem_cons_of_mem _ hx)⟩⟩⟩
      · exact List.mem_cons.2 ((List.mem_cons.1 hm).imp_right (List.mem_cons_of_mem _))
      · rw [← hv, higher, if_neg up]
      · unfold Entry.beats at tops ⊢
        omega

/-- The entries among which R90 chooses while Tuner B scans. -/
def State.contenders (s : State) : List Entry :=
  s.radio.stations.filter fun e => e.freq.band = .fm && s.candidates.contains e.freq.khz && decide (s.tunA.rx.qs + 10 ≤ e.qs)

theorem State.bestListed_eq (s : State) : s.bestListed = (s.contenders.foldl higher none).map fun e => e.freq.khz := rfl

section
variable {s : State} (wf : stationsWf s.radio.stations) (hi : s.tunA.rx.decoder.data.identity.isSome = true)
include wf hi

theorem State.mem_contenders {e : Entry} : e ∈ s.contenders ↔
    e ∈ s.radio.stations ∧ e.freq.band = .fm ∧ s.switchable e.freq.khz ∧ s.tunA.rx.qs + 10 ≤ e.qs := by
  simp only [State.contenders, List.mem_filter, Bool.and_eq_true, decide_eq_true_eq, List.contains_iff_mem, State.mem_candidates wf hi,
    and_assoc]

theorem State.contenders_sorted : s.contenders.Pairwise fun x y => x.freq.khz < y.freq.khz := by
  refine (wf.2.1.sublist List.filter_sublist).imp_of_mem fun {a b} ha hb before => ?_
  have fm := ((State.mem_contenders wf hi).1 ha).2.1.trans ((State.mem_contenders wf hi).1 hb).2.1.symm
  obtain k | ⟨-, k⟩ := Freq.before_iff.1 before
  · rw [fm] at k
    exact absurd k (Nat.lt_irrefl _)
  · exact k

theorem State.bestListed_eq_some {e : Entry} (he : e ∈ s.contenders) (best : ∀ x ∈ s.contenders, e.beats x) :
    s.bestListed = some e.freq.khz := by
  have sorted := State.contenders_sorted wf hi
  rw [State.bestListed_eq]
  cases hc : s.contenders with
  | nil => rw [hc] at he; cases he
  | cons b ys =>
    rw [hc] at sorted he best
    obtain ⟨v, hm, hv, tops⟩ := foldl_higher_some ys b sorted
    have khz : v.freq.khz = e.freq.khz := by
      have h1 := tops e he
      have h2 := best v hm
      unfold Entry.beats at h1 h2
      omega
    show Option.map _ (ys.foldl higher (some b)) = _
    rw [hv, Option.map_some, khz]

theorem State.bestListed_eq_none (h : ∀ e ∈ s.radio.stations, e.freq.band = .fm → s.switchable e.freq.khz → e.qs < s.tunA.rx.qs + 10) :
    s.bestListed = none := by
  have none_ : s.contenders = [] := List.eq_nil_iff_forall_not_mem.2 fun e he => by
    obtain ⟨hm, fm, sw, hq⟩ := (State.mem_contenders wf hi).1 he
    exact absurd (h e hm fm sw) (Nat.not_lt.2 hq)
  rw [State.bestListed_eq, none_]
  rfl

end

/-! The candidate after the cursor. -/

theorem foldl_min_some (ks : List Nat) (b : Nat) : ∃ v ∈ b :: ks, ks.foldl (fun best k => match best with
      | none => some k
      | some b => some (min b k)) (some b) = some v ∧ ∀ j ∈ b :: ks, v ≤ j := by
  induction ks generalizing b with
  | nil => exact ⟨b, by simp, rfl, by simp⟩
  | cons k ks ih =>
    obtain ⟨v, hm, hv, least⟩ := ih (min b k)
    obtain ⟨below, rest⟩ := List.forall_mem_cons.1 least
    refine ⟨v, ?_, hv, List.forall_mem_cons.2 ⟨by omega, List.forall_mem_cons.2 ⟨by omega, rest⟩⟩⟩
    obtain rfl | hm := List.mem_cons.1 hm
    · rcases min_choice b k with h | h <;> simp [h]
    · simp [hm]

theorem lowest_eq_some {ks : List Nat} {k : Nat} (hk : k ∈ ks) (least : ∀ j ∈ ks, k ≤ j) : lowest ks = some k := by
  cases ks with
  | nil => cases hk
  | cons b ks =>
    obtain ⟨v, hm, hv, lower⟩ := foldl_min_some ks b
    have same : v = k := Nat.le_antisymm (lower k hk) (least v hm)
    exact same ▸ hv

theorem afterCursor_of_behind {c k : Nat} {ks : List Nat} (hk : k ∈ ks) (hc : c < k) (least : ∀ j ∈ ks, c < j → k ≤ j) :
    afterCursor (some c) ks = some k := by
  have first : lowest (ks.filter fun k => decide (c < k)) = some k :=
    lowest_eq_some (by simp [hk, hc]) fun j hj => by
      simp only [List.mem_filter, decide_eq_true_eq] at hj
      exact least j hj.1 hj.2
  rw [afterCursor, first]
  rfl

theorem afterCursor_of_wrap {cursor : Option Nat} {k : Nat} {ks : List Nat} (hk : k ∈ ks) (least : ∀ j ∈ ks, k ≤ j)
    (past : ∀ c, cursor = some c → ∀ j ∈ ks, j ≤ c) : afterCursor cursor ks = some k := by
  have first := lowest_eq_some hk least
  cases cursor with
  | none => exact first
  | some c =>
    have behind : ks.filter (fun k => decide (c < k)) = [] := List.filter_eq_nil_iff.2 fun j hj => by
      simpa using past c rfl j hj
    rw [afterCursor, behind, first]
    rfl

theorem afterCursor_nil (cursor : Option Nat) : afterCursor cursor [] = none := by cases cursor <;> rfl

end Sys2Proof.Machine
end

section
namespace Sys2Proof.Machine

/-! ### A measurement taken (R68 to R71) -/

/-- R69, R71: `y` is `x` with a measurement taken. -/
structure Receiver.Took (x : Receiver) (m : Meas) (y : Receiver) : Prop where
  last : y.last.q = quality x.freq.band m
  aside : y.aside = false
  freq : y.freq = x.freq
  qs : y.qs = if x.aside then quality x.freq.band m else (3 * x.qs + quality x.freq.band m + 2) / 4
  sep : y.sep = separation y.qs

theorem Receiver.took_measure (x : Receiver) (m : Meas) (now : Time) : x.Took m (x.measure m now) := ⟨rfl, rfl, rfl, rfl, rfl⟩

theorem Receiver.took_measureReleased (x : Receiver) (m : Meas) (now : Time) : x.Took m (x.measureReleased m now) := by
  unfold Receiver.measureReleased
  dsimp only
  split
  · exact x.took_measure m now
  · exact ⟨rfl, rfl, rfl, rfl, rfl⟩

theorem Receiver.measureReleased_decoder (x : Receiver) (m : Meas) (now : Time) : (x.measureReleased m now).decoder = x.decoder := by
  unfold Receiver.measureReleased
  dsimp only
  split <;> rfl

/-! ### A measurement in TUNED (R90) -/

/-- Tuner A's low count after a measurement in TUNED that leaves Qs `q` (R90). -/
def State.lowAfter (s : State) (q : Nat) : Nat :=
  if s.radio.afOn && s.tunA.rx.freq.band = .fm && s.tunA.rx.decoder.data.identity.isSome && decide (q < s.radio.afThreshold) then
    min 8 (s.tunA.low + 1)
  else 0

/-- TUNED with a measurement taken and the low count told of it. -/
def State.heardTuned (s : State) (m : Meas) : State :=
  let u := s.reach s.tunA.rx.due
  u.withTunA { s.tunA with rx := s.tunA.rx.measureReleased m u.clock.now,
                           low := s.lowAfter (s.tunA.rx.measureReleased m u.clock.now).qs }

theorem State.measuredA_of_tuned {s : State} (h : s.tunA.state = .tuned) (m : Meas) : s.measuredA m =
    if (s.heardTuned m).tunA.low = 8 then (s.heardTuned m).considerSwitch else s.heardTuned m := by
  set u := s.reach s.tunA.rx.due with hu
  have counted : (u.withTunA { s.tunA with rx := s.tunA.rx.measureReleased m u.clock.now }).lowNext =
      s.lowAfter (s.tunA.rx.measureReleased m u.clock.now).qs := by
    simp only [State.lowNext, State.lowAfter, State.withTunA_radio, State.withTunA_tunA, (s.tunA.rx.took_measureReleased m _).freq,
      Receiver.measureReleased_decoder, hu, State.reach_radio]
  have heard : u.tunedMeasured m = if (s.heardTuned m).tunA.low = 8 then (s.heardTuned m).considerSwitch else s.heardTuned m := by
    unfold State.tunedMeasured
    rw [State.reach_tunA]
    dsimp only
    rw [counted]
    rfl
  simp only [State.measuredA, h]
  exact heard

/-- Tuner A in a pre-fade toward `k`. -/
def TunerA.prefadingTo (x : TunerA) (p : CheckPhase) (k : Nat) (now : Time) : TunerA :=
  { x with state := .afCheck, phase := p, candidate := some k, rx := { x.rx.marked with since := now } }

/-- R90: what the consideration of a switch may do to Tuner A. -/
def TunerA.Considered (x y : TunerA) : Prop :=
  y = x ∨ y = { x with low := 0 } ∨ ∃ p k now, (p = .prefadeCheck ∨ p = .prefadeVerify) ∧ y = x.prefadingTo p k now

theorem State.considerSwitch_cases (s : State) : ∃ y, s.considerSwitch = s.withTunA y ∧ s.tunA.Considered y := by
  unfold State.considerSwitch
  split
  · exact ⟨s.tunA, rfl, .inl rfl⟩
  · split
    · split
      · exact ⟨_, rfl, .inr (.inr ⟨_, _, _, .inr rfl, rfl⟩)⟩
      · exact ⟨_, rfl, .inr (.inl rfl)⟩
    · split
      · exact ⟨_, rfl, .inr (.inr ⟨_, _, _, .inl rfl, rfl⟩)⟩
      · exact ⟨_, rfl, .inr (.inl rfl)⟩

/-- A measurement taken in any state in which Tuner A takes one that ends no walk, with the trim that it leaves. -/
theorem State.measuredA_takes {s : State} {m : Meas}
    (h : s.tunA.state = .tuned ∨ (s.tunA.state = .afCheck ∧ (s.tunA.phase = .prefadeCheck ∨ s.tunA.phase = .prefadeVerify))
      ∨ (s.tunA.state = .afVerify ∧ s.tunA.released = true)
      ∨ (s.tunA.state = .seeking ∧ quality s.tunA.rx.freq.band m < 30)) :
    ∃ y, s.measuredA m = (s.reach s.tunA.rx.due).withTunA y ∧ s.tunA.rx.Took m y.rx
      ∧ (y.state = .tuned ∨ (s.tunA.state = .afVerify ∧ y.state = .afVerify) → y.trim = softTrim y.rx.qs)
      ∧ (y.state = .afCheck ∨ y.state = .seeking → y.trim = 360) := by
  have taken := s.tunA.rx.took_measure m (s.reach s.tunA.rx.due).clock.now
  have released := s.tunA.rx.took_measureReleased m (s.reach s.tunA.rx.due).clock.now
  rcases h with hs | ⟨hs, hp⟩ | ⟨hs, hr⟩ | ⟨hs, hq⟩
  · have measured := State.measuredA_of_tuned hs m
    have heard : (s.heardTuned m).tunA.state = .tuned := hs
    have tuned : ∀ y, (s.heardTuned m).tunA.Considered y → s.measuredA m = (s.heardTuned m).withTunA y →
        ∃ y, s.measuredA m = (s.reach s.tunA.rx.due).withTunA y ∧ s.tunA.rx.Took m y.rx
          ∧ (y.state = .tuned ∨ (s.tunA.state = .afVerify ∧ y.state = .afVerify) → y.trim = softTrim y.rx.qs)
          ∧ (y.state = .afCheck ∨ y.state = .seeking → y.trim = 360) := fun y considered hy => by
      refine ⟨y, hy, ?_⟩
      rcases considered with rfl | rfl | ⟨p, k, now, -, rfl⟩
      · exact ⟨released, fun _ => by simp [TunerA.trim, TunerA.open, heard], by simp [heard]⟩
      · exact ⟨released, fun _ => by simp [TunerA.trim, TunerA.open, heard], by simp [heard]⟩
      · exact ⟨⟨released.last, released.aside, released.freq, released.qs, released.sep⟩, by simp [TunerA.prefadingTo],
          fun _ => rfl⟩
    split at measured
    · obtain ⟨y, hy, considered⟩ := (s.heardTuned m).considerSwitch_cases
      exact tuned y considered (measured.trans hy)
    · exact tuned _ (.inl rfl) measured
  · refine ⟨{ s.tunA with rx := s.tunA.rx.measure m (s.reach s.tunA.rx.due).clock.now }, ?_, taken, ?_, ?_⟩
    · have prefading : s.tunA.prefading = true := by rcases hp with hp | hp <;> simp [TunerA.prefading, hs, hp]
      simp only [State.measuredA, hs, prefading, if_true, State.reach_tunA]
    · simp [hs]
    · simp [TunerA.trim, TunerA.open, hs]
  · refine ⟨{ s.tunA with rx := s.tunA.rx.measureReleased m (s.reach s.tunA.rx.due).clock.now }, ?_, released, ?_, ?_⟩
    · simp only [State.measuredA, hs, hr, if_true, State.reach_tunA]
    · simp [TunerA.trim, TunerA.open, hs, hr]
    · simp [hs]
  · refine ⟨s.tunA.measured m (s.reach s.tunA.rx.due).clock.now, ?_, taken, ?_, ?_⟩
    · simp only [State.measuredA, hs]
      rw [State.walkMeasured_eq, State.reach_tunA]
      exact if_neg (Nat.not_le.2 hq)
    · simp [TunerA.measured, hs]
    · simp [TunerA.measured, TunerA.trim, TunerA.open, hs]

/-- R68 to R71, for Tuner A. -/
theorem tunerMeasurement_takesA (s : State) (m : Meas)
    (h : s.tunA.state = .tuned ∨ (s.tunA.state = .afCheck ∧ (s.tunA.phase = .prefadeCheck ∨ s.tunA.phase = .prefadeVerify))
      ∨ (s.tunA.state = .afVerify ∧ s.tunA.released = true)
      ∨ (s.tunA.state = .seeking ∧ quality s.tunA.rx.freq.band m < 30)) :
    ∃ t, exec (.tunerMeasurement .a m) s = .next t ∧ Happens (.clock :: .ports :: .tunA :: reassessed) s t
      ∧ t.tunA.rx.last.q = quality s.tunA.rx.freq.band m ∧ t.tunA.rx.aside = false ∧ t.tunA.rx.freq = s.tunA.rx.freq
      ∧ t.tunA.rx.qs = (if s.tunA.rx.aside then quality s.tunA.rx.freq.band m
          else (3 * s.tunA.rx.qs + quality s.tunA.rx.freq.band m + 2) / 4)
      ∧ t.tunA.rx.sep = separation t.tunA.rx.qs
      ∧ (t.tunA.state = .tuned ∨ (s.tunA.state = .afVerify ∧ t.tunA.state = .afVerify) → t.tunA.trim = softTrim t.tunA.rx.qs)
      ∧ (t.tunA.state = .afCheck ∨ t.tunA.state = .seeking → t.tunA.trim = 360) := by
  obtain ⟨y, measured, took, open_, shut⟩ := State.measuredA_takes h
  obtain ⟨t, next, happens, offered⟩ := tunerEvent_spec (f := fun s => s.measuredA m)
    (measured ▸ happens_reach_withTunA s _ y) reassessed_sub_tunA
  rw [measured] at offered
  refine ⟨t, next, happens, ?_⟩
  rw [offered.tunA_of_reassess]
  exact ⟨took.last, took.aside, took.freq, took.qs, took.sep, open_, shut⟩

/-- R68 to R71, R85, for Tuner B. -/
theorem tunerMeasurement_takesB (s : State) (m : Meas)
    (h : (s.tunB.state = .held ∧ s.tunB.holder.isSome = true ∧ s.tunB.settling = false)
      ∨ (s.tunB.state = .refresh ∧ s.power.state ≠ .run)) :
    ∃ t, exec (.tunerMeasurement .b m) s = .next t ∧ Happens (.clock :: .ports :: reassessed) s t
      ∧ t.tunB.rx.last.q = quality s.tunB.rx.freq.band m ∧ t.tunB.state = s.tunB.state
      ∧ t.tunB.rx.qs = (if s.tunB.rx.aside then quality s.tunB.rx.freq.band m
          else (3 * s.tunB.rx.qs + quality s.tunB.rx.freq.band m + 2) / 4)
      ∧ t.tunB.rx.sep = separation t.tunB.rx.qs
      ∧ t.tunB.trim = (if s.tunB.state = .held then softTrim t.tunB.rx.qs else 360) := by
  set u := s.reach s.tunB.rx.due with hu
  obtain ⟨rx, measured, took⟩ : ∃ rx, s.measuredB m = u.withTunB { s.tunB with rx := rx } ∧ s.tunB.rx.Took m rx := by
    rcases h with ⟨hs, -, hset⟩ | ⟨hs, -⟩
    · refine ⟨_, ?_, s.tunB.rx.took_measureReleased m u.clock.now⟩
      simp [State.measuredB, TunerB.open, hs, hset, hu]
    · refine ⟨_, ?_, s.tunB.rx.took_measure m u.clock.now⟩
      simp [State.measuredB, TunerB.open, TunerB.sweeping, hs, hu]
  have assigned : (u.withTunB { s.tunB with rx := rx }).followEligible.followWatch.assigned := by
    rcases h with ⟨hs, hh, -⟩ | ⟨-, hp⟩
    · exact State.willBeAssigned_of_held hs hh
    · exact State.willBeAssigned_of_parked (by simpa [hu] using hp)
  obtain ⟨t, next, happens, offered⟩ := tunerEvent_spec (f := fun s => s.measuredB m)
    (measured ▸ happens_reach_withTunB s _ _) reassessed_sub_tunB
  rw [measured] at offered
  refine ⟨t, next, happens, ?_⟩
  rw [offered.tunB, State.reassess_tunB_of_assigned assigned]
  refine ⟨took.last, rfl, took.qs, took.sep, ?_⟩
  rcases h with ⟨hs, -, hset⟩ | ⟨hs, -⟩
  · simp [TunerB.trim, TunerB.open, hs, hset]
  · simp [TunerB.trim, TunerB.open, hs]

/-! ### The formulas (R68, R70, R71) -/

theorem quality_formula (b : Band) (m : Meas) : (quality b m : Int) =
    max 0 (min 100 (2 * (m.level : Int) - 20 - (match b with | .fm => (m.multipath : Int) | .mw => 0) - (m.adjacent : Int) / 2)) := by
  cases b <;> simp only [quality, clampInt] <;> omega

theorem trim_formulas (q : Nat) : (20 ≤ q → softTrim q = 0) ∧ (q < 20 → softTrim q = (20 - (q : Int)) * 4)
    ∧ (60 ≤ q → separation q = 16) ∧ (q ≤ 30 → separation q = 0)
    ∧ (30 < q → q < 60 → separation q = (q - 30) * 16 / 30) := by
  refine ⟨fun h => if_neg (Nat.not_lt.2 h), fun h => if_pos h, fun h => if_pos h, fun h => ?_, fun h k => ?_⟩
  · rw [separation, if_neg (by omega), if_pos h]
  · rw [separation, if_neg (by omega), if_neg (by omega)]

/-! ### The eighth low measurement (R90) -/

/-- What of a state the choice of a candidate reads, once Tuner A's Qs is known. -/
structure SameChoice (s v : State) : Prop where
  stations : v.radio.stations = s.radio.stations
  decoder : v.tunA.rx.decoder = s.tunA.rx.decoder
  freq : v.tunA.rx.freq = s.tunA.rx.freq

theorem SameChoice.switchable {s v : State} (h : SameChoice s v) (k : Nat) : v.switchable k ↔ s.switchable k := by
  unfold State.switchable
  rw [h.stations, h.decoder, h.freq]

theorem State.considerSwitch_of_capturing {s : State} (h : s.shift.capturing .a = true) : s.considerSwitch = s := if_pos h

section
variable {s : State} (free : s.shift.capturing .a = false)
include free

theorem State.considerSwitch_verifies (hs : s.tunB.state = .scan) {k : Nat} (hk : s.bestListed = some k) :
    s.considerSwitch = s.startPrefade .prefadeVerify k := by
  simp only [State.considerSwitch, free, Bool.false_eq_true, if_false, hs, if_true, hk]

theorem State.considerSwitch_finds_none (hs : s.tunB.state = .scan) (hk : s.bestListed = none) :
    s.considerSwitch = s.withTunA { s.tunA with low := 0 } := by
  simp only [State.considerSwitch, free, Bool.false_eq_true, if_false, hs, if_true, hk]

theorem State.considerSwitch_checks (hs : s.tunB.state ≠ .scan) {k : Nat} (hk : afterCursor s.tunA.cursor s.candidates = some k) :
    s.considerSwitch = s.startPrefade .prefadeCheck k := by
  simp only [State.considerSwitch, free, Bool.false_eq_true, if_false, hs, hk]

theorem State.considerSwitch_steps_none (hs : s.tunB.state ≠ .scan) (hk : afterCursor s.tunA.cursor s.candidates = none) :
    s.considerSwitch = s.withTunA { s.tunA with low := 0 } := by
  simp only [State.considerSwitch, free, Bool.false_eq_true, if_false, hs, hk]

end

section
variable {v : State} (wf : stationsWf v.radio.stations) (hi : v.tunA.rx.decoder.data.identity.isSome = true)
  (hs : v.tunA.state = .tuned) (free : v.shift.capturing .a = false)
include wf hi hs free

/-- R90, while Tuner B scans. -/
theorem State.considerSwitch_scanning (scan : v.tunB.state = .scan) :
    (∀ e ∈ v.radio.stations, e.freq.band = .fm → v.switchable e.freq.khz → v.tunA.rx.qs + 10 ≤ e.qs →
      (∀ x ∈ v.radio.stations, x.freq.band = .fm → v.switchable x.freq.khz →
        x.qs < e.qs ∨ (x.qs = e.qs ∧ e.freq.khz ≤ x.freq.khz)) →
      v.considerSwitch.tunA.state = .afCheck ∧ v.considerSwitch.tunA.phase = .prefadeVerify
        ∧ v.considerSwitch.tunA.candidate = some e.freq.khz)
    ∧ ((∀ e ∈ v.radio.stations, e.freq.band = .fm → v.switchable e.freq.khz → e.qs < v.tunA.rx.qs + 10) →
      v.considerSwitch.tunA.state = .tuned ∧ v.considerSwitch.tunA.low = 0) := by
  refine ⟨fun e hm fm sw hq best => ?_, fun none_ => ?_⟩
  · have chosen : v.bestListed = some e.freq.khz :=
      State.bestListed_eq_some wf hi ((State.mem_contenders wf hi).2 ⟨hm, fm, sw, hq⟩) fun x hx => by
        obtain ⟨hm', fm', sw', -⟩ := (State.mem_contenders wf hi).1 hx
        exact best x hm' fm' sw'
    rw [State.considerSwitch_verifies free scan chosen]
    exact ⟨rfl, rfl, rfl⟩
  · rw [State.considerSwitch_finds_none free scan (State.bestListed_eq_none wf hi none_)]
    exact ⟨hs, rfl⟩

/-- R90, while Tuner B does not scan. -/
theorem State.considerSwitch_stepping (busy : v.tunB.state ≠ .scan) :
    (∀ k, v.switchable k →
      ((∃ c, v.tunA.cursor = some c ∧ c < k ∧ ∀ j, v.switchable j → c < j → k ≤ j)
        ∨ (∀ c, v.tunA.cursor = some c → ∀ j, v.switchable j → j ≤ c) ∧ ∀ j, v.switchable j → k ≤ j) →
      v.considerSwitch.tunA.state = .afCheck ∧ v.considerSwitch.tunA.phase = .prefadeCheck
        ∧ v.considerSwitch.tunA.candidate = some k)
    ∧ ((∀ k, ¬v.switchable k) → v.considerSwitch.tunA.state = .tuned ∧ v.considerSwitch.tunA.low = 0) := by
  have mem : ∀ {k}, k ∈ v.candidates ↔ v.switchable k := State.mem_candidates wf hi
  refine ⟨fun k sw next => ?_, fun none_ => ?_⟩
  · have chosen : afterCursor v.tunA.cursor v.candidates = some k := by
      rcases next with ⟨c, hc, behind, least⟩ | ⟨past, least⟩
      · rw [hc]
        exact afterCursor_of_behind (mem.2 sw) behind fun j hj => least j (mem.1 hj)
      · exact afterCursor_of_wrap (mem.2 sw) (fun j hj => least j (mem.1 hj)) fun c hc j hj => past c hc j (mem.1 hj)
    rw [State.considerSwitch_checks free busy chosen]
    exact ⟨rfl, rfl, rfl⟩
  · have empty : v.candidates = [] := List.eq_nil_iff_forall_not_mem.2 fun k hk => none_ k (mem.1 hk)
    rw [State.considerSwitch_steps_none free busy (by rw [empty, afterCursor_nil])]
    exact ⟨hs, rfl⟩

end

/-- What a measurement in TUNED leaves for the choice of a candidate. -/
theorem State.sameChoice_heardTuned (s : State) (m : Meas) : SameChoice s (s.heardTuned m) :=
  ⟨congrArg Radio.stations (s.reach_radio _), s.tunA.rx.measureReleased_decoder m _, (s.tunA.rx.took_measureReleased m _).freq⟩

theorem State.heardTuned_low {s : State} (fm : s.tunA.rx.freq.band = .fm) (on : s.radio.afOn = true) (low : 7 ≤ s.tunA.low)
    (hi : s.tunA.rx.decoder.data.identity.isSome = true) (m : Meas) : (s.heardTuned m).tunA.low =
      if (s.heardTuned m).tunA.rx.qs < s.radio.afThreshold then 8 else 0 := by
  have eighth : min 8 (s.tunA.low + 1) = 8 := by omega
  simp only [State.heardTuned, State.withTunA_tunA, State.lowAfter, fm, on, hi, decide_true, Bool.true_and, decide_eq_true_eq, eighth]

theorem State.considerSwitch_qs (s : State) : s.considerSwitch.tunA.rx.qs = s.tunA.rx.qs := by
  obtain ⟨y, hy, considered⟩ := s.considerSwitch_cases
  rw [hy, State.withTunA_tunA]
  rcases considered with rfl | rfl | ⟨p, k, now, -, rfl⟩ <;> rfl

/-- R90: at the eighth low measurement. -/
theorem tunerMeasurement_considers (s : State) (m : Meas) (hs : s.tunA.state = .tuned) (fm : s.tunA.rx.freq.band = .fm)
    (on : s.radio.afOn = true) (low : 7 ≤ s.tunA.low) (hi : s.tunA.rx.decoder.data.identity.isSome = true)
    (wf : stationsWf s.radio.stations) :
    ∃ t, exec (.tunerMeasurement .a m) s = .next t
      ∧ (s.radio.afThreshold ≤ t.tunA.rx.qs → t.tunA.state = .tuned ∧ t.tunA.low = 0)
      ∧ (t.tunA.rx.qs < s.radio.afThreshold → s.shift.running = true ∧ s.shift.captured = some .a →
          t.tunA.state = .tuned ∧ t.tunA.low = 8)
      ∧ (t.tunA.rx.qs < s.radio.afThreshold → ¬(s.shift.running = true ∧ s.shift.captured = some .a) → s.tunB.state = .scan →
          (∀ e ∈ s.radio.stations, e.freq.band = .fm → s.switchable e.freq.khz → t.tunA.rx.qs + 10 ≤ e.qs →
            (∀ x ∈ s.radio.stations, x.freq.band = .fm → s.switchable x.freq.khz →
              x.qs < e.qs ∨ (x.qs = e.qs ∧ e.freq.khz ≤ x.freq.khz)) →
            t.tunA.state = .afCheck ∧ t.tunA.phase = .prefadeVerify ∧ t.tunA.candidate = some e.freq.khz)
          ∧ ((∀ e ∈ s.radio.stations, e.freq.band = .fm → s.switchable e.freq.khz → e.qs < t.tunA.rx.qs + 10) →
            t.tunA.state = .tuned ∧ t.tunA.low = 0))
      ∧ (t.tunA.rx.qs < s.radio.afThreshold → ¬(s.shift.running = true ∧ s.shift.captured = some .a) → s.tunB.state ≠ .scan →
          (∀ k, s.switchable k →
            ((∃ c, s.tunA.cursor = some c ∧ c < k ∧ ∀ j, s.switchable j → c < j → k ≤ j)
              ∨ (∀ c, s.tunA.cursor = some c → ∀ j, s.switchable j → j ≤ c) ∧ ∀ j, s.switchable j → k ≤ j) →
            t.tunA.state = .afCheck ∧ t.tunA.phase = .prefadeCheck ∧ t.tunA.candidate = some k)
          ∧ ((∀ k, ¬s.switchable k) → t.tunA.state = .tuned ∧ t.tunA.low = 0)) := by
  have heard := State.heardTuned_low fm on low hi m
  have same := s.sameChoice_heardTuned m
  have measured := State.measuredA_of_tuned hs m
  set v := s.heardTuned m with hv
  obtain ⟨y, taken, -⟩ := State.measuredA_takes (s := s) (m := m) (.inl hs)
  obtain ⟨t, next, -, offered⟩ := tunerEvent_spec (f := fun s => s.measuredA m)
    (taken ▸ happens_reach_withTunA s _ y) reassessed_sub_tunA
  have tunA := offered.tunA_of_reassess
  refine ⟨t, next, ?_⟩
  rw [tunA, measured, heard]
  rcases Nat.lt_or_ge v.tunA.rx.qs s.radio.afThreshold with quiet | loud
  · have wf' : stationsWf v.radio.stations := same.stations ▸ wf
    have hi' : v.tunA.rx.decoder.data.identity.isSome = true := same.decoder ▸ hi
    have shift : v.shift = s.shift := s.reach_shift _
    have tunB : v.tunB = s.tunB := s.reach_tunB _
    have cursor : v.tunA.cursor = s.tunA.cursor := rfl
    rw [if_pos quiet, if_pos rfl, State.considerSwitch_qs]
    refine ⟨fun loud => absurd quiet (Nat.not_lt.2 loud), fun _ ⟨running, captured⟩ => ?_, fun _ free scan => ?_, fun _ free busy => ?_⟩
    · have capturing : v.shift.capturing .a = true := by rw [shift]; simp [ShiftBuffer.capturing, running, captured]
      rw [State.considerSwitch_of_capturing capturing]
      exact ⟨hs, by rw [heard, if_pos quiet]⟩
    · have idle : v.shift.capturing .a = false := by rw [shift]; simpa [ShiftBuffer.capturing] using free
      have chosen := State.considerSwitch_scanning wf' hi' hs idle (tunB ▸ scan)
      simp only [same.stations, same.switchable] at chosen
      exact chosen
    · have idle : v.shift.capturing .a = false := by rw [shift]; simpa [ShiftBuffer.capturing] using free
      have chosen := State.considerSwitch_stepping wf' hi' hs idle (tunB ▸ busy)
      simp only [cursor, same.switchable] at chosen
      exact chosen
  · rw [if_neg (Nat.not_lt.2 loud), if_neg (by decide)]
    have quietless : ∀ {p : Prop}, v.tunA.rx.qs < s.radio.afThreshold → p := fun quiet => absurd quiet (Nat.not_lt.2 loud)
    exact ⟨fun _ => ⟨hs, by rw [heard, if_neg (Nat.not_lt.2 loud)]⟩, quietless, quietless, quietless⟩

/-- Settles O26: every state in which a tuner takes a measurement takes it alike, and the consideration at the eighth low one chooses
among what `switchable` names. -/
theorem measurementSmooths : Obligations.MeasurementSmooths :=
  ⟨fun s m => ⟨tunerMeasurement_takesA s m, tunerMeasurement_takesB s m⟩, quality_formula, trim_formulas,
    tunerMeasurement_considers⟩

end Sys2Proof.Machine
end

section
namespace Sys2Proof.Machine

/-! ### A good group decoded (R72) -/

/-- R72: a group of identity `i` changes no identity that is present. -/
def Decoder.agrees (d : Decoder) (i : Nat) : Bool :=
  decide (d.lastIdentity ≠ some i ∨ d.data.identity = none ∨ d.data.identity = some i)

theorem Decoder.takeHead_of_agrees {d : Decoder} {g : DataGroup} (h : d.agrees g.identity.toNat = true) : d.takeHead g =
    { d with lastIdentity := some g.identity.toNat,
             data := { d.data with
               identity := if d.lastIdentity = some g.identity.toNat then some g.identity.toNat else d.data.identity,
               tp := some g.tp, ta := some g.ta } } := by
  have agrees := of_decide_eq_true h
  by_cases hl : d.lastIdentity = some g.identity.toNat
  · rcases agrees.resolve_left (not_not.2 hl) with hi | hi <;> simp [Decoder.takeHead, Decoder.takeIdentity, hl, hi]
  · simp [Decoder.takeHead, Decoder.takeIdentity, hl]

theorem Decoder.takeHead_of_disagrees {d : Decoder} {g : DataGroup} (h : d.agrees g.identity.toNat = false) : d.takeHead g =
    { data := { d.data with identity := some g.identity.toNat, name := none, alternates := none, tp := some g.tp, ta := some g.ta },
      lastIdentity := some g.identity.toNat, segments := List.replicate 4 none, altCount := none, altParts := [] }
      ∧ d.lastIdentity = some g.identity.toNat := by
  obtain ⟨hl, hn, hi⟩ := by simpa only [not_or, not_not] using of_decide_eq_false h
  obtain ⟨j, hj⟩ := Option.ne_none_iff_exists'.1 hn
  have other : j ≠ g.identity.toNat := fun same => hi (by rw [hj, same])
  exact ⟨by simp [Decoder.takeHead, Decoder.takeIdentity, hl, hj, other], hl⟩

section
variable (d : Decoder) (g : DataGroup)

theorem Decoder.takeHead_lastIdentity : (d.takeHead g).lastIdentity = some g.identity.toNat := by
  cases h : d.agrees g.identity.toNat with
  | true => rw [Decoder.takeHead_of_agrees h]
  | false => rw [(Decoder.takeHead_of_disagrees h).1]

theorem Decoder.takeHead_identity : (d.takeHead g).data.identity =
    if d.lastIdentity = some g.identity.toNat then some g.identity.toNat else d.data.identity := by
  cases h : d.agrees g.identity.toNat with
  | true => rw [Decoder.takeHead_of_agrees h]
  | false =>
    obtain ⟨head, last⟩ := Decoder.takeHead_of_disagrees h
    rw [head, if_pos last]

theorem Decoder.takeHead_name : (d.takeHead g).data.name = if d.agrees g.identity.toNat then d.data.name else none := by
  cases h : d.agrees g.identity.toNat with
  | true => rw [Decoder.takeHead_of_agrees h]; rfl
  | false => rw [(Decoder.takeHead_of_disagrees h).1]; rfl

theorem Decoder.takeHead_alternates :
    (d.takeHead g).data.alternates = if d.agrees g.identity.toNat then d.data.alternates else none := by
  cases h : d.agrees g.identity.toNat with
  | true => rw [Decoder.takeHead_of_agrees h]; rfl
  | false => rw [(Decoder.takeHead_of_disagrees h).1]; rfl

theorem Decoder.takeHead_segments :
    (d.takeHead g).segments = if d.agrees g.identity.toNat then d.segments else List.replicate 4 none := by
  cases h : d.agrees g.identity.toNat with
  | true => rw [Decoder.takeHead_of_agrees h]; rfl
  | false => rw [(Decoder.takeHead_of_disagrees h).1]; rfl

/-- The unfinished alternate list to which a segment with `count` belongs. -/
theorem Decoder.takeHead_altParts (count : Nat) :
    (if (d.takeHead g).altCount = some count then (d.takeHead g).altParts else List.replicate count none) =
      if d.agrees g.identity.toNat = true ∧ d.altCount = some count then d.altParts else List.replicate count none := by
  cases h : d.agrees g.identity.toNat with
  | true => rw [Decoder.takeHead_of_agrees h]; simp
  | false => rw [(Decoder.takeHead_of_disagrees h).1]; simp

theorem Decoder.takeSegment_lastIdentity (n : Nat) (c0 c1 : Byte) : (d.takeSegment n c0 c1).lastIdentity = d.lastIdentity := by
  unfold Decoder.takeSegment
  split
  · rfl
  · dsimp only; split <;> rfl

theorem Decoder.takeAlternates_lastIdentity (n p f0 f1 : Nat) :
    (d.takeAlternates n p f0 f1).lastIdentity = d.lastIdentity := by
  unfold Decoder.takeAlternates
  dsimp only
  generalize placeAlternate _ (p + 1) f1 = parts
  split <;> rfl

theorem Decoder.take_lastIdentity : (d.take g).lastIdentity = some g.identity.toNat := by
  rw [Decoder.take_eq, ← d.takeHead_lastIdentity g]
  cases g.payload with
  | name n c0 c1 => exact Decoder.takeSegment_lastIdentity _ _ _ _
  | alternates n p f0 f1 => exact Decoder.takeAlternates_lastIdentity _ _ _ _ _

end

/-! The name. -/

theorem Decoder.takeSegment_of_some {d : Decoder} {x : List Byte} (h : d.data.name = some x) (n : Nat) (c0 c1 : Byte) :
    (d.takeSegment n c0 c1).data.name = some ((x.set (2 * n) c0).set (2 * n + 1) c1) := by
  simp only [Decoder.takeSegment, h]
  rfl

theorem allPresent_eq_false {α : Type} {xs : List (Option α)} (h : none ∈ xs) : allPresent xs = false := by
  simpa [allPresent] using h

section
variable {d : Decoder} (h : d.data.name = none) (n : Nat) (c0 c1 : Byte)
include h

theorem Decoder.takeSegment_segments : (d.takeSegment n c0 c1).segments = d.segments.set n (some (c0, c1)) := by
  simp only [Decoder.takeSegment, h]
  split <;> rfl

theorem Decoder.takeSegment_incomplete (hn : none ∈ d.segments.set n (some (c0, c1))) : (d.takeSegment n c0 c1).data.name = none := by
  simp only [Decoder.takeSegment, h, allPresent_eq_false hn, Bool.false_eq_true, if_false]

theorem Decoder.takeSegment_complete {p0 p1 p2 p3 : Byte × Byte}
    (hp : d.segments.set n (some (c0, c1)) = [some p0, some p1, some p2, some p3]) :
    (d.takeSegment n c0 c1).data.name = some [p0.1, p0.2, p1.1, p1.2, p2.1, p2.2, p3.1, p3.2] := by
  simp only [Decoder.takeSegment, h, hp]
  rfl

end

/-! The alternate list. -/

/-- The unfinished list after a segment. -/
def Decoder.partsAfter (d : Decoder) (count p f0 f1 : Nat) : List (Option Nat) :=
  placeAlternate (placeAlternate (if d.altCount = some count then d.altParts else List.replicate count none) p f0) (p + 1) f1

theorem Decoder.takeAlternates_incomplete {d : Decoder} {count p f0 f1 : Nat} (h : none ∈ d.partsAfter count p f0 f1) :
    d.takeAlternates count p f0 f1 = { d with altCount := some count, altParts := d.partsAfter count p f0 f1 } :=
  if_neg (show ¬allPresent (d.partsAfter count p f0 f1) = true by rw [allPresent_eq_false h]; decide)

theorem Decoder.takeAlternates_complete {d : Decoder} {count p f0 f1 : Nat} {xs : List Nat}
    (h : d.partsAfter count p f0 f1 = xs.map some) : d.takeAlternates count p f0 f1 =
      { d with data := { d.data with alternates := some xs }, altCount := none, altParts := [] } := by
  have present : allPresent (d.partsAfter count p f0 f1) = true := by rw [h]; simp [allPresent]
  have listed : (d.partsAfter count p f0 f1).filterMap id = xs := by rw [h]; simp
  refine (if_pos present).trans ?_
  rw [← listed]
  rfl

/-- R72, all of what a good group leaves. -/
structure Decoder.TookGroup (d : Decoder) (g : DataGroup) (e : Decoder) (same : Bool) : Prop where
  flags : e.data.tp = some g.tp ∧ e.data.ta = some g.ta ∧ e.lastIdentity = some g.identity.toNat
  identity : e.data.identity = if d.lastIdentity = some g.identity.toNat then some g.identity.toNat else d.data.identity
  name : ∀ (n : Fin 4) (c0 c1 : Byte), g.payload = .name n c0 c1 →
    e.data.alternates = (if same then d.data.alternates else none)
    ∧ (same = true → ∀ x, d.data.name = some x → e.data.name = some ((x.set (2 * n.val) c0).set (2 * n.val + 1) c1))
    ∧ ∀ segs, segs = (if same then d.segments else List.replicate 4 none).set n.val (some (c0, c1)) →
        (same = false ∨ d.data.name = none) → e.segments = segs
          ∧ (none ∈ segs → e.data.name = none)
          ∧ ∀ p0 p1 p2 p3 : Byte × Byte, segs = [some p0, some p1, some p2, some p3] →
              e.data.name = some [p0.1, p0.2, p1.1, p1.2, p2.1, p2.2, p3.1, p3.2]
  alternates : ∀ (count p f0 f1 : Nat), g.payload = .alternates count p f0 f1 →
    e.data.name = (if same then d.data.name else none)
    ∧ ∀ before mid parts : List (Option Nat),
        before = (if same = true ∧ d.altCount = some count then d.altParts else List.replicate count none) →
        mid = (if Freq.onRaster ⟨.fm, f0⟩ then before.set p (some f0) else before) →
        parts = (if Freq.onRaster ⟨.fm, f1⟩ then mid.set (p + 1) (some f1) else mid) →
        (none ∈ parts → e.altParts = parts ∧ e.altCount = some count
          ∧ e.data.alternates = if same then d.data.alternates else none)
        ∧ ∀ xs : List Nat, parts = xs.map some → e.data.alternates = some xs ∧ e.altCount = none

theorem Decoder.tookGroup_take (d : Decoder) (g : DataGroup) : d.TookGroup g (d.take g) (d.agrees g.identity.toNat) where
  flags := ⟨d.take_tp g, d.take_ta g, d.take_lastIdentity g⟩
  identity := (d.take_identity g).trans (d.takeHead_identity g)
  name n c0 c1 hp := by
    have taken : d.take g = (d.takeHead g).takeSegment n.val c0 c1 := by rw [Decoder.take_eq, hp]
    rw [taken]
    refine ⟨?_, fun same x hx => ?_, fun segs hs fresh => ?_⟩
    · rw [Decoder.takeSegment_keeps]
      exact d.takeHead_alternates g
    · exact Decoder.takeSegment_of_some (by rw [d.takeHead_name, if_pos same, hx]) _ _ _
    · have absent : (d.takeHead g).data.name = none := by
        rw [d.takeHead_name]
        rcases fresh with h | h <;> simp [h]
      rw [← d.takeHead_segments] at hs
      subst hs
      exact ⟨Decoder.takeSegment_segments absent _ _ _, Decoder.takeSegment_incomplete absent _ _ _,
        fun _ _ _ _ => Decoder.takeSegment_complete absent _ _ _⟩
  alternates count p f0 f1 hp := by
    have taken : d.take g = (d.takeHead g).takeAlternates count p f0 f1 := by rw [Decoder.take_eq, hp]
    rw [taken]
    refine ⟨?_, fun before mid parts hb hm hq => ?_⟩
    · rw [Decoder.takeAlternates_keeps]
      exact d.takeHead_name g
    · have after : (d.takeHead g).partsAfter count p f0 f1 = parts := by
        rw [Decoder.partsAfter, d.takeHead_altParts, ← hb, hq, hm]
        rfl
      rw [← after]
      refine ⟨fun hn => ?_, fun xs hx => ?_⟩
      · rw [Decoder.takeAlternates_incomplete hn]
        exact ⟨rfl, rfl, d.takeHead_alternates g⟩
      · rw [Decoder.takeAlternates_complete hx]
        exact ⟨rfl, rfl⟩

end Sys2Proof.Machine
end

section
namespace Sys2Proof.Machine

/-! ### A group that a tuner takes (R72) -/

theorem State.judgeIdentity_of_state {s : State} (h : s.tunA.state ≠ .afVerify) : s.judgeIdentity = s := by
  unfold State.judgeIdentity
  split
  · exact absurd ‹_› h
  · rfl

/-- The state with a tuner's group taken. -/
def State.grouped (s : State) (u : TunerId) (g : DataGroup) : State :=
  s.setReceiver u ((s.receiver u).takeGroup g s.clock.now)

theorem State.groupA_of_tuned {s : State} (h : s.tunA.state = .tuned) (fm : s.tunA.rx.freq.band = .fm) (g : DataGroup) :
    s.groupA g = s.grouped .a g := by
  have decodes : s.tunA.decodes = true := by simp [TunerA.decodes, fm, h]
  exact (if_pos decodes).trans (State.judgeIdentity_of_state (by rw [State.withTunA_tunA, h]; decide))

theorem State.groupB_of_open {s : State} (h : s.tunB.open = true) (fm : s.tunB.rx.freq.band = .fm) (g : DataGroup) :
    s.groupB g = s.grouped .b g := if_pos (by simp [TunerB.decodes, fm, h])

theorem happens_setReceiver (s : State) (u : TunerId) (x : Receiver) : Happens (.tunA :: reassessed) s (s.setReceiver u x) := by
  cases u with
  | a => exact (happens_withTunA s _).mono (by simp)
  | b => exact (happens_withTunB s _).mono (by simp [reassessed])

theorem Offered.receiver_of_reassess {v t : State} (h : Offered v.reassess t) {u : TunerId}
    (stays : u = .a ∨ (v.tunB.state = .held ∧ v.tunB.holder.isSome = true)) : t.receiver u = v.receiver u := by
  cases u with
  | a => exact congrArg TunerA.rx h.tunA_of_reassess
  | b =>
    obtain ⟨held, holder⟩ := stays.resolve_left (by decide)
    exact congrArg TunerB.rx (h.tunB.trans (State.reassess_tunB_of_assigned (State.willBeAssigned_of_held held holder)))

/-- The event of a group is the group taken, with a new assessment behind it. -/
theorem dataGroup_spec {s : State} {u : TunerId} {g : DataGroup}
    (h : (u = .a ∧ s.tunA.state = .tuned) ∨ (u = .b ∧ s.tunB.open = true)) (fm : (s.receiver u).freq.band = .fm) :
    ∃ t, exec (.dataGroup u g) s = .next t ∧ Happens (.tunA :: reassessed) s t ∧ Offered (s.grouped u g).reassess t := by
  have happens : Happens (.tunA :: reassessed) s (s.grouped u g) := happens_setReceiver s u _
  rcases h with ⟨rfl, h⟩ | ⟨rfl, h⟩
  · have taken := State.groupA_of_tuned h fm g
    obtain ⟨t, next, happens, offered⟩ := tunerEvent_spec (f := fun s => s.groupA g) (taken ▸ happens) (List.subset_cons_self _ _)
    rw [taken] at offered
    exact ⟨t, next, happens, offered⟩
  · have taken := State.groupB_of_open h fm g
    obtain ⟨t, next, happens, offered⟩ := tunerEvent_spec (f := fun s => s.groupB g) (taken ▸ happens) (List.subset_cons_self _ _)
    rw [taken] at offered
    exact ⟨t, next, happens, offered⟩

/-- R72, with Tuner A in TUNED or Tuner B held. -/
theorem dataGroup_decodes {s : State} {u : TunerId} {g : DataGroup}
    (h : (u = .a ∧ s.tunA.state = .tuned) ∨ (u = .b ∧ s.tunB.state = .held ∧ s.tunB.holder.isSome = true ∧ s.tunB.settling = false))
    (fm : (s.receiver u).freq.band = .fm) :
    ∃ t, exec (.dataGroup u g) s = .next t ∧ Happens (.tunA :: reassessed) s t
      ∧ (t.receiver u).decoder = (s.receiver u).decoder.take g := by
  have takes : (u = .a ∧ s.tunA.state = .tuned) ∨ (u = .b ∧ s.tunB.open = true) :=
    h.imp_right fun ⟨hu, held, _, settled⟩ => ⟨hu, by simp [TunerB.open, held, settled]⟩
  have stays : u = .a ∨ ((s.grouped u g).tunB.state = .held ∧ (s.grouped u g).tunB.holder.isSome = true) := by
    rcases h with ⟨rfl, -⟩ | ⟨rfl, held, holder, -⟩
    · exact .inl rfl
    · exact .inr ⟨held, holder⟩
  obtain ⟨t, next, happens, offered⟩ := dataGroup_spec (g := g) takes fm
  refine ⟨t, next, happens, ?_⟩
  rw [offered.receiver_of_reassess stays, State.grouped, State.setReceiver_receiver, if_pos rfl]
  rfl

/-- R72: 2 s without a group. -/
theorem dataTimeout_lapses (s : State) (u : TunerId) (d : Decoded) (hd : d = (s.receiver u).decoder.data)
    (h : u = .a ∨ (s.tunB.state = .held ∧ s.tunB.holder.isSome = true)) (some_ : d.tp.isSome = true ∨ d.ta.isSome = true) :
    ∃ t, exec (.dataTimeout u) s = .next t ∧ Happens (.clock :: .ports :: .tunA :: reassessed) s t
      ∧ t.clock.now = max s.clock.now ((s.receiver u).groupAt + seconds 2)
      ∧ (t.receiver u).decoder.data = { d with tp := none, ta := none } := by
  subst hd
  set v := s.reach ((s.receiver u).groupAt + seconds 2) with hv
  have receiver : v.receiver u = s.receiver u := by
    cases u with
    | a => exact congrArg TunerA.rx (s.reach_tunA _)
    | b => exact congrArg TunerB.rx (s.reach_tunB _)
  set r := { s.receiver u with decoder := { (s.receiver u).decoder with
    data := { (s.receiver u).decoder.data with tp := none, ta := none } } } with hr
  have lapsed : s.dataLapsed u = v.setReceiver u r := by
    have due : ¬((s.receiver u).decoder.data.tp.isNone && (s.receiver u).decoder.data.ta.isNone) = true := by
      rcases some_ with h | h <;> simp [Option.isSome_iff_ne_none.1 h]
    refine (if_neg due).trans ?_
    rw [← hv, receiver]
  have happens : Happens (.clock :: .ports :: .tunA :: reassessed) s (s.dataLapsed u) := by
    rw [lapsed]
    exact ((happens_reach s _).mono (by simp)).trans ((happens_setReceiver v u r).mono (by simp))
  obtain ⟨t, next, happens, offered⟩ := tunerEvent_spec (f := fun s => s.dataLapsed u) happens reassessed_sub_tunA
  rw [lapsed] at offered
  have stays : u = .a ∨ ((v.setReceiver u r).tunB.state = .held ∧ (v.setReceiver u r).tunB.holder.isSome = true) := by
    cases u with
    | a => exact .inl rfl
    | b =>
      obtain ⟨held, holder⟩ := h.resolve_left (by decide)
      have tunB : v.tunB = s.tunB := s.reach_tunB _
      exact .inr ⟨(congrArg TunerB.state tunB).trans held, (congrArg (fun x => x.holder.isSome) tunB).trans holder⟩
  refine ⟨t, next, happens, ?_, ?_⟩
  · rw [offered.clock_of_reassess, (happens_setReceiver v u r).blocks.2 .clock (by decide), reach_now]
  · rw [offered.receiver_of_reassess stays, State.setReceiver_receiver, if_pos rfl]

end Sys2Proof.Machine
end

section
namespace Sys2Proof.Machine

/-! ### An announcement's start and end (R99, R100, R109 to R111) -/

theorem fallLatched_fallAll (s : State) (c : Nat) (hc : c < 16) : FallLatched c s (s.fallAll c) := fun k hk => by
  have bit : (conditionBit c true).getLsbD c = true := by simp [conditionBit, BitVec.getLsbD_ofNat, hc, -BitVec.ofNat_pow]
  simp [State.fallAll, LinkState.offer, hk, bit]

theorem FallLatched.kept {c : Nat} {s t u : State} (h : FallLatched c s t) (k : LatchesKept t u) : FallLatched c s u :=
  fun l hl => (k l c).2 (h l hl)

theorem FallLatched.of_undisturbed {c : Nat} {s t u : State} (h : LinksUndisturbed s t) (k : FallLatched c t u) : FallLatched c s u :=
  fun l hl => k l ((h l).2.1 ▸ hl)

theorem Offered.closes {u t : State} (h : Offered u t) : Closes u t :=
  ⟨h.table, h.traffic, h.shift, h.advisories, fun k c => (h.latched k c).1⟩

theorem happens_onAir (s : State) : Happens [.traffic] s s.onAir :=
  (happens_withTraffic s _).trans ((happens_riseAll _ 2).mono (by simp))

theorem happens_offAir (s : State) : Happens [.traffic] s s.offAir :=
  (happens_withTraffic s _).trans ((happens_fallAll _ 2).mono (by simp))

@[simp] theorem State.onAir_table (s : State) : s.onAir.table = s.table := (happens_onAir s).blocks.2 .table (by decide)
@[simp] theorem State.onAir_shift (s : State) : s.onAir.shift = s.shift := (happens_onAir s).blocks.2 .shift (by decide)
@[simp] theorem State.onAir_store (s : State) : s.onAir.store = s.store := (happens_onAir s).blocks.2 .store (by decide)
@[simp] theorem State.offAir_table (s : State) : s.offAir.table = s.table := (happens_offAir s).blocks.2 .table (by decide)
@[simp] theorem State.offAir_shift (s : State) : s.offAir.shift = s.shift := (happens_offAir s).blocks.2 .shift (by decide)

@[simp] theorem State.onAir_traffic (s : State) : s.onAir.traffic = { s.traffic with announcing := true, outcome := some .none } :=
  (happens_riseAll _ 2).blocks.2 .traffic (by decide)

@[simp] theorem State.offAir_traffic (s : State) : s.offAir.traffic = { s.traffic with announcing := false, outcome := none } :=
  (happens_fallAll _ 2).blocks.2 .traffic (by decide)

@[simp] theorem State.onAir_claim (s : State) (k : Nat) : s.onAir.claim k = s.claim k := by rw [State.claim, s.onAir_table]; rfl
@[simp] theorem State.offAir_claim (s : State) (k : Nat) : s.offAir.claim k = s.claim k := by rw [State.claim, s.offAir_table]; rfl

theorem riseLatched_onAir (s : State) : RiseLatched 2 s s.onAir :=
  .of_undisturbed (happens_withTraffic s _).links (riseLatched_riseAll _ 2 (by decide))

theorem fallLatched_offAir (s : State) : FallLatched 2 s s.offAir :=
  .of_undisturbed (happens_withTraffic s _).links (fallLatched_fallAll _ 2 (by decide))

theorem State.onAir_advisories (s : State) (k : Link) : (s.onAir.link k).advisories = (s.link k).advisories := by
  unfold State.onAir State.riseAll
  rw [State.offerAll_link]
  rfl

/-! What a change of the Claim Table leaves of an announcement. -/

/-- `t` has the announcement of `s`, its outcome apart. -/
def SameAnnouncement (s t : State) : Prop :=
  t.traffic.announcing = s.traffic.announcing ∧ t.traffic.source = s.traffic.source

theorem SameAnnouncement.trans {s t u : State} (h : SameAnnouncement s t) (k : SameAnnouncement t u) : SameAnnouncement s u :=
  ⟨k.1.trans h.1, k.2.trans h.2⟩

theorem SameAnnouncement.of_traffic {s t : State} (h : t.traffic = s.traffic) : SameAnnouncement s t := by
  unfold SameAnnouncement
  rw [h]
  exact ⟨rfl, rfl⟩

theorem sameAnnouncement_post (s : State) (h : Nat) (c : Claim) : SameAnnouncement s (s.post h c) := by
  unfold SameAnnouncement
  rw [s.post_memo]
  exact ⟨rfl, rfl⟩

theorem sameAnnouncement_considerMemo (s : State) (v : TunerId) : SameAnnouncement s (s.considerMemo v) := by
  unfold State.considerMemo
  split
  · exact .of_traffic rfl
  · split
    · split
      · exact ⟨rfl, rfl⟩
      · exact ⟨rfl, rfl⟩
    · exact ⟨rfl, rfl⟩
    · exact ⟨rfl, rfl⟩
    all_goals exact .of_traffic rfl

theorem sameAnnouncement_replayHeld (s : State) : SameAnnouncement s s.replayHeld :=
  sameAnnouncement_post (s.withShift { s.shift with state := .memoReplay, running := false }) radioHandle (radioClaim .shift)

theorem sameAnnouncement_tableChanged (s : State) : SameAnnouncement s s.tableChanged := by
  have quiet : s.memoless → SameAnnouncement s s.tableChanged := fun h => by
    rw [State.tableChanged_of_memoless h]
    split
    · exact sameAnnouncement_considerMemo s _
    · exact .of_traffic rfl
  cases h : s.shift.state with
  | off => exact quiet (.inl h)
  | capture => exact quiet (.inr (.inl h))
  | replay => exact quiet (.inr (.inr h))
  | memoCapture =>
    rw [State.tableChanged_of_memoCapture h]
    split <;> exact .of_traffic rfl
  | memoReplay =>
    rw [State.tableChanged_of_memoReplay h]
    exact .of_traffic rfl
  | memoHeld =>
    cases hq : s.traffic.retained with
    | none =>
      rw [State.tableChanged_of_none h hq]
      exact .of_traffic rfl
    | some q =>
      rw [State.tableChanged_of_memoHeld h hq]
      split
      · exact sameAnnouncement_replayHeld s
      · exact .of_traffic rfl

/-! The start. -/

/-- The announcement's claim posted. -/
def State.aired (s : State) (u : TunerId) : State := s.onAir.post radioHandle (radioClaim (sourceOfTuner u))

/-- A held memo added to (R111). -/
def State.resumedMemo (s : State) (u : TunerId) : State :=
  let p := s.aired u
  (p.withTraffic { p.traffic with retained := none, outcome := some .captured }).withShift
    { p.shift with state := .memoCapture, captured := some u, running := true }

theorem State.startAnnouncement_of_memoless {s : State} (h : s.memoless) (u : TunerId) :
    s.startAnnouncement u = (s.aired u).tableChanged := by
  have shift := s.onAir_shift
  unfold State.onAir at shift
  rcases h with h | h | h <;> simp only [State.startAnnouncement, shift, h] <;> rfl

theorem State.startAnnouncement_of_memoHeld {s : State} (h : s.shift.state = .memoHeld) (u : TunerId) :
    s.startAnnouncement u = if (s.resumedMemo u).radioIsBase then (s.resumedMemo u).replayMemo else s.resumedMemo u := by
  have shift := s.onAir_shift
  unfold State.onAir at shift
  simp only [State.startAnnouncement, shift, h]
  rfl

theorem State.startAnnouncement_of_memoReplay {s : State} (h : s.shift.state = .memoReplay) (u : TunerId) :
    s.startAnnouncement u = (s.onAir.withTraffic { s.onAir.traffic with outcome := some .captured }).withShift
      { s.onAir.shift with captured := some u, running := true } := by
  have shift : s.onAir.shift.state = .memoReplay := by rw [State.onAir_shift]; exact h
  unfold State.onAir at shift
  simp only [State.startAnnouncement, shift]
  rfl

theorem State.startAnnouncement_of_memoCapture {s : State} (h : s.shift.state = .memoCapture) (u : TunerId) :
    s.startAnnouncement u = s.onAir := by
  have shift := s.onAir_shift
  unfold State.onAir at shift
  simp only [State.startAnnouncement, shift, h]
  rfl

theorem sameAnnouncement_resumedMemo (s : State) (u : TunerId) : SameAnnouncement s.onAir (s.resumedMemo u) :=
  sameAnnouncement_post s.onAir radioHandle (radioClaim (sourceOfTuner u))

theorem sameAnnouncement_startAnnouncement (s : State) (u : TunerId) : SameAnnouncement s.onAir (s.startAnnouncement u) := by
  have quiet : s.memoless → SameAnnouncement s.onAir (s.startAnnouncement u) := fun h => by
    rw [State.startAnnouncement_of_memoless h]
    exact (sameAnnouncement_post _ _ _).trans (sameAnnouncement_tableChanged _)
  cases h : s.shift.state with
  | off => exact quiet (.inl h)
  | capture => exact quiet (.inr (.inl h))
  | replay => exact quiet (.inr (.inr h))
  | memoCapture =>
    rw [State.startAnnouncement_of_memoCapture h]
    exact .of_traffic rfl
  | memoReplay =>
    rw [State.startAnnouncement_of_memoReplay h]
    exact ⟨rfl, rfl⟩
  | memoHeld =>
    rw [State.startAnnouncement_of_memoHeld h]
    have resumed := sameAnnouncement_resumedMemo s u
    split
    · exact resumed.trans (.of_traffic rfl)
    · exact resumed

/-- What of a state an announcement's start and end read, once an assessment has set the flags of the traffic source. -/
structure SameAir (s w : State) : Prop where
  table : w.table = s.table
  shift : w.shift = s.shift
  store : w.store = s.store
  links : w.links = s.links
  memo : w.traffic.memo = s.traffic.memo

theorem SameAir.claim {s w : State} (h : SameAir s w) (k : Nat) : w.claim k = s.claim k := by rw [State.claim, h.table]; rfl
theorem SameAir.link {s w : State} (h : SameAir s w) (k : Link) : w.link k = s.link k := by rw [State.link, h.links]; rfl

theorem SameAir.starts {s w t : State} (h : SameAir s w) {u : TunerId} (k : AnnouncementStarts u w t) : AnnouncementStarts u s t := by
  unfold AnnouncementStarts MemoConsidered RiseLatched at *
  simpa only [h.table, h.shift, h.store, h.memo, h.claim, h.link] using k

theorem SameAir.ends {s w t : State} (h : SameAir s w) {u : TunerId} (k : AnnouncementEnds u w t) : AnnouncementEnds u s t := by
  unfold AnnouncementEnds FallLatched State.wouldSound at *
  simpa only [h.table, h.shift, h.claim, h.link] using k

/-- The claim of an announcement, posted. -/
structure Aired (u : TunerId) (s p : State) : Prop where
  claim : p.claim radioHandle = some { radioClaim (sourceOfTuner u) with seq := s.table.counter + 1 }
  counter : p.table.counter = s.table.counter + 1
  others : ∀ k, k ≠ radioHandle → p.claim k = s.claim k
  happens : Happens [.table, .traffic] s.onAir p
  traffic : p.traffic = s.onAir.traffic

theorem aired_of_room {s : State} (room : s.table.counter < seqMax) (hlen : s.table.entries.length = 16) (u : TunerId) :
    Aired u s (s.aired u) := by
  have length : radioHandle < s.onAir.table.entries.length := by rw [State.onAir_table, hlen]; decide
  obtain ⟨claim, happens, -, -, given, -⟩ := State.post_posts (s := s.onAir) (radioClaim (sourceOfTuner u)) length
  obtain ⟨counter, traffic, others⟩ := given (by rwa [State.onAir_table])
  rw [State.onAir_table] at counter
  rw [counter] at claim
  exact ⟨claim, counter, fun k hk => (others k hk).trans (s.onAir_claim k), happens, traffic⟩

section
variable {s t : State} {u : TunerId} (src : s.traffic.source = .tuner u) (room : s.table.counter < seqMax)
  (hlen : s.table.entries.length = 16) (ht : Offered (s.startAnnouncement u) t)
include room hlen ht

/-- R111: an announcement that a held memo is added to. -/
theorem airing_of_memoHeld (h : s.shift.state = .memoHeld) (c : Claim)
    (hc : c = { radioClaim (sourceOfTuner u) with seq := s.table.counter + 1 }) :
    t.table.counter = s.table.counter + 1 ∧ (∀ k, k ≠ radioHandle → t.claim k = s.claim k)
      ∧ t.traffic.retained = none ∧ t.traffic.outcome = some .captured
      ∧ (t.table.basedZones radioHandle = 0 → t.claim radioHandle = some c
          ∧ t.shift = { s.shift with state := .memoCapture, captured := some u, running := true })
      ∧ (t.table.basedZones radioHandle ≠ 0 → t.claim radioHandle = some { c with source := .shift }
          ∧ t.shift = { s.shift with state := .memoReplay, captured := some u, running := true }) := by
  subst hc
  obtain ⟨claim, counter, others, happens, -⟩ := aired_of_room room hlen u
  have shift : (s.aired u).shift = s.shift := (happens.blocks.2 .shift (by decide)).trans s.onAir_shift
  have resumed : (s.resumedMemo u).shift = { s.shift with state := .memoCapture, captured := some u, running := true } := by
    rw [← shift]; rfl
  rw [State.startAnnouncement_of_memoHeld h, State.radioIsBase] at ht
  have closes := ht.closes
  by_cases hb : (s.resumedMemo u).table.basedZones radioHandle = 0
  · rw [if_neg (mt bne_iff_ne.1 (not_not.2 hb))] at ht closes
    rw [closes.table, closes.traffic, closes.shift, closes.claim]
    exact ⟨counter, fun k hk => (closes.claim k).trans (others k hk), rfl, rfl, fun _ => ⟨claim, resumed⟩, fun h => absurd hb h⟩
  · rw [if_pos (bne_iff_ne.2 hb)] at ht closes
    rw [closes.table, closes.traffic, closes.shift, closes.claim, State.replayMemo_basedZones, State.replayMemo_shift,
      resumed]
    exact ⟨counter, fun k hk => (closes.claim k).trans (((s.resumedMemo u).replayMemo_claim_of_ne hk).trans (others k hk)), rfl, rfl,
      fun h => absurd h hb, fun _ => ⟨State.replayMemo_claim (s := s.resumedMemo u) claim, rfl⟩⟩

include src in
/-- R99, R100: an announcement while no memo is kept. -/
theorem airing_of_memoless (h : s.memoless) (c : Claim) (hc : c = { radioClaim (sourceOfTuner u) with seq := s.table.counter + 1 }) :
    t.table.counter = s.table.counter + 1 ∧ (∀ k, k ≠ radioHandle → t.claim k = s.claim k) ∧ t.claim radioHandle = some c
      ∧ (t.table.basedZones radioHandle ≠ 0 ∨ s.traffic.memo = false →
          t.traffic.outcome = some .none ∧ t.shift = s.shift ∧ ∀ k, (t.link k).advisories = (s.link k).advisories)
      ∧ (t.table.basedZones radioHandle = 0 → s.traffic.memo = true → MemoConsidered u s t) := by
  subst hc
  obtain ⟨claim, counter, others, happens, traffic⟩ := aired_of_room room hlen u
  have shift : (s.aired u).shift = s.shift := (happens.blocks.2 .shift (by decide)).trans s.onAir_shift
  have store : (s.aired u).store = s.store := (happens.blocks.2 .store (by decide)).trans s.onAir_store
  have memo : (s.aired u).traffic.memo = s.traffic.memo := by rw [traffic, State.onAir_traffic]
  have links : (s.aired u).links = s.onAir.links := State.post_links _ _ _
  have advisories : ∀ k, ((s.aired u).link k).advisories = (s.link k).advisories := fun k => by
    rw [State.link, links]; exact s.onAir_advisories k
  have enables : ∀ k, ((s.aired u).link k).riseEnable = (s.link k).riseEnable := fun k => by
    rw [State.link, links]; exact ((happens_onAir s).links k).1
  have unheard : (s.aired u).unheard = if (s.aired u).table.basedZones radioHandle = 0 then some u else none :=
    State.unheard_eq (by rw [traffic, State.onAir_traffic]; exact src) claim (by rw [traffic, State.onAir_traffic])
      (by rw [traffic, State.onAir_traffic]) (by cases u <;> exact fun h => by cases h)
  have changed : s.startAnnouncement u =
      if (s.aired u).table.basedZones radioHandle = 0 then (s.aired u).considerMemo u else s.aired u := by
    rw [State.startAnnouncement_of_memoless h, State.tableChanged_of_memoless (by rwa [State.memoless, shift]), unheard]
    by_cases hb : (s.aired u).table.basedZones radioHandle = 0 <;> simp only [hb, if_true, if_false]
  have table : (s.startAnnouncement u).table = (s.aired u).table := by
    rw [changed]
    split
    · exact State.considerMemo_table _ _
    · rfl
  have claims : ∀ k, t.claim k = (s.aired u).claim k := fun k => by
    rw [ht.closes.claim, State.claim, table]; rfl
  refine ⟨?_, fun k hk => (claims k).trans (others k hk), (claims _).trans claim, fun unconsidered => ?_, fun hb hm => ?_⟩
  · rw [ht.table, table, counter]
  · rw [ht.table, table] at unconsidered
    have stands : s.startAnnouncement u = s.aired u := by
      rw [changed]
      split
      · next hb =>
        have off := unconsidered.resolve_left (not_not.2 hb)
        simp [State.considerMemo, memo, off]
      · rfl
    rw [ht.traffic, ht.shift, stands, traffic, State.onAir_traffic]
    exact ⟨rfl, shift, fun k => by rw [ht.advisories, stands, advisories]⟩
  · rw [ht.table, table] at hb
    rw [changed, if_pos hb] at ht
    exact memoConsidered_of_closes shift store enables (advisories _) (memo.trans hm) ht.closes

include src in
/-- R99, R100, R111. -/
theorem announcementStarts_of_startAnnouncement : AnnouncementStarts u s t := by
  have same := sameAnnouncement_startAnnouncement s u
  refine ⟨?_, ?_, ?_, fun h => ?_, fun c hc => ⟨fun h => airing_of_memoHeld room hlen ht h c hc,
    fun h => airing_of_memoless src room hlen ht h c hc⟩⟩
  · rw [ht.traffic, same.1, State.onAir_traffic]
  · rw [ht.traffic, same.2, State.onAir_traffic]
    exact src
  · exact ((riseLatched_onAir s).kept (undirected_announced s u).latched).kept ht.latched
  · rw [State.startAnnouncement_of_memoReplay h] at ht
    rw [ht.traffic, ht.table, ht.shift]
    refine ⟨rfl, s.onAir_table, ?_⟩
    rw [State.withShift_shift, State.onAir_shift]

end

/-! The end. -/

/-- Capture stops, a memo capture becoming a held memo that retains the claim's number (R109, R110). -/
def State.stopCapture (s : State) : State :=
  match s.shift.state with
  | .memoCapture =>
    (s.withTraffic { s.traffic with retained := (s.claim radioHandle).map fun c => c.seq }).withShift
      { s.shift with state := .memoHeld, running := false }
  | .memoReplay => s.withShift { s.shift with running := false }
  | .off | .capture | .replay | .memoHeld => s

theorem State.stopCapture_table (s : State) : s.stopCapture.table = s.table := by
  unfold State.stopCapture
  split <;> rfl

theorem State.stopCapture_claim (s : State) (k : Nat) : s.stopCapture.claim k = s.claim k := by
  rw [State.claim, s.stopCapture_table]; rfl

theorem State.stopCapture_silence (s : State) :
    s.stopCapture.traffic.announcing = s.traffic.announcing ∧ s.stopCapture.traffic.outcome = s.traffic.outcome := by
  unfold State.stopCapture
  split <;> exact ⟨rfl, rfl⟩

theorem State.stopCapture_of_memoless {s : State} (h : s.memoless) : s.stopCapture = s := by
  rcases h with h | h | h <;> simp only [State.stopCapture, h]

/-- A RADIO claim on a tuner removed. -/
def State.dropTunerClaim (s : State) : State :=
  match s.claim radioHandle with
  | some c => if c.source = .shift then s else (s.setClaim radioHandle none).tableChanged
  | none => s

theorem State.endAnnouncement_eq (s : State) : s.endAnnouncement = s.offAir.stopCapture.dropTunerClaim := rfl

theorem State.endAnnouncement_of_none {s : State} (hc : s.claim radioHandle = none) : s.endAnnouncement = s.offAir.stopCapture := by
  have claim : s.offAir.stopCapture.claim radioHandle = none := by rw [State.stopCapture_claim, State.offAir_claim, hc]
  simp only [State.endAnnouncement_eq, State.dropTunerClaim, claim]

section
variable {s : State} {c : Claim} (hc : s.claim radioHandle = some c)
include hc

theorem State.endAnnouncement_of_shift (h : c.source = .shift) : s.endAnnouncement = s.offAir.stopCapture := by
  have claim : s.offAir.stopCapture.claim radioHandle = some c := by rw [State.stopCapture_claim, State.offAir_claim, hc]
  simp only [State.endAnnouncement_eq, State.dropTunerClaim, claim, h, if_true]

theorem State.endAnnouncement_of_tuner (h : c.source ≠ .shift) :
    s.endAnnouncement = (s.offAir.stopCapture.setClaim radioHandle none).tableChanged := by
  have claim : s.offAir.stopCapture.claim radioHandle = some c := by rw [State.stopCapture_claim, State.offAir_claim, hc]
  simp only [State.endAnnouncement_eq, State.dropTunerClaim, claim, h, if_false]

end

/-- Without an announcement nothing is unheard. -/
theorem State.unheard_of_silent {s : State} (h : s.traffic.announcing = false) : s.unheard = none := by
  unfold State.unheard
  split
  · simp [h]
  · rfl

theorem State.tableChanged_outcome {s : State} (h : s.traffic.announcing = false) :
    s.tableChanged.traffic.outcome = s.traffic.outcome := by
  have quiet : s.memoless → s.tableChanged.traffic.outcome = s.traffic.outcome := fun k => by
    rw [State.tableChanged_of_memoless k, State.unheard_of_silent h]
  cases hs : s.shift.state with
  | off => exact quiet (.inl hs)
  | capture => exact quiet (.inr (.inl hs))
  | replay => exact quiet (.inr (.inr hs))
  | memoCapture => rw [State.tableChanged_of_memoCapture hs, h]; rfl
  | memoReplay => rw [State.tableChanged_of_memoReplay hs]
  | memoHeld =>
    cases hq : s.traffic.retained with
    | none => rw [State.tableChanged_of_none hs hq]
    | some q =>
      rw [State.tableChanged_of_memoHeld hs hq]
      split
      · have posted := State.post_memo (s.withShift { s.shift with state := .memoReplay, running := false }) radioHandle
          (radioClaim .shift)
        show ((s.withShift { s.shift with state := .memoReplay, running := false }).post radioHandle
          (radioClaim .shift)).traffic.outcome = _
        rw [posted]
        rfl
      · rfl

/-- An announcement that has ended is not in progress and has no outcome. -/
theorem State.endAnnouncement_silence (s : State) :
    s.endAnnouncement.traffic.announcing = false ∧ s.endAnnouncement.traffic.outcome = none := by
  obtain ⟨announcing, outcome⟩ := s.offAir.stopCapture_silence
  rw [State.offAir_traffic] at announcing outcome
  cases hc : s.claim radioHandle with
  | none =>
    rw [State.endAnnouncement_of_none hc]
    exact ⟨announcing, outcome⟩
  | some c =>
    by_cases h : c.source = .shift
    · rw [State.endAnnouncement_of_shift hc h]
      exact ⟨announcing, outcome⟩
    · rw [State.endAnnouncement_of_tuner hc h]
      exact ⟨(sameAnnouncement_tableChanged _).1.trans announcing,
        (State.tableChanged_outcome (s := s.offAir.stopCapture.setClaim radioHandle none) announcing).trans outcome⟩

section
variable {s t : State} {u : TunerId} {c : Claim} (hc : s.claim radioHandle = some c)
  (ht : Offered (s.endAnnouncement.withTraffic { s.endAnnouncement.traffic with source := .tuner u }) t)
include hc ht

/-- R109: the memo's own claim stays. -/
theorem ending_of_memoReplay (h : s.shift.state = .memoReplay) (hs : c.source = .shift) :
    t.table = s.table ∧ t.shift = { s.shift with running := false } := by
  have state : s.offAir.shift.state = .memoReplay := by rw [State.offAir_shift, h]
  have ended : s.endAnnouncement = s.offAir.withShift { s.offAir.shift with running := false } := by
    rw [State.endAnnouncement_of_shift hc hs]
    simp only [State.stopCapture, state]
  rw [ht.table, ht.shift, State.withTraffic_table, State.withTraffic_shift, ended]
  exact ⟨s.offAir_table, by rw [State.withShift_shift, State.offAir_shift]⟩

/-- R99: a claim on a tuner is removed. -/
theorem ending_of_memoless (h : s.memoless) (hs : c.source ≠ .shift) :
    t.claim radioHandle = none ∧ (∀ k, k ≠ radioHandle → t.claim k = s.claim k) ∧ t.shift = s.shift := by
  have quiet : s.offAir.memoless := by rwa [State.memoless, State.offAir_shift]
  have ended : s.endAnnouncement = s.offAir.setClaim radioHandle none := by
    rw [State.endAnnouncement_of_tuner hc hs, State.stopCapture_of_memoless quiet,
      State.tableChanged_of_memoless (s := s.offAir.setClaim radioHandle none) quiet,
      State.unheard_of_silent (s := s.offAir.setClaim radioHandle none) (by
        show s.offAir.traffic.announcing = false
        rw [State.offAir_traffic])]
  have claims : ∀ k, t.claim k = (s.offAir.setClaim radioHandle none).claim k := fun k => by
    rw [ht.closes.claim, ended]; rfl
  refine ⟨(claims _).trans (s.offAir.claim_setClaim_none _), fun k hk => ?_, ?_⟩
  · rw [claims, State.setClaim_claim_of_ne _ _ hk, State.offAir_claim]
  · rw [ht.shift, State.withTraffic_shift, ended]
    exact s.offAir_shift

/-- R109, R110: a memo capture that stays outranked becomes a held memo. -/
theorem ending_of_memoCapture (h : s.shift.state = .memoCapture) (hs : c.source ≠ .shift)
    (silent : ¬s.wouldSound c.seq (· = radioHandle)) :
    t.claim radioHandle = none ∧ (∀ k, k ≠ radioHandle → t.claim k = s.claim k) ∧ t.traffic.retained = some c.seq
      ∧ t.shift = { s.shift with state := .memoHeld, running := false } := by
  have state : s.offAir.shift.state = .memoCapture := by rw [State.offAir_shift, h]
  have claim : s.offAir.claim radioHandle = some c := by rw [State.offAir_claim, hc]
  have stopped : s.offAir.stopCapture = (s.offAir.withTraffic { s.offAir.traffic with retained := some c.seq }).withShift
      { s.offAir.shift with state := .memoHeld, running := false } := by
    simp only [State.stopCapture, state, claim, Option.map_some]
  set v := (s.offAir.withTraffic { s.offAir.traffic with retained := some c.seq }).withShift
    { s.offAir.shift with state := .memoHeld, running := false } with hv
  have vclaim : ∀ k, v.claim k = s.claim k := s.offAir_claim
  have outranked : ¬(v.setClaim radioHandle none).table.wouldBeBase c.seq = true := fun hb => silent <| by
    have sounds := State.wouldBeBase_setClaim_none.1 hb
    unfold State.wouldSound at sounds ⊢
    simpa only [vclaim] using sounds
  have ended : s.endAnnouncement = v.setClaim radioHandle none := by
    rw [State.endAnnouncement_of_tuner hc hs, stopped]
    exact (State.tableChanged_holds (s := v.setClaim radioHandle none) rfl rfl).2 outranked
  have claims : ∀ k, t.claim k = (v.setClaim radioHandle none).claim k := fun k => by
    rw [ht.closes.claim, ended]; rfl
  refine ⟨(claims _).trans (v.claim_setClaim_none _), fun k hk => ?_, ?_, ?_⟩
  · rw [claims, State.setClaim_claim_of_ne _ _ hk, vclaim]
  · rw [ht.traffic, ended]; rfl
  · rw [ht.shift, State.withTraffic_shift, ended, ← s.offAir_shift]; rfl

end

/-- R99, R109, R110. -/
theorem announcementEnds_of_endAnnouncement {s t : State} {u : TunerId}
    (ht : Offered (s.endAnnouncement.withTraffic { s.endAnnouncement.traffic with source := .tuner u }) t) :
    AnnouncementEnds u s t := by
  obtain ⟨announcing, outcome⟩ := s.endAnnouncement_silence
  have fallen := ((fallLatched_offAir s).kept (undirected_unannounced s).latched)
  refine ⟨?_, ?_, ?_, ?_, fun c hc => ⟨ending_of_memoReplay hc ht, ending_of_memoless hc ht, ending_of_memoCapture hc ht⟩⟩
  · rw [ht.traffic]; exact announcing
  · rw [ht.traffic]; exact outcome
  · rw [ht.traffic]; rfl
  · exact (fallen.kept (undirected_withTraffic _ _ rfl).latched).kept ht.latched

end Sys2Proof.Machine
end

section
namespace Sys2Proof.Machine

/-! ### The traffic source that a group leaves (R97, R98) -/

/-- The state `w` in which the traffic source is chosen after a group `g` of the tuner `u` that serves traffic. -/
structure Serves (u : TunerId) (g : DataGroup) (s w : State) : Prop where
  air : SameAir s w
  directions : w.directions = s.directions
  announcing : w.traffic.announcing = s.traffic.announcing
  outcome : w.traffic.outcome = s.traffic.outcome
  source : w.traffic.source = s.traffic.source
  chosen : w.sourceNow = .tuner u
  ta : w.taOf (.tuner u) = g.ta

/-- What a group on Tuner A makes eligible (R97). -/
theorem serves_a {s : State} {g : DataGroup} (h : s.servesTraffic .a) (tp : g.tp = true) :
    Serves .a g s (s.grouped .a g).followEligible.followWatch := by
  obtain ⟨run, on, assigned, fm, serving, -⟩ := h
  obtain ⟨tuned, unsaved, unwatched⟩ := serving rfl
  have data : (s.grouped .a g).tunA.offered = (s.tunA.rx.decoder.take g).data := by
    show (match s.tunA.saved with | some d => d.data | none => _) = _
    rw [unsaved]
    rfl
  have serves : (s.grouped .a g).tunA.serving = true := by
    have fm' : (s.grouped .a g).tunA.rx.freq.band = .fm := fm
    have tuned' : (s.grouped .a g).tunA.state = .tuned := tuned
    simp [TunerA.serving, fm', tuned', data, Decoder.take_tp, tp]
  have eligible : (s.grouped .a g).followEligible =
      (s.grouped .a g).withTraffic { s.traffic with eligible := true, holdAt := none } := if_pos serves
  have traffic : (s.grouped .a g).followEligible.followWatch.traffic =
      { s.traffic with eligible := true, holdAt := none, watch := none } := by
    rw [eligible]
    simp [State.followWatch]
  refine ⟨⟨?_, ?_, ?_, ?_, ?_⟩, ?_, ?_, ?_, ?_, ?_, ?_⟩
  · rw [eligible]; rfl
  · rw [eligible]; rfl
  · rw [eligible]; rfl
  · rw [eligible]; rfl
  · rw [traffic]
  · simp only [State.directions, traffic, unwatched, State.followWatch_radio, State.followWatch_tunB, State.followWatch_power,
      State.followEligible_radio, State.followEligible_tunB, State.followEligible_power]
    rfl
  · rw [traffic]
  · rw [traffic]
  · rw [traffic]
  · simp [State.sourceNow, traffic, on]
  · have tunA : (s.grouped .a g).followEligible.followWatch.tunA = (s.grouped .a g).tunA := by rw [eligible]; rfl
    simp [State.taOf, tunA, data, Decoder.take_ta]

/-- On Tuner B the watch request stands, and Tuner A is not eligible (R98). -/
theorem serves_b {s : State} {g : DataGroup} (h : s.servesTraffic .b) : Serves .b g s (s.grouped .b g).followEligible.followWatch := by
  obtain ⟨run, on, assigned, fm, -, serving⟩ := h
  obtain ⟨watching, settled, uneligible, silent, f, e, watch, found, tp⟩ := serving rfl
  have eligible : (s.grouped .b g).followEligible = s.grouped .b g := by
    have silent' : (s.grouped .b g).tunA.serving = false := silent
    have uneligible' : (s.grouped .b g).traffic.eligible = false := uneligible
    simp [State.followEligible, silent', uneligible']
  have stands : watchStands s.radio.stations f = true := by simp [watchStands, found, tp]
  have traffic : (s.grouped .b g).followEligible.followWatch.traffic = s.traffic := by
    have traffic : (s.grouped .b g).traffic = s.traffic := rfl
    have radio : (s.grouped .b g).radio = s.radio := rfl
    rw [eligible]
    simp only [State.followWatch, State.withTraffic_traffic, traffic, radio, on, uneligible, watch, stands, Bool.not_true, Bool.or_self,
      Bool.false_eq_true, if_false, if_true]
    rw [← watch, ← on, ← uneligible]
  have tunB : (s.grouped .b g).tunB = { s.tunB with rx := s.tunB.rx.takeGroup g s.clock.now } := rfl
  refine ⟨⟨?_, ?_, ?_, ?_, ?_⟩, ?_, ?_, ?_, ?_, ?_, ?_⟩
  · rw [eligible]; rfl
  · rw [eligible]; rfl
  · rw [eligible]; rfl
  · rw [eligible]; rfl
  · rw [traffic]
  · simp only [State.directions, traffic, State.followWatch_radio, State.followWatch_tunB, State.followWatch_power,
      State.followEligible_radio, State.followEligible_tunB, State.followEligible_power]
    rfl
  · rw [traffic]
  · rw [traffic]
  · rw [traffic]
  · simp [State.sourceNow, traffic, tunB, on, uneligible, watch, watching]
  · simp [State.taOf, tunB, watching, Receiver.takeGroup, Decoder.take_ta]

/-! The announcement that follows the source (R99). -/

theorem State.taOf_congr {s t : State} (ha : t.tunA = s.tunA) (hb : t.tunB = s.tunB) (x : TrafficSource) : t.taOf x = s.taOf x := by
  unfold State.taOf
  rw [ha, hb]

/-- The announcement ended where its source is another now, or offers no TA flag. -/
def State.afterEnd (s : State) : State :=
  if s.traffic.announcing && !(s.sourceNow = s.traffic.source && s.taOf s.sourceNow) then s.endAnnouncement else s

def State.withSource (s : State) (x : TrafficSource) : State := s.withTraffic { s.traffic with source := x }

section
variable {w : State} {u : TunerId} (chosen : w.sourceNow = .tuner u)
include chosen

theorem State.followSource_eq : w.followSource =
    if !(w.afterEnd.withSource (.tuner u)).traffic.announcing && (w.afterEnd.withSource (.tuner u)).taOf (.tuner u) then
      (w.afterEnd.withSource (.tuner u)).startAnnouncement u
    else w.afterEnd.withSource (.tuner u) := by
  unfold State.followSource State.afterEnd
  rw [chosen]
  rfl

theorem State.followSource_of_start (silent : w.traffic.announcing = false) (ta : w.taOf (.tuner u) = true) :
    w.followSource = (w.withSource (.tuner u)).startAnnouncement u := by
  have stands : w.afterEnd = w := if_neg (by simp [silent])
  have offers : (w.withSource (.tuner u)).taOf (.tuner u) = true := ta
  have quiet : (w.withSource (.tuner u)).traffic.announcing = false := silent
  rw [State.followSource_eq chosen, stands]
  exact if_pos (by rw [offers, quiet]; rfl)

theorem State.followSource_of_stay (on : w.traffic.announcing = true) (same : w.traffic.source = .tuner u)
    (ta : w.taOf (.tuner u) = true) : w.followSource = w.withSource (.tuner u) := by
  have stands : w.afterEnd = w := if_neg (by simp [chosen, same, ta])
  have goes : (w.withSource (.tuner u)).traffic.announcing = true := on
  rw [State.followSource_eq chosen, stands]
  exact if_neg (by rw [goes]; simp)

theorem State.followSource_of_end (on : w.traffic.announcing = true) (ta : w.taOf (.tuner u) = false) :
    w.followSource = w.endAnnouncement.withSource (.tuner u) := by
  have ends : w.afterEnd = w.endAnnouncement := if_pos (by simp [chosen, on, ta])
  have ended := happens_endAnnouncement w
  have offers : (w.endAnnouncement.withSource (.tuner u)).taOf (.tuner u) = false :=
    (State.taOf_congr (ended.blocks.2 .tunA (by decide)) (ended.blocks.2 .tunB (by decide)) _).trans ta
  rw [State.followSource_eq chosen, ends]
  exact if_neg (by rw [offers]; simp)

end

/-- The source named makes no difference to what a start reads, nor to what an end reads. -/
theorem sameAir_withSource {s w : State} (h : SameAir s w) (x : TrafficSource) :
    SameAir s (w.withSource x) := ⟨h.table, h.shift, h.store, h.links, h.memo⟩

/-- R97 to R101, R109 to R111. -/
theorem dataGroup_announces (s : State) (u : TunerId) (g : DataGroup) (h : s.servesTraffic u) (tp : u = .a → g.tp = true)
    (hlen : s.table.entries.length = 16) (room : s.table.counter < seqMax) :
    ∃ t, exec (.dataGroup u g) s = .next t ∧ Happens (.tunA :: reassessed) s t
      ∧ (g.ta = true → s.traffic.announcing = false → AnnouncementStarts u s t)
      ∧ (s.traffic.announcing = true → s.traffic.source = .tuner u →
          (g.ta = false → AnnouncementEnds u s t)
          ∧ (g.ta = true → t.traffic.announcing = true ∧ t.traffic.source = .tuner u ∧ t.traffic.outcome = s.traffic.outcome
              ∧ t.table = s.table ∧ t.shift = s.shift)) := by
  obtain ⟨run, on, assigned, fm, onA, onB⟩ := id h
  have takes : (u = .a ∧ s.tunA.state = .tuned) ∨ (u = .b ∧ s.tunB.open = true) := by
    cases u with
    | a => exact .inl ⟨rfl, (onA rfl).1⟩
    | b =>
      obtain ⟨watching, settled, -⟩ := onB rfl
      exact .inr ⟨rfl, by simp [TunerB.open, watching, settled]⟩
  have serves : Serves u g s (s.grouped u g).followEligible.followWatch := by
    cases u with
    | a => exact serves_a h (tp rfl)
    | b => exact serves_b h
  obtain ⟨t, next, happens, offered⟩ := dataGroup_spec (g := g) takes fm
  rw [State.reassess_of_assigned (assigned_of_directions serves.directions assigned)] at offered
  set w := (s.grouped u g).followEligible.followWatch with hw
  refine ⟨t, next, happens, fun ta silent => ?_, fun announcing source => ⟨fun ta => ?_, fun ta => ?_⟩⟩
  · rw [State.followSource_of_start serves.chosen (serves.announcing.trans silent) (serves.ta.trans ta)] at offered
    have air := sameAir_withSource serves.air (.tuner u)
    exact air.starts (announcementStarts_of_startAnnouncement rfl (by rw [air.table]; exact room) (by rw [air.table]; exact hlen) offered)
  · rw [State.followSource_of_end serves.chosen (serves.announcing.trans announcing) (serves.ta.trans ta)] at offered
    exact serves.air.ends (announcementEnds_of_endAnnouncement offered)
  · rw [State.followSource_of_stay serves.chosen (serves.announcing.trans announcing) (serves.source.trans source)
      (serves.ta.trans ta)] at offered
    rw [offered.traffic, offered.table, offered.shift]
    exact ⟨serves.announcing.trans announcing, rfl, serves.outcome, serves.air.table, serves.air.shift⟩

/-- R72. -/
theorem dataGroup_tells (s : State) (u : TunerId) (g : DataGroup) (d : Decoder)
    (h : (u = .a ∧ s.tunA.state = .tuned)
      ∨ (u = .b ∧ s.tunB.state = .held ∧ s.tunB.holder.isSome = true ∧ s.tunB.settling = false))
    (fm : (s.receiver u).freq.band = .fm) (hd : d = (s.receiver u).decoder) :
    ∃ t e same, exec (.dataGroup u g) s = .next t ∧ Happens (.tunA :: reassessed) s t ∧ e = (t.receiver u).decoder
      ∧ (same = true ↔ d.lastIdentity ≠ some g.identity.toNat ∨ d.data.identity = none
          ∨ d.data.identity = some g.identity.toNat)
      ∧ d.TookGroup g e same := by
  subst hd
  obtain ⟨t, next, happens, decoder⟩ := dataGroup_decodes (g := g) h fm
  exact ⟨t, _, _, next, happens, decoder.symm, decide_eq_true_iff, Decoder.tookGroup_take _ g⟩

/-- Settles O30: a group is decoded by its identity and flags first and then by its payload; the source that it leaves starts or ends the
announcement; and a lapse touches the flags alone. -/
theorem stationDataDecodes : Obligations.StationDataDecodes := by
  refine ⟨fun s u g d h fm hd _ => ?_, dataGroup_announces, dataTimeout_lapses⟩
  obtain ⟨t, e, same, next, happens, decoder, agrees, took⟩ := dataGroup_tells s u g d h fm hd
  obtain ⟨tp, ta, last⟩ := took.flags
  exact ⟨t, e, same, next, happens, decoder, tp, ta, last, took.identity, agrees, took.name, took.alternates⟩

end Sys2Proof.Machine
end

section
namespace Sys2Proof.Machine

/-! ### What the Shift Buffer's ring rests on (R101, R170) -/

/-- R170: the bounds are in order, inside the store. -/
def Store.Bounded (st : Store) : Prop := st.u0 ≤ st.u1 ∧ st.u1 ≤ 256

/-- R101, the column "while OFF". -/
structure ShiftBuffer.Empty (b : ShiftBuffer) : Prop where
  fill : b.fill = 0
  write : b.write = none
  replay : b.replay = none
  wrapped : b.wrapped = false
  stopped : b.running = false

/-- R101: both positions lie in the SHIFT region of `st`, which holds the fill. -/
structure ShiftBuffer.Placed (b : ShiftBuffer) (st : Store) : Prop where
  fill : b.fill ≤ st.shiftSize
  region : st.shiftSize ≠ 0
  write : ∃ w, b.write = some w ∧ st.u1 * 65536 ≤ w.toNat
  replay : ∃ p, b.replay = some p ∧ st.u1 * 65536 ≤ p.toNat

/-- What `State.shiftWf` asks of the buffer beside the bounds. -/
structure ShiftBuffer.Within (b : ShiftBuffer) (st : Store) : Prop where
  off : b.state = .off → b.Empty
  on : b.state ≠ .off → b.Placed st

theorem State.shiftWf_iff (s : State) : s.shiftWf ↔ s.store.Bounded ∧ s.shift.Within s.store := by
  constructor
  · rintro ⟨lower, upper, off, on⟩
    refine ⟨⟨lower, upper⟩, fun h => ?_, fun h => ?_⟩
    · obtain ⟨fill, write, replay, wrapped, stopped⟩ := off h
      exact ⟨fill, write, replay, wrapped, stopped⟩
    · obtain ⟨fill, region, write, replay⟩ := on h
      exact ⟨fill, region, write, replay⟩
  · rintro ⟨⟨lower, upper⟩, off, on⟩
    exact ⟨lower, upper, fun h => ⟨(off h).fill, (off h).write, (off h).replay, (off h).wrapped, (off h).stopped⟩,
      fun h => ⟨(on h).fill, (on h).region, (on h).write, (on h).replay⟩⟩

/-- `t` keeps the bounds in order and the positions and the fill inside the region. -/
def RingKept (s t : State) : Prop := s.shiftWf → t.shiftWf

namespace RingKept

theorem refl (s : State) : RingKept s s := id

theorem trans {s t u : State} (h : RingKept s t) (k : RingKept t u) : RingKept s u := k ∘ h

theorem ite {s t u : State} {c : Prop} [Decidable c] (h : c → RingKept s t) (k : ¬c → RingKept s u) :
    RingKept s (if c then t else u) := by
  split
  · exact h ‹_›
  · exact k ‹_›

theorem foldl {α : Type} (f : State → α → State) (hf : ∀ s a, RingKept s (f s a)) (xs : List α) (s : State) :
    RingKept s (xs.foldl f s) := by
  induction xs generalizing s with
  | nil => exact .refl s
  | cons a xs ih => exact (hf s a).trans (ih _)

/-- The invariant reads the buffer and the two bounds. -/
theorem of_same {s t : State} (hb : t.shift = s.shift) (h0 : t.store.u0 = s.store.u0) (h1 : t.store.u1 = s.store.u1) :
    RingKept s t := by
  unfold RingKept State.shiftWf Store.shiftSize
  rw [hb, h0, h1]
  exact id

/-- Blocks of which the invariant reads nothing. -/
def besides : List Block := [.clock, .ports, .table, .mix, .tunA, .tunB, .radio, .traffic, .call, .stations, .chime, .power]

theorem of_happens {bs : List Block} {s t : State} (h : Happens bs s t) (hs : bs ⊆ besides) : RingKept s t := by
  have same : ∀ b, b ∉ Block.links :: besides → s.sameBlock t b := fun b hb =>
    h.blocks.2 b fun k => hb (List.cons_subset_cons _ hs k)
  have hb : t.shift = s.shift := same .shift (by decide)
  have hst : t.store = s.store := same .store (by decide)
  exact of_same hb (by rw [hst]) (by rw [hst])

end RingKept

/-! ### Single updates -/

/-- A change of the buffer, told by what it does to the positions and the fill. -/
theorem ringKept_withShift (s : State) (b : ShiftBuffer) (h : s.store.Bounded → s.shift.Within s.store → b.Within s.store) :
    RingKept s (s.withShift b) := fun k => by
  rw [State.shiftWf_iff] at k ⊢
  exact ⟨k.1, h k.1 k.2⟩

/-- A buffer that is not OFF takes another state other than OFF, with its positions and its fill as they were. -/
theorem ringKept_restated {s : State} (b : ShiftBuffer) (hs : s.shift.state ≠ .off) (hb : b.state ≠ .off)
    (same : (b.fill, b.write, b.replay) = (s.shift.fill, s.shift.write, s.shift.replay)) : RingKept s (s.withShift b) := by
  refine ringKept_withShift s b fun _ k => ⟨fun h => absurd h hb, fun _ => ?_⟩
  simp only [Prod.mk.injEq] at same
  obtain ⟨fill, write, replay⟩ := same
  have placed := k.on hs
  exact ⟨fill ▸ placed.fill, placed.region, write ▸ placed.write, replay ▸ placed.replay⟩

theorem ringKept_withPending (s : State) (x : List Instr) : RingKept s (s.withPending x) := id
theorem ringKept_withClock (s : State) (x : Clock) : RingKept s (s.withClock x) := id
theorem ringKept_withPorts (s : State) (x : Ports) : RingKept s (s.withPorts x) := id
theorem ringKept_withTable (s : State) (x : ClaimTable) : RingKept s (s.withTable x) := id
theorem ringKept_withMix (s : State) (x : Mix) : RingKept s (s.withMix x) := id
theorem ringKept_withTunA (s : State) (x : TunerA) : RingKept s (s.withTunA x) := id
theorem ringKept_withTunB (s : State) (x : TunerB) : RingKept s (s.withTunB x) := id
theorem ringKept_withRadio (s : State) (x : Radio) : RingKept s (s.withRadio x) := id
theorem ringKept_withTraffic (s : State) (x : Traffic) : RingKept s (s.withTraffic x) := id
theorem ringKept_withCall (s : State) (x : Call) : RingKept s (s.withCall x) := id
theorem ringKept_withStations (s : State) (x : Stations) : RingKept s (s.withStations x) := id
theorem ringKept_withChime (s : State) (x : Chime) : RingKept s (s.withChime x) := id
theorem ringKept_withPower (s : State) (x : Power) : RingKept s (s.withPower x) := id
theorem ringKept_setLink (s : State) (l : Link) (x : LinkState) : RingKept s (s.setLink l x) := id
theorem ringKept_setSlot (s : State) (l : Link) (x : Slot) : RingKept s (s.setSlot l x) := id
theorem ringKept_shiftOut (s : State) (l : Link) (n : Nat) (r : Reply) : RingKept s (s.shiftOut l n r) := id
theorem ringKept_notice (s : State) (l : Link) (c : Nat) : RingKept s (s.notice l c) := id
theorem ringKept_advise (s : State) (l : Link) (a : Advisory) : RingKept s (s.advise l a) := id
theorem ringKept_setClaim (s : State) (h : Nat) (c : Option Claim) : RingKept s (s.setClaim h c) := id
theorem ringKept_changeClaim (s : State) (h : Nat) (f : Claim → Claim) : RingKept s (s.changeClaim h f) := id
theorem ringKept_setVoice (s : State) (n : Nat) (v : Voice) : RingKept s (s.setVoice n v) := id
theorem ringKept_setSink (s : State) (k : Nat) (x : Sink) : RingKept s (s.setSink k x) := id
theorem ringKept_setHolder (s : State) (h : Option StationId) : RingKept s (s.setHolder h) := id

theorem ringKept_setStation (s : State) (st : StationId) (x : Station) : RingKept s (s.setStation st x) :=
  .of_happens (happens_setStation s st x) (by decide)

theorem ringKept_riseAll (s : State) (c : Nat) : RingKept s (s.riseAll c) := .of_happens (happens_riseAll s c) (by simp)
theorem ringKept_offerEdges (b s : State) : RingKept s (State.offerEdges b s) := .of_happens (happens_offerEdges b s) (by simp)
theorem ringKept_reach (s : State) (t : Time) : RingKept s (s.reach t) := .of_happens (happens_reach s t) (by decide)
theorem ringKept_post (s : State) (h : Nat) (c : Claim) : RingKept s (s.post h c) := .of_happens (happens_post s h c) (by decide)

/-- A change of the store in other fields than its bounds. -/
theorem ringKept_withStore (s : State) (x : Store) (h : (x.u0, x.u1) = (s.store.u0, s.store.u1)) : RingKept s (s.withStore x) :=
  .of_same rfl (congrArg Prod.fst h) (congrArg Prod.snd h)

theorem ringKept_setPosted (s : State) (r : Nat) (x : Bool) : RingKept s (s.setPosted r x) := ringKept_withStore s _ rfl
theorem ringKept_postReplay (s : State) : RingKept s s.postReplay := ringKept_setPosted s _ _

/-- An order that is refused, or that changes nothing. -/
theorem ringKept_answer (st : Status) (s : State) : RingKept s (answer st s).2 := .refl s

/-! ### The Shift Buffer's operations (R101, R113) -/

theorem ShiftBuffer.within_off (st : Store) : ShiftBuffer.off.Within st :=
  ⟨fun _ => ⟨rfl, rfl, rfl, rfl, rfl⟩, fun h => absurd rfl h⟩

/-- R101: the region's first word is in the region. -/
theorem Store.shiftFirst_toNat {st : Store} (h : st.shiftSize ≠ 0) : st.shiftFirst.toNat = st.u1 * 65536 := by
  unfold Store.shiftSize at h
  simp only [Store.shiftFirst, BitVec.toNat_ofNat]
  omega

theorem ringKept_startCapture {s : State} (st : ShiftState) (p : Purpose) (c : Option PauseCause) (t : TunerId) (hst : st ≠ .off)
    (h : s.store.shiftSize ≠ 0) : RingKept s (s.startCapture st p c t) := by
  refine .trans (ringKept_withShift s _ fun _ _ => ⟨fun k => absurd k hst, fun _ => ?_⟩) (ringKept_riseAll _ 3)
  have first := (Store.shiftFirst_toNat h).ge
  exact ⟨Nat.zero_le _, h, ⟨_, rfl, first⟩, ⟨_, rfl, first⟩⟩

/-- A buffer that enters OFF withdraws its requests; nothing else of the store changes. -/
theorem State.shiftOff_store (s : State) : s.shiftOff.store = ((s.setPosted 0 false).setPosted 1 false).store := by
  unfold State.shiftOff
  dsimp only
  split <;> split <;> rfl

/-- A buffer that enters OFF is within any bounds. -/
theorem shiftWf_shiftOff {s : State} (h : s.store.Bounded) : s.shiftOff.shiftWf := by
  rw [State.shiftWf_iff, State.shiftOff_store, State.shiftOff_shift]
  exact ⟨h, ShiftBuffer.within_off _⟩

theorem ringKept_shiftOff (s : State) : RingKept s s.shiftOff := fun h => shiftWf_shiftOff ((State.shiftWf_iff s).1 h).1

theorem ringKept_considerMemo (s : State) (t : TunerId) : RingKept s (s.considerMemo t) := by
  unfold State.considerMemo
  refine .ite (fun _ => .refl s) fun _ => ?_
  split
  · exact .ite (fun _ => id) fun h => .trans (ringKept_withTraffic s _) (ringKept_startCapture _ _ _ _ nofun h)
  all_goals exact id

theorem ringKept_considerUnheard (s : State) : RingKept s (match s.unheard with | some t => s.considerMemo t | none => s) := by
  split
  · exact ringKept_considerMemo s _
  · exact .refl s

theorem ringKept_replayMemo {s : State} (h : s.shift.state ≠ .off) : RingKept s s.replayMemo :=
  .trans (ringKept_restated { s.shift with state := .memoReplay } h nofun rfl)
    (.trans (t := State.changeClaim _ _ _) (ringKept_changeClaim _ _ _) (ringKept_postReplay _))

/-- What a change of the Claim Table brings about keeps the ring. -/
theorem ringKept_tableChanged (s : State) : RingKept s s.tableChanged := by
  unfold State.tableChanged
  split
  · exact .ite (fun _ => ringKept_replayMemo (by simp [*])) fun _ => .refl s
  · split
    · refine .ite (fun _ => ?_) fun _ => .refl s
      exact .trans (ringKept_restated { s.shift with state := .memoReplay, running := false } (by simp [*]) nofun rfl)
        (.trans (ringKept_post _ radioHandle (radioClaim .shift))
          (.trans (t := State.withTraffic _ _) (ringKept_withTraffic _ _) (ringKept_postReplay _)))
    · exact .refl s
  · exact .refl s
  all_goals exact ringKept_considerUnheard s

theorem ringKept_dropClaim (s : State) (h : Nat) : RingKept s (s.setClaim h none).tableChanged :=
  (ringKept_setClaim s h none).trans (ringKept_tableChanged _)

theorem ringKept_dropMemoClaim (s : State) : RingKept s s.dropMemoClaim := by
  unfold State.dropMemoClaim
  refine .trans (ringKept_withTraffic s { s.traffic with retained := none }) ?_
  dsimp only
  split
  · refine .ite (fun _ => ?_) fun _ => .refl _
    split
    · exact (ringKept_changeClaim _ _ _).trans (ringKept_tableChanged _)
    · exact ringKept_dropClaim _ _
  · exact .refl _

/-- A buffer that is not OFF is discarded: whatever its positions were, what is left is within the bounds. -/
theorem shiftWf_discard {s : State} (h : s.store.Bounded) (on : s.shift.state ≠ .off) (c : DiscardCause) :
    (s.discard c).shiftWf := by
  have told : (if c = .hubReset then s.shiftOff
      else s.shiftOff.advise .cockpit (.shiftDiscarded c s.shift.state s.shift.fill)).shiftWf := by
    split
    · exact shiftWf_shiftOff h
    · exact ringKept_advise _ _ _ (shiftWf_shiftOff h)
  unfold State.discard
  rw [if_neg on]
  exact RingKept.ite (fun _ => ringKept_dropMemoClaim _) (fun _ => .refl _) told

theorem ringKept_discard (s : State) (c : DiscardCause) : RingKept s (s.discard c) := fun h => by
  by_cases off : s.shift.state = .off
  · rwa [State.discard_of_off off]
  · exact shiftWf_discard ((State.shiftWf_iff s).1 h).1 off c

theorem ringKept_retuned (s : State) (t : TunerId) : RingKept s (s.retuned t) :=
  .ite (fun _ => ringKept_discard s _) fun _ => .refl s

/-! ### Announcements (R99) -/

theorem ringKept_onAir (s : State) : RingKept s s.onAir := .of_happens (happens_onAir s) (by decide)

theorem ringKept_offAir (s : State) : RingKept s s.offAir := .of_happens (happens_offAir s) (by decide)

theorem ringKept_startAnnouncement (s : State) (t : TunerId) : RingKept s (s.startAnnouncement t) := by
  refine (ringKept_onAir s).trans ?_
  unfold State.onAir State.startAnnouncement
  dsimp only
  generalize (s.withTraffic { s.traffic with announcing := true, outcome := some .none }).riseAll 2 = u
  have posted := ringKept_post u radioHandle (radioClaim (sourceOfTuner t))
  split <;> rename_i hu
  · exact posted.trans (ringKept_tableChanged _)
  · exact posted.trans (ringKept_tableChanged _)
  · exact posted.trans (ringKept_tableChanged _)
  · have kept : (u.post radioHandle (radioClaim (sourceOfTuner t))).shift = u.shift :=
      (happens_post u radioHandle (radioClaim (sourceOfTuner t))).blocks.2 .shift (by decide)
    generalize u.post radioHandle (radioClaim (sourceOfTuner t)) = v at posted kept
    have joined : RingKept v ((v.withTraffic { v.traffic with retained := none, outcome := some .captured }).withShift
        { v.shift with state := .memoCapture, captured := some t, running := true }) :=
      .trans (ringKept_withTraffic v _) (ringKept_restated _ (by simp [kept, hu]) nofun rfl)
    exact posted.trans (.ite (fun _ => joined.trans (ringKept_replayMemo nofun)) fun _ => joined)
  · exact .trans (ringKept_withTraffic u _) (ringKept_restated _ (by simp [hu]) (by simp [hu]) rfl)
  · exact .refl u

theorem ringKept_endAnnouncement (s : State) : RingKept s s.endAnnouncement := by
  refine (ringKept_offAir s).trans ?_
  unfold State.offAir State.endAnnouncement
  dsimp only
  generalize (s.withTraffic { s.traffic with announcing := false, outcome := none }).fallAll 2 = u
  have dropped : ∀ v : State, RingKept v
      (match v.claim radioHandle with
        | some c => if c.source = .shift then v else (v.setClaim radioHandle none).tableChanged
        | none => v) := fun v => by
    split
    · exact .ite (fun _ => .refl v) fun _ => ringKept_dropClaim v _
    · exact .refl v
  refine .trans ?_ (dropped _)
  split <;> rename_i hu
  · exact .trans (ringKept_withTraffic u _) (ringKept_restated _ (by simp [hu]) nofun rfl)
  · exact ringKept_restated _ (by simp [hu]) (by simp [hu]) rfl
  all_goals exact .refl u

/-! ### What follows a change of the tuners (R85, R97 to R99) -/

theorem ringKept_enterB (s : State) (st : BState) (f : Option Freq) : RingKept s (s.enterB st f) :=
  .trans (ringKept_withTunB s _) (ringKept_retuned _ _)

theorem ringKept_startSweep (s : State) (st : BState) : RingKept s (s.startSweep st) :=
  .trans (ringKept_withRadio s _) (ringKept_enterB _ _ _)

theorem ringKept_assignB (s : State) : RingKept s s.assignB := by
  unfold State.assignB
  refine .ite (fun _ => .refl s) fun _ => ?_
  split
  · exact .ite (fun _ => .refl s) fun _ => ringKept_enterB _ _ _
  · exact .ite (fun _ => .refl s) fun _ => ringKept_enterB _ _ _
  · exact .ite (fun _ => .ite (fun _ => .refl s) fun _ => ringKept_startSweep _ _)
      fun _ => .ite (fun _ => .refl s) fun _ => ringKept_enterB _ _ _

theorem ringKept_followSource (s : State) : RingKept s s.followSource := by
  unfold State.followSource
  dsimp only
  generalize hu : (if s.traffic.announcing && !(s.sourceNow = s.traffic.source && s.taOf s.sourceNow) then s.endAnnouncement
    else s) = u
  have ended : RingKept s u := hu ▸ .ite (fun _ => ringKept_endAnnouncement s) fun _ => .refl s
  have sourced : RingKept s (u.withTraffic { u.traffic with source := s.sourceNow }) := ended.trans (ringKept_withTraffic u _)
  split
  · exact sourced.trans (.ite (fun _ => ringKept_startAnnouncement _ _) fun _ => .refl _)
  · exact sourced

theorem ringKept_reassess (s : State) : RingKept s s.reassess :=
  .trans (.of_happens (happens_followEligible s) (by decide))
    (.trans (.of_happens (happens_followWatch _) (by decide)) ((ringKept_assignB _).trans (ringKept_followSource _)))

/-- A change of the tuners, told by a frame, and the new assessment that follows it. -/
theorem RingKept.reassessed {s t : State} (h : RingKept s t) : RingKept s t.reassess := h.trans (ringKept_reassess t)

theorem ringKept_retuneA (s : State) (f : Freq) (r : TuneCause × TuneResult) : RingKept s (s.retuneA f r) :=
  RingKept.reassessed (.trans (ringKept_withTunA s _) (ringKept_retuned _ _))

end Sys2Proof.Machine
end

section
namespace Sys2Proof.Machine

/-! ### The ring through the tuners' events (R101) -/

theorem ringKept_tuneDone (s : State) (r : TuneCause × TuneResult) : RingKept s (s.tuneDone r) :=
  .of_happens (happens_tuneDone s r) (by decide)

theorem ringKept_seek (s : State) (d : Direction) : RingKept s (s.seek d) := by
  unfold State.seek
  dsimp only
  split
  · exact ringKept_retuneA _ _ _
  · exact RingKept.reassessed (.trans (ringKept_withTunA s _) (ringKept_retuned _ .a))

theorem ringKept_walkMeasured (s : State) (m : Meas) : RingKept s (s.walkMeasured m) :=
  .trans (ringKept_withTunA s _) (.ite (fun _ => ringKept_retuneA _ _ _) fun _ => .refl _)

theorem ringKept_walkOn (s : State) : RingKept s s.walkOn := by
  unfold State.walkOn
  split
  · exact .ite (fun _ => ringKept_retuneA _ _ _) fun _ => ringKept_withTunA _ _
  · exact .refl s

theorem ringKept_seekChannelEnd (s : State) (m : Option Meas) : RingKept s (s.seekChannelEnd m) := by
  unfold State.seekChannelEnd
  refine .ite (fun _ => .refl s) fun _ => .trans (ringKept_reach s (s.tunA.rx.since + milliseconds 8)) ?_
  cases m with
  | none => exact .ite (fun _ => ringKept_walkOn _) fun _ => .refl _
  | some m => exact (ringKept_walkMeasured _ m).trans (.ite (fun _ => ringKept_walkOn _) fun _ => .refl _)

theorem ringKept_considerSwitch (s : State) : RingKept s s.considerSwitch := by
  unfold State.considerSwitch
  refine .ite (fun _ => .refl s) fun _ => .ite (fun _ => ?_) fun _ => ?_
  all_goals split <;> exact ringKept_withTunA _ _

theorem ringKept_measuredA (s : State) (m : Meas) : RingKept s (s.measuredA m) := by
  unfold State.measuredA
  split
  · exact (ringKept_reach s _).trans ((ringKept_withTunA _ _).trans
      ((ringKept_withTunA _ _).trans (.ite (fun _ => ringKept_considerSwitch _) fun _ => .refl _)))
  · exact .ite (fun _ => (ringKept_reach s _).trans (ringKept_withTunA _ _)) fun _ => .refl s
  · exact .ite (fun _ => (ringKept_reach s _).trans (ringKept_withTunA _ _)) fun _ => .refl s
  · exact (ringKept_reach s _).trans (ringKept_walkMeasured _ _)
  all_goals exact .refl s

theorem ringKept_measuredB (s : State) (m : Meas) : RingKept s (s.measuredB m) :=
  .ite (fun _ => (ringKept_reach s _).trans (ringKept_withTunB _ _))
    fun _ => .ite (fun _ => (ringKept_reach s _).trans (ringKept_withTunB _ _)) fun _ => .refl s

theorem ringKept_settledA (s : State) (m : Meas) : RingKept s (s.settledA m) := by
  unfold State.settledA
  split
  · refine .trans (ringKept_reach s (s.tunA.rx.since + milliseconds 12)) ?_
    dsimp only
    split
    · exact (ringKept_withTunA _ _).trans (ringKept_tuneDone _ _)
    · exact ringKept_withTunA _ _
  · exact .ite (fun _ => .refl s) fun _ => (ringKept_reach s _).trans (ringKept_withTunA _ _)
  all_goals exact .refl s

theorem ringKept_settledB (s : State) (m : Meas) : RingKept s (s.settledB m) :=
  .ite (fun _ => (ringKept_reach s _).trans (ringKept_withTunB _ _)) fun _ => .refl s

theorem ringKept_failVerify (s : State) : RingKept s s.failVerify := .of_happens (happens_failVerify s) (by decide)

theorem ringKept_judgeIdentity (s : State) : RingKept s s.judgeIdentity := by
  unfold State.judgeIdentity
  split
  · exact .ite (fun _ => .of_happens (happens_passVerify s _) (by decide)) fun _ => ringKept_failVerify s
  · exact .refl s

theorem ringKept_prefadeEnd (s : State) : RingKept s s.prefadeEnd := by
  unfold State.prefadeEnd
  exact .ite (fun _ => .refl s)
    fun _ => (ringKept_reach s _).trans (.ite (fun _ => ringKept_withTunA _ _) fun _ => ringKept_withTunA _ _)

theorem ringKept_checkMeasured (s : State) (m : Meas) : RingKept s (s.checkMeasured m) := by
  unfold State.checkMeasured
  exact .ite (fun _ => (ringKept_reach s _).trans
    (.ite (fun _ => (ringKept_withTunA _ _).trans (ringKept_judgeIdentity _)) fun _ => ringKept_withTunA _ _)) fun _ => .refl s

theorem ringKept_gapEnded (s : State) : RingKept s s.gapEnded :=
  .ite (fun _ => (ringKept_reach s _).trans (ringKept_withTunA _ _)) fun _ => .refl s

theorem ringKept_verifyTimedOut (s : State) : RingKept s s.verifyTimedOut :=
  .ite (fun _ => (ringKept_reach s _).trans (ringKept_failVerify _)) fun _ => .refl s

theorem ringKept_groupA (s : State) (g : DataGroup) : RingKept s (s.groupA g) :=
  .ite (fun _ => (ringKept_withTunA s _).trans (ringKept_judgeIdentity _)) fun _ => .refl s

theorem ringKept_groupB (s : State) (g : DataGroup) : RingKept s (s.groupB g) := .ite (fun _ => ringKept_withTunB s _) fun _ => .refl s

theorem ringKept_dataLapsed (s : State) (t : TunerId) : RingKept s (s.dataLapsed t) := by
  have lapsed : ∀ (u : State) (r : Receiver), RingKept u (u.setReceiver t r) := fun u r => by
    cases t <;> exact id
  exact .ite (fun _ => .refl s) fun _ => (ringKept_reach s _).trans (lapsed _ _)

/-! ### The ring through sweeps (R86) -/

theorem ringKept_changedList (s : State) (xs : List Entry) : RingKept s (s.changedList xs) :=
  (ringKept_withRadio s _).trans (ringKept_withTunB _ _)

theorem ringKept_updateChannel (s : State) : RingKept s s.updateChannel := by
  unfold State.updateChannel
  dsimp only
  split
  · exact .ite (fun _ => .ite (fun _ => ringKept_changedList _ _) fun _ => ringKept_withRadio _ _) fun _ => ringKept_withRadio _ _
  · refine .ite (fun _ => ?_) fun _ => .refl s
    split
    · exact ringKept_changedList _ _
    · exact .refl s

theorem ringKept_endSweep (s : State) : RingKept s s.endSweep := by
  unfold State.endSweep
  dsimp only
  generalize hu : (if (_ || s.tunB.changed) = true then _ else _) = u
  have told : RingKept s u :=
    hu ▸ .ite (fun _ => (ringKept_withRadio s _).trans (ringKept_riseAll _ _)) fun _ => ringKept_withRadio s _
  exact told.trans (.ite (fun _ => ringKept_startSweep _ _)
    fun _ => (ringKept_enterB u .off none).trans (.ite (fun _ => ringKept_withPower _ _) fun _ => .refl _))

theorem ringKept_sweepOn (s : State) : RingKept s s.sweepOn := by
  unfold State.sweepOn
  split
  · exact ringKept_withTunB _ _
  · exact ringKept_endSweep s

theorem ringKept_sweepChannelEnd (s : State) (m : Option Meas) : RingKept s (s.sweepChannelEnd m) := by
  unfold State.sweepChannelEnd
  refine .ite (fun _ => .refl s)
    fun _ => .trans (ringKept_reach s (s.tunB.rx.since + milliseconds (if s.tunB.dwell then 400 else 8))) ?_
  generalize s.reach (s.tunB.rx.since + milliseconds (if s.tunB.dwell then 400 else 8)) = u
  have measured : RingKept u
      (match m with | some m => u.withTunB { u.tunB with rx := u.tunB.rx.measure m u.clock.now } | none => u) := by
    cases m <;> exact id
  exact measured.trans (.ite (fun _ => ringKept_withTunB _ _) fun _ => (ringKept_updateChannel _).trans (ringKept_sweepOn _))

theorem ringKept_countRejections (s : State) : RingKept s s.countRejections := (ringKept_reach s _).trans (ringKept_withRadio _ _)

/-! ### The ring through the ports' events -/

theorem ringKept_withTracker (s : State) (p : Port) (t : Tracker) : RingKept s (s.withTracker p t) :=
  .of_happens (happens_withTracker s p t) (by decide)

theorem ringKept_takeSync (s : State) (gap : Time) (set : PortFrame) : RingKept s (s.takeSync gap set) := by
  unfold State.takeSync
  have sent : ∀ u : State, RingKept u (match PortFrame.port set with | .p2 => u.withPorts u.ports.sendUplink | .p0 | .p1 => u) :=
    fun u => by cases PortFrame.port set <;> exact id
  exact .ite (fun _ => .refl s) fun _ => (ringKept_reach s _).trans ((ringKept_withTracker _ _ _).trans (sent _))

theorem ringKept_takeOverdue (s : State) (p : Port) : RingKept s (s.takeOverdue p) := by
  have slipped : ∀ t x, RingKept s ((s.reach t).withTracker p x) := fun t x =>
    (ringKept_reach s t).trans (ringKept_withTracker _ p x)
  unfold State.takeOverdue
  refine .ite (fun _ => .refl s) fun _ => ?_
  split
  · exact .refl s
  · exact .ite (fun _ => .refl s) fun _ => slipped _ _
  all_goals exact slipped _ _

theorem ringKept_takeGiveUp (s : State) (p : Port) : RingKept s (s.takeGiveUp p) :=
  .ite (fun _ => (ringKept_reach s _).trans (ringKept_withTracker _ _ _)) fun _ => .refl s

theorem ringKept_takeHoldoverTimeout (s : State) (p : Port) : RingKept s (s.takeHoldoverTimeout p) := by
  unfold State.takeHoldoverTimeout
  exact .ite (fun _ => (ringKept_reach s _).trans ((ringKept_withTracker _ _ _).trans
    (.foldl _ (fun s l => ringKept_advise s l _) _ _))) fun _ => .refl s

/-! ### The ring through the Traffic and Shift Unit (R96, R103 to R107, R110) -/

theorem ringKept_memoTurnedOn (s : State) : RingKept s s.memoTurnedOn := ringKept_considerUnheard s

theorem ringKept_setTraffic (s : State) (on memo : Bool) : RingKept s (s.setTraffic on memo) := by
  unfold State.setTraffic
  dsimp only
  have assessed := (ringKept_withTraffic s { s.traffic with on := on, memo := memo }).reassessed
  generalize (s.withTraffic { s.traffic with on := on, memo := memo }).reassess = u at assessed ⊢
  have dropped : RingKept s
      (if s.traffic.on && !on && u.shift.purpose = some .memo then u.discard .trafficOff else u) :=
    .ite (fun _ => assessed.trans (ringKept_discard _ _)) fun _ => assessed
  exact .ite (fun _ => dropped.trans (ringKept_memoTurnedOn _)) fun _ => dropped

theorem ringKept_pauseReplay {s : State} (h : s.shift.state = .replay) : RingKept s s.pauseReplay :=
  .trans (ringKept_restated { s.shift with state := .capture, running := true, cause := some .order, drained := false }
    (by simp [h]) nofun rfl) (ringKept_setPosted _ _ _)

theorem ringKept_resumeReplay {s : State} (h : s.shift.state = .capture) : RingKept s s.resumeReplay :=
  .trans (ringKept_restated { s.shift with state := .replay, running := false } (by simp [h]) nofun rfl) (ringKept_postReplay _)

theorem ringKept_pauseBody (b : List Byte) (s : State) : RingKept s (pauseBody b s).2 := by
  unfold pauseBody
  repeat' split
  any_goals with_reducible exact ringKept_answer _ s
  · exact ringKept_pauseReplay ‹_›
  · exact ringKept_startCapture _ _ _ _ nofun ‹_›

theorem ringKept_eligibleExpired (s : State) : RingKept s s.eligibleExpired := by
  unfold State.eligibleExpired
  split
  · rename_i t _
    exact ((ringKept_reach s (t + seconds 2)).trans (ringKept_withTraffic _ _)).reassessed
  · exact .refl s

theorem ringKept_replayDrained (s : State) : RingKept s s.replayDrained := .ite (fun _ => ringKept_shiftOff s) fun _ => .refl s

theorem ringKept_memoReplayEnded (s : State) : RingKept s s.memoReplayEnded :=
  .ite (fun _ => (ringKept_shiftOff s).trans (ringKept_dropClaim _ _)) fun _ => .refl s

/-! ### The ring through a wake (R194, R196) -/

theorem ringKept_enterRun (s : State) (c : EntryCause) : RingKept s (s.enterRun c) := by
  unfold State.enterRun
  exact (ringKept_withPower s _).trans ((ringKept_withClock _ _).trans (ringKept_retuneA _ _ _))

theorem ringKept_wake (s : State) (on : Bool) (c : EntryCause) : RingKept s (s.wake on c) :=
  .ite (fun _ => ringKept_enterRun s c) fun _ => .refl s

/-! ### The ring through the call (R108, R118) -/

theorem ringKept_followCallClaim (s : State) (was is : CallPhase) : RingKept s (s.followCallClaim was is) :=
  .ite (fun _ => ringKept_setClaim _ _ _) fun _ => .ite (fun _ => ringKept_post _ _ _) fun _ => ringKept_changeClaim _ _ _

theorem ringKept_callEnteredActive (s : State) : RingKept s s.callEnteredActive := by
  refine .ite (fun h => ringKept_startCapture _ _ _ _ nofun ?_) fun _ => .refl s
  simp only [Bool.and_eq_true, decide_eq_true_eq] at h
  exact h.2

theorem ringKept_callEnteredIdle (s : State) : RingKept s s.callEnteredIdle := by
  refine .ite (fun h => ringKept_resumeReplay ?_) fun _ => .refl s
  simp only [Bool.and_eq_true, decide_eq_true_eq] at h
  obtain ⟨⟨captured, -⟩, -⟩ := h
  exact captured

theorem ringKept_enterCall (s : State) (p : CallPhase) : RingKept s (s.enterCall p) := by
  unfold State.enterCall
  have claimed : RingKept s ((s.withCall { s.call with state := p }).followCallClaim s.call.state p).tableChanged :=
    (ringKept_withCall s _).trans ((ringKept_followCallClaim _ _ _).trans (ringKept_tableChanged _))
  refine claimed.trans ?_
  dsimp only
  split
  · exact ringKept_withCall _ _
  · exact .trans (t := State.withEcho _ _) (ringKept_withCall _ _) (ringKept_callEnteredActive _)
  · exact ringKept_withCall _ _
  · exact .trans (t := State.withEcho _ _) (ringKept_withCall _ _) (ringKept_callEnteredIdle _)

theorem ringKept_chooseMic (s : State) : RingKept s s.chooseMic := .ite (fun _ => .refl s) fun _ => id

theorem ringKept_placeCall (s : State) (p : Placement) : RingKept s (s.placeCall p) := by
  unfold State.placeCall
  refine (ringKept_withCall s { s.call with placement := p }).trans ?_
  generalize s.withCall { s.call with placement := p } = u
  have claimed : RingKept u (if u.call.state = .idle then u
      else (u.changeClaim callHandle fun c => { c with zones := placementZones p }).tableChanged) :=
    .ite (fun _ => .refl u) fun _ => (ringKept_changeClaim u _ _).trans (ringKept_tableChanged _)
  exact claimed.trans ((ringKept_chooseMic _).trans (ringKept_withCall _ _))

theorem ringKept_placementFallback (s : State) (st : StationId) : RingKept s (s.placementFallback st) :=
  .ite (fun _ => ringKept_placeCall _ _)
    fun _ => (ringKept_placeCall _ _).trans ((ringKept_advise _ _ _).trans (ringKept_advise _ _ _))

theorem ringKept_windowJudged (s : State) : RingKept s s.windowJudged := .ite (fun _ => ringKept_withCall _ _) fun _ => .refl s

/-! ### The ring through the rear stations' work -/

theorem ringKept_setClass (s : State) (st : StationId) (c : JackClass) : RingKept s (s.setClass st c) := by
  unfold State.setClass
  exact .ite (fun _ => .refl s) fun _ => (ringKept_setStation s st { s.station st with jack := c }).trans
    (.ite (fun _ => .refl _) fun _ => .ite (fun _ => ringKept_placementFallback _ _) fun _ => ringKept_chooseMic _)

theorem ringKept_removed (s : State) (st : StationId) : RingKept s (s.removed st) := by
  unfold State.removed
  have opened := (ringKept_setStation s st { s.station st with inserted := false, measuring := false }).trans
    (ringKept_setClass _ st .vacant)
  exact .ite (fun _ => .refl s) fun _ => .ite (fun _ => opened.trans (ringKept_setStation _ _ _)) fun _ => opened

theorem ringKept_measured (s : State) (st : StationId) (load1 load2 : Nat) (mic : Bool) :
    RingKept s (s.measured st load1 load2 mic) := by
  unfold State.measured
  exact .ite (fun _ => .refl s)
    fun _ => (ringKept_reach s _).trans ((ringKept_setStation _ _ _).trans (ringKept_setClass _ _ _))

theorem ringKept_endHolding (s : State) : RingKept s s.endHolding := by
  unfold State.endHolding
  split
  · exact .refl s
  · rename_i st _
    exact .trans (ringKept_setStation s st _) (.ite (fun _ => (ringKept_setHolder _ _).trans (ringKept_setStation _ _ _))
      fun _ => (ringKept_setHolder _ _).reassessed)

theorem ringKept_lend (s : State) (st : StationId) (f : Freq) : RingKept s (s.lend st f) := by
  rw [State.lend_eq]
  exact .trans (.of_happens (happens_chosen s st) (by decide)) (ringKept_enterB _ _ _).reassessed

theorem ringKept_setSource (s : State) (st : StationId) (src : Source) : RingKept s (s.setSource st src) :=
  .ite (fun _ => (ringKept_setStation s st _).trans (ringKept_endHolding _)) fun _ => ringKept_setStation s st _

theorem ringKept_inserted (s : State) (st : StationId) : RingKept s (s.inserted st) :=
  .ite (fun _ => .refl s) fun _ => (ringKept_setStation _ _ _).trans ((ringKept_setStation _ _ _).trans (ringKept_wake _ _ _))

theorem ringKept_graceExpired (s : State) (st : StationId) : RingKept s (s.graceExpired st) := by
  unfold State.graceExpired
  split
  · exact .ite (fun _ => (ringKept_reach s _).trans (ringKept_endHolding _)) fun _ => .refl s
  · exact .refl s

end Sys2Proof.Machine
end

section
namespace Sys2Proof.Machine

/-! ### The ring through the voices (R158, R159) -/

theorem ringKept_keepRequest (s : State) (n : Fin 4) : RingKept s (s.keepRequest n) :=
  .ite (fun _ => .refl s) fun _ => ringKept_setPosted _ _ _

theorem ringKept_requestEnded (s : State) (r : Request) (c : EndCause) : RingKept s (s.requestEnded r c) :=
  (ringKept_withChime s _).trans (ringKept_notice _ _ _)

theorem ringKept_startVoice (s : State) (n : Fin 4) (r : Request) (d : Descriptor) : RingKept s (s.startVoice n r d) := by
  unfold State.startVoice
  exact (ringKept_withChime s _).trans ((ringKept_setVoice _ _ _).trans ((ringKept_post _ _ _).trans
    ((ringKept_tableChanged _).trans (ringKept_setPosted _ _ _))))

theorem ringKept_stopVoice (s : State) (n : Fin 4) (c : EndCause) : RingKept s (s.stopVoice n c) :=
  .ite (fun _ => (ringKept_setVoice _ _ _).trans ((ringKept_changeClaim _ _ _).trans (ringKept_keepRequest _ _))) fun _ => .refl s

theorem ringKept_takeQueue (n : Fin 4) (rs : List Request) (s : State) : RingKept s (State.takeQueue n rs s) := by
  induction rs generalizing s with
  | nil => exact .refl s
  | cons r rest ih =>
    unfold State.takeQueue
    refine (ringKept_withChime s { s.chime with queue := rest }).trans ?_
    dsimp only
    split
    · exact ringKept_startVoice _ _ _ _
    · exact (ringKept_requestEnded _ _ _).trans (ih _)

theorem ringKept_takeNext (s : State) (n : Fin 4) (r : Option Request) : RingKept s (s.takeNext n r) := by
  unfold State.takeNext
  split
  · split
    · exact ringKept_startVoice _ _ _ _
    · exact (ringKept_requestEnded _ _ _).trans (ringKept_takeQueue _ _ _)
  · exact ringKept_takeQueue _ _ _

theorem ringKept_endVoice (s : State) (n : Fin 4) (c : EndCause) : RingKept s (s.endVoice n c) := by
  have reported : ∀ u : State, RingKept u
      (match (s.voice n.val).starter, (s.voice n.val).desc with
        | some l, some d =>
          if (s.voice n.val).cause = some EndCause.reset then u.setEnded l ⟨d, some n, c⟩ else u.chimeEnded l ⟨d, some n, c⟩
        | _, _ => u) := fun u => by
    split
    · exact .ite (fun _ => ringKept_withChime u _) fun _ => (ringKept_withChime u _).trans (ringKept_notice _ _ _)
    · exact .refl u
  unfold State.endVoice
  exact (ringKept_dropClaim s _).trans ((reported _).trans ((ringKept_setVoice _ _ _).trans (ringKept_keepRequest _ _)))

theorem ringKept_reachIdle (s : State) (n : Fin 4) : RingKept s (s.reachIdle n) :=
  .ite (fun _ => (ringKept_endVoice _ _ _).trans (ringKept_takeNext _ _ _)) fun _ => .refl s

theorem ringKept_chainStep (s : State) (n : Fin 4) (d : Descriptor) (next : Option Nat) : RingKept s (s.chainStep n d next) := by
  unfold State.chainStep
  dsimp only
  split
  · split
    · exact (ringKept_setVoice _ _ _).trans ((ringKept_changeClaim _ _ _).trans (ringKept_tableChanged _))
    · exact ringKept_stopVoice _ _ _
  · exact ringKept_stopVoice _ _ _

theorem ringKept_playEnded (s : State) (n : Fin 4) : RingKept s (s.playEnded n) := by
  unfold State.playEnded
  dsimp only
  split
  · rename_i d _
    refine .ite (fun _ => .trans (ringKept_setVoice s n.val ((s.voice n.val).restarted d.mode))
      (.trans ?_ (ringKept_keepRequest _ n))) fun _ => .refl s
    split
    · exact ringKept_setVoice _ _ _
    · split
      · exact ringKept_setVoice _ _ _
      · split
        · exact ringKept_chainStep _ _ _ _
        · exact ringKept_stopVoice _ _ _
  · exact .refl s

theorem ringKept_gapOver (s : State) (n : Fin 4) : RingKept s (s.gapOver n) := by
  unfold State.gapOver
  dsimp only
  split
  · exact .ite (fun _ => (ringKept_setVoice _ _ _).trans (ringKept_setPosted _ _ _)) fun _ => .refl s
  · exact .refl s

theorem ringKept_deadlinePassed (s : State) (n : Fin 4) : RingKept s (s.deadlinePassed n) := by
  unfold State.deadlinePassed
  dsimp only
  split
  · exact .ite (fun _ => (ringKept_reach s _).trans (ringKept_stopVoice _ _ _)) fun _ => .refl s
  · exact .refl s

theorem ringKept_cutVoice (s : State) (n : Fin 4) : RingKept s (s.cutVoice n) := by
  unfold State.cutVoice
  refine .ite (fun _ => .refl s) fun _ => (ringKept_endVoice s n .power).trans ?_
  dsimp only
  split
  · exact ringKept_requestEnded _ _ _
  · exact .refl _

theorem ringKept_cutChimes (s : State) : RingKept s s.cutChimes :=
  (RingKept.foldl _ ringKept_cutVoice _ s).trans ((ringKept_withChime _ { (State.chime _) with queue := [] }).trans
    (.foldl _ (fun s r => ringKept_requestEnded s r .power) _ _))

theorem ringKept_cancelSuccessor (s : State) (p : Request → Bool) (n : Fin 4) : RingKept s (s.cancelSuccessor p n) := by
  unfold State.cancelSuccessor
  split
  · exact .ite (fun _ => (ringKept_setVoice s n.val { s.voice n.val with successor := none }).trans (ringKept_requestEnded _ _ _))
      fun _ => .refl s
  · exact .refl s

theorem ringKept_stopWhere (s : State) (v : Voice → Bool) (r : Request → Bool) (c : EndCause) :
    RingKept s (s.stopWhere v r c) := by
  have withdrawn : ∀ u : State, RingKept u (u.withdrawQueued r) := fun u =>
    (ringKept_withChime u _).trans (.foldl _ (fun s r => ringKept_requestEnded s r _) _ _)
  unfold State.stopWhere
  exact (RingKept.foldl _ (fun s n => .ite (fun _ => ringKept_stopVoice s n c) fun _ => .refl s) _ s).trans
    ((withdrawn _).trans (.foldl _ (fun s n => ringKept_cancelSuccessor s r n) _ _))

theorem ringKept_preempt (s : State) (n : Fin 4) (r : Request) : RingKept s (s.preempt n r) := by
  have stopped : RingKept s ((s.stopVoice n .preempted).setVoice n.val
      { (s.stopVoice n .preempted).voice n.val with successor := some r }) :=
    (ringKept_stopVoice _ _ _).trans (ringKept_setVoice _ _ _)
  unfold State.preempt
  dsimp only
  split
  · exact stopped.trans (ringKept_advise _ _ _)
  · exact stopped

theorem ringKept_requestChime (s : State) (l : Link) (d : Nat) (x : Descriptor) : RingKept s (s.requestChime l d x).2 := by
  unfold State.requestChime
  repeat' split
  · exact ringKept_withChime _ _
  · exact .refl s
  · exact ringKept_startVoice _ _ _ _
  · exact ringKept_preempt _ _ _
  · exact ringKept_withChime _ _
  · exact .refl s

/-! ### The ring through the Sample Store's work (R113, R171, R172, R178) -/

theorem ringKept_burst (s : State) (l : Link) (c : Channel) (x : Transfer) : RingKept s (s.burst l c x) := by
  unfold State.burst
  dsimp only
  generalize hst : (if c.write then s.store.writeAll c.current (x.words.take (min 32 x.left)) else s.store) = st
  have bounds : (st.u0, st.u1) = (s.store.u0, s.store.u1) := by
    rw [← hst]
    split
    · rw [Store.writeAll_fields]
    · rfl
  generalize hu : State.setWaiting _ l _ = u
  have moved : RingKept s u :=
    hu ▸ ringKept_withStore s { st with pointer := nextLink l, posted := List.replicate 6 none,
                                        channels := st.channels.set l (c.moved (min 32 x.left)), waiting := _ } bounds
  have delivered : ∀ (b : Bool) (ws : List Word), RingKept s (if b then u.deliver l ws else u) := fun b ws => by
    refine .ite (fun _ => moved.trans ?_) fun _ => moved
    unfold State.deliver
    split
    · exact ringKept_setSlot _ _ _
    · exact .refl u
  exact .ite (fun _ => (delivered _ _).trans (ringKept_notice _ _ _)) fun _ => delivered _ _

theorem ringKept_bulkTurns (l : Link) (n : Nat) (s : State) : RingKept s (State.bulkTurns l n s) := by
  have turned : ∀ s : State, RingKept s s.bulkTurn := fun s => by
    unfold State.bulkTurn
    split
    · exact .refl s
    · split
      · exact ringKept_burst _ _ _ _
      · exact ringKept_withStore s _ rfl
  induction n generalizing s with
  | zero => exact .refl s
  | succ n ih => exact .ite (fun _ => (turned s).trans (ih _)) fun _ => .refl s

theorem ringKept_replyReady (s : State) (l : Link) : RingKept s (s.replyReady l) := by
  unfold State.replyReady
  refine .trans (ringKept_bulkTurns l s.turnsNeeded s) ?_
  dsimp only
  split
  · exact .refl _
  · exact ringKept_setSlot _ _ _

/-- The bounds moved and the loss of descriptors told, before a buffer whose region moved is discarded (R171, R172). -/
def State.rebounded (s : State) (u0 u1 : Nat) : State :=
  let st := { s.store with u0 := u0, u1 := u1 }
  let t := (s.withStore st).withChime { s.chime with descs := s.chime.descs.map st.settle }
  Link.every.foldl (fun t l =>
    if lostBy st s.chime.descs l = 0 then t else t.advise l (.descriptorInvalidated (lostBy st s.chime.descs l))) t

theorem State.moveBounds_state (s : State) (u0 u1 : Nat) :
    (s.moveBounds u0 u1).2 = if u1 ≠ s.store.u1 then (s.rebounded u0 u1).discard .region else s.rebounded u0 u1 := rfl

theorem happens_rebounded (s : State) (u0 u1 : Nat) : Happens [] ((s.withStore { s.store with u0 := u0, u1 := u1 }).withChime
    { s.chime with descs := s.chime.descs.map { s.store with u0 := u0, u1 := u1 : Store }.settle }) (s.rebounded u0 u1) := by
  unfold State.rebounded
  exact happens_foldl _ (fun t l => .ite (.refl _ t) (happens_advise t l _)) _ _

theorem State.rebounded_store (s : State) (u0 u1 : Nat) : (s.rebounded u0 u1).store = { s.store with u0 := u0, u1 := u1 } :=
  (happens_rebounded s u0 u1).blocks.2 .store (by decide)

theorem State.rebounded_shift (s : State) (u0 u1 : Nat) : (s.rebounded u0 u1).shift = s.shift :=
  (happens_rebounded s u0 u1).blocks.2 .shift (by decide)

/-- R113, R172: where the SHIFT region moves, what the buffer held is discarded, and an empty one is within any bounds. -/
theorem ringKept_moveBounds (s : State) {u0 u1 : Nat} (lower : u0 ≤ u1) (upper : u1 ≤ 256) :
    RingKept s (s.moveBounds u0 u1).2 := fun h => by
  have shift := s.rebounded_shift u0 u1
  have store := s.rebounded_store u0 u1
  have bounded : (s.rebounded u0 u1).store.Bounded := by rw [store]; exact ⟨lower, upper⟩
  obtain ⟨-, within⟩ := (State.shiftWf_iff s).1 h
  rw [State.moveBounds_state]
  split
  · by_cases off : s.shift.state = .off
    · rw [State.discard_of_off (shift.symm ▸ off), State.shiftWf_iff, shift]
      exact ⟨bounded, within.off, fun on => absurd off on⟩
    · exact shiftWf_discard bounded (shift.symm ▸ off) .region
  · rename_i same
    obtain rfl := not_not.1 same
    rw [State.shiftWf_iff, shift, store]
    exact ⟨⟨lower, upper⟩, within.off, fun on => ⟨(within.on on).fill, (within.on on).region, (within.on on).write, (within.on on).replay⟩⟩

theorem ringKept_regionSetBody (b : List Byte) (s : State) : RingKept s (regionSetBody b s).2 := by
  unfold regionSetBody
  dsimp only
  split
  · exact .refl s
  · split
    · exact .refl s
    · rename_i bounds
      obtain ⟨lower, upper⟩ := not_or.1 bounds
      split
      · exact .refl s
      · split
        · exact .refl s
        · exact ringKept_moveBounds s (not_lt.1 lower) (not_lt.1 upper)

/-! ### The ring through a frame event (R102, R103) -/

theorem ringKept_fadeOutEnd (s : State) (k : Nat) : RingKept s (s.fadeOutEnd k) := by
  unfold State.fadeOutEnd
  exact .ite (fun _ => .ite (fun _ => id) fun _ => ringKept_setSink _ _ _) fun _ => .refl s

theorem ringKept_fadeInEnd (s : State) (k : Nat) : RingKept s (s.fadeInEnd k) :=
  .ite (fun _ => ringKept_setSink s k _) fun _ => .refl s

theorem ringKept_releaseGuard (s : State) (k : Nat) : RingKept s (s.releaseGuard k) :=
  .ite (fun _ => ringKept_setSink s k _) fun _ => .refl s

theorem ringKept_speedGrowsStale (s : State) : RingKept s s.speedGrowsStale :=
  .ite (fun _ => .refl s) fun _ => (ringKept_reach s _).trans (ringKept_withMix _ _)

theorem ringKept_settled {f : State → State} (s : State) (h : RingKept s (f s)) : RingKept s (settled f s) :=
  h.trans (ringKept_offerEdges _ _)

theorem ringKept_settleDue (s : State) : RingKept s s.settleDue := by
  unfold State.settleDue
  have sinks : ∀ (s : State) (k : Nat), RingKept s
      (settled (fun s => s.fadeInEnd k) (settled (fun s => s.fadeOutEnd k) (settled (fun s => s.releaseGuard k) s))) :=
    fun s k => (ringKept_settled s (ringKept_releaseGuard s k)).trans
      ((ringKept_settled _ (ringKept_fadeOutEnd _ k)).trans (ringKept_settled _ (ringKept_fadeInEnd _ k)))
  have plays : ∀ (s : State) (n : Fin 4), RingKept s (settled (fun s => s.gapOver n) (settled (fun s => s.playEnded n) s)) :=
    fun s n => (ringKept_settled s (ringKept_playEnded s n)).trans (ringKept_settled _ (ringKept_gapOver _ n))
  have ends : ∀ (s : State) (n : Fin 4), RingKept s (settled (fun s => s.reachIdle n) s) :=
    fun s n => ringKept_settled s (ringKept_reachIdle s n)
  exact (ringKept_settled s (ringKept_windowJudged s)).trans ((RingKept.foldl _ sinks _ _).trans
    ((ringKept_settled _ (ringKept_replayDrained _)).trans ((ringKept_settled _ (ringKept_memoReplayEnded _)).trans
      ((RingKept.foldl _ plays _ _).trans (RingKept.foldl _ ends _ _)))))

/-- R101: the word after a word of the region is a word of the region. -/
theorem Store.ringNext_within {st : Store} (h : st.shiftSize ≠ 0) {a : Addr} (ha : st.u1 * 65536 ≤ a.toNat) :
    st.u1 * 65536 ≤ (st.ringNext a).toNat := by
  unfold Store.ringNext
  split
  · exact (Store.shiftFirst_toNat h).ge
  · have next : (a + 1).toNat = a.toNat + 1 := by bv_omega
    omega

theorem Store.ringSkip_within {st : Store} (h : st.shiftSize ≠ 0) (n : Nat) {a : Addr} (ha : st.u1 * 65536 ≤ a.toNat) :
    st.u1 * 65536 ≤ (st.ringSkip n a).toNat := by
  induction n generalizing a with
  | zero => exact ha
  | succ n ih => exact ih (Store.ringNext_within h ha)

theorem ringKept_afterReplay (s : State) : RingKept s s.afterReplay := by
  refine .ite (fun replaying => ringKept_withShift s _ fun _ within => ?_) fun _ => .refl s
  have on : s.shift.state ≠ .off := fun off => by simp [ShiftBuffer.replaying, off] at replaying
  refine ⟨fun off => absurd off on, fun _ => ?_⟩
  obtain ⟨fill, region, write, p, replay, inside⟩ := within.on on
  exact ⟨(Nat.sub_le _ _).trans fill, region, write, _, by rw [replay]; rfl, Store.ringSkip_within region _ inside⟩

/-- What a word recorded leaves of a buffer that is not OFF. -/
theorem State.record_placed (s : State) (w : Word) (h : s.shift.Placed s.store) : (s.record w).shift.Placed s.store := by
  obtain ⟨fill, region, ⟨a, write, first⟩, p, replay, inside⟩ := h
  have next : s.store.u1 * 65536 ≤ (s.store.ringNext (s.shift.write.getD s.store.shiftFirst)).toNat := by
    rw [write]
    exact Store.ringNext_within region first
  unfold State.record
  dsimp only
  split
  · exact ⟨Nat.succ_le_of_lt ‹_›, region, ⟨_, rfl, next⟩, p, replay, inside⟩
  · have full : ShiftBuffer.Placed { s.shift with
        write := some (s.store.ringNext (s.shift.write.getD s.store.shiftFirst)),
        replay := s.shift.replay.map s.store.ringNext, wrapped := true } s.store :=
      ⟨fill, region, ⟨_, rfl, next⟩, _, by rw [replay]; rfl, Store.ringNext_within region inside⟩
    split
    · exact full
    · rw [(happens_riseAll _ 4).blocks.2 .shift (by decide)]
      exact full

theorem State.record_state (s : State) (w : Word) : (s.record w).shift.state = s.shift.state := by
  unfold State.record
  dsimp only
  split
  · rfl
  · split
    · rfl
    · rw [(happens_riseAll _ 4).blocks.2 .shift (by decide)]
      rfl

theorem ringKept_record {s : State} (w : Word) (on : s.shift.state ≠ .off) : RingKept s (s.record w) := fun h => by
  obtain ⟨bounds, within⟩ := (State.shiftWf_iff s).1 h
  obtain ⟨fill, region, write, replay⟩ := s.record_placed w (within.on on)
  rw [State.shiftWf_iff, State.record_store]
  exact ⟨bounds, fun off => absurd ((s.record_state w).symm.trans off) on, fun _ => ⟨fill, region, write, replay⟩⟩

theorem ringKept_recordAll (ws : List Word) {s : State} (on : s.shift.state ≠ .off) : RingKept s (ws.foldl State.record s) := by
  induction ws generalizing s with
  | nil => exact .refl s
  | cons w ws ih => exact (ringKept_record w on).trans (ih ((s.record_state w).symm ▸ on))

/-- A buffer that is OFF captures nothing. -/
theorem ringKept_capture (s : State) (o : Offers) : RingKept s (s.capture o) := fun h => by
  have on : s.shift.running = true → s.shift.state ≠ .off := fun running off => by
    simp [(((State.shiftWf_iff s).1 h).2.off off).stopped] at running
  refine RingKept.ite (t := match s.shift.captured with | some t => _ | none => s) (fun running => ?_) (fun _ => .refl s) h
  split
  · exact ringKept_recordAll _ (on running)
  · exact .refl s

theorem ringKept_postStreams (s : State) : RingKept s s.postStreams := by
  unfold State.postStreams
  exact (ringKept_withStore s { s.store with posted := List.replicate 6 none } rfl).trans ((ringKept_setPosted _ _ _).trans
    ((ringKept_setPosted _ _ _).trans (.foldl _ (fun s n => ringKept_setPosted s _ _) _ _)))

theorem ringKept_frame (s : State) (x : FrameInput) : RingKept s (s.frame x) := by
  unfold State.frame
  exact (ringKept_withMix s _).trans ((ringKept_afterReplay _).trans ((ringKept_capture _ _).trans
    ((ringKept_withCall _ _).trans ((RingKept.of_happens (happens_cancel _ x) (by decide)).trans
      ((RingKept.of_happens (happens_handUplink _) (by decide)).trans ((RingKept.of_happens (happens_conference _ x) (by decide)).trans
        ((ringKept_withStations _ _).trans ((ringKept_withChime _ _).trans ((ringKept_postStreams _).trans
          (.of_happens (happens_nextFrame _) (by decide)))))))))))

theorem ringKept_frameEvent (s : State) (x : FrameInput) : RingKept s (s.frameEvent x) := by
  unfold State.frameEvent
  split
  · exact .refl s
  · exact (ringKept_settleDue s).trans ((ringKept_reach _ _).trans (ringKept_frame _ x))

/-! ### The ring through Power Control and the resets (R192 to R194) -/

theorem ringKept_parkTuners (s : State) : RingKept s s.parkTuners :=
  .trans (t := (s.withTunA s.tunA.rest).dropHolder) id ((ringKept_enterB _ _ _).trans (ringKept_withPorts _ _))

theorem ringKept_leaveRun (s : State) (st : PowerState) : RingKept s (s.leaveRun st) := by
  rw [State.leaveRun_eq]
  have ended : ∀ u : State, RingKept u u.endFrames := fun _ => .of_same rfl rfl rfl
  have stopped : RingKept s (s.stopRun st) :=
    (ringKept_withPower s _).trans ((ringKept_withMix _ _).trans ((ringKept_cutChimes _).trans
      ((ringKept_discard _ _).trans ((ringKept_parkTuners _).trans (ended _)))))
  exact (stopped.trans (.ite (fun _ => ringKept_withPower _ _) fun _ => ringKept_withPower _ _)).reassessed

theorem ringKept_moveParked (s : State) (st : PowerState) : RingKept s (s.moveParked st) := by
  unfold State.moveParked
  have moved := ringKept_withPower s { s.power with state := st }
  exact .ite (fun _ => id) fun _ => RingKept.reassessed
    (.trans (.ite (fun _ => moved.trans (ringKept_enterB _ _ _)) fun _ => moved) (ringKept_withPower _ _))

theorem ringKept_moveTo (s : State) (st : PowerState) : RingKept s (s.moveTo st) := by
  unfold State.moveTo
  exact .ite (fun _ => ringKept_enterRun _ _) fun _ => .ite (fun _ => ringKept_leaveRun _ _) fun _ => ringKept_moveParked _ _

theorem ringKept_filled (s : State) : RingKept s s.filled := by
  unfold State.filled
  refine .ite (fun _ => .trans (ringKept_reach s (s.store.initAt + milliseconds 40)) ?_) fun _ => .refl s
  generalize s.reach (s.store.initAt + milliseconds 40) = u
  exact .trans (ringKept_withStore u { u.store with initialising := false } rfl)
    (.trans (ringKept_withPower _ { u.power with state := .sleep }) (ringKept_wake _ _ _))

theorem ringKept_ignitionRose (s : State) : RingKept s s.ignitionRose :=
  (ringKept_withPower s { s.power with ignition := highFrom s.clock.now }).trans (ringKept_wake _ _ _)

theorem ringKept_refreshDue (s : State) : RingKept s s.refreshDue := by
  unfold State.refreshDue
  split
  · rename_i t m _
    have stopped : RingKept s (s.reach (t + minutes m)).stopTimer := (ringKept_reach s _).trans (ringKept_withPower _ _)
    exact .ite (fun _ => stopped.trans (.ite (fun _ => .refl _) fun _ => ringKept_startSweep _ _)) fun _ => .refl s
  · exact .refl s

theorem ringKept_resetOwn (s : State) (l : Link) : RingKept s (s.resetOwn l) := by
  match l with
  | .telephony => exact .ite (fun _ => .refl s) fun _ => ringKept_enterCall _ _
  | .rear => exact ringKept_endHolding s
  | .cockpit => exact .refl s
  | .body => exact .refl s

theorem ringKept_resetLink (s : State) (l : Link) : RingKept s (s.resetLink l) := by
  unfold State.resetLink
  have unmuted : ∀ u : State, RingKept u ((u.unmuteAll l).setChannel l none) := fun u => id
  exact (ringKept_setLink s l _).trans ((ringKept_withTable _ _).trans ((ringKept_tableChanged _).trans ((unmuted _).trans
    ((ringKept_stopWhere _ _ _ _).trans (ringKept_resetOwn _ _)))))

theorem ringKept_resetTuners (s : State) : RingKept s s.resetTuners := by
  unfold State.resetTuners
  exact (ringKept_withRadio s _).trans ((ringKept_withTunA _ _).trans ((ringKept_setHolder _ none).trans
    (.ite (fun _ => .refl _) fun _ => ringKept_enterB _ _ _)))

theorem ringKept_resetHub (s : State) : RingKept s s.resetHub := by
  unfold State.resetHub
  refine (RingKept.foldl _ (fun s l => ringKept_bulkTurns l s.turnsNeeded s) Link.every s).trans ?_
  dsimp only
  change RingKept s.finishTransfers _
  generalize s.finishTransfers = u
  have restarted : ∀ v : State, RingKept v v.restartTuners := fun v =>
    .ite (fun _ => ringKept_retuneA _ _ _) fun _ => ringKept_reassess _
  refine .trans ?_ (restarted _)
  refine .trans ?_ (ringKept_resetTuners _)
  refine .trans ?_ (ringKept_withPower _ _)
  refine .trans ?_ (ringKept_withStore _ _ rfl)
  refine .trans ?_ (ringKept_withChime _ _)
  refine .trans ?_ (ringKept_withStations _ _)
  refine .trans ?_ (ringKept_withCall _ _)
  exact ringKept_withShift _ .off fun _ _ => ShiftBuffer.within_off _

end Sys2Proof.Machine
end

section
namespace Sys2Proof.Machine

/-! ### The ring through the orders -/

/-- An order that is answered after what it does. -/
theorem RingKept.answered {s t : State} (h : RingKept s t) (st : Status) : RingKept s (answer st t).2 := h

/-- Every answer of an order keeps the ring. -/
def BodyRingKept (body : List Byte → State → Reply × State) : Prop := ∀ b s, RingKept s (body b s).2

theorem ringKept_setProgramBody : BodyRingKept setProgramBody := fun b s => by
  unfold setProgramBody
  repeat' split
  any_goals with_reducible exact ringKept_answer _ s
  exact .ite (fun _ => (ringKept_withMix s _).trans (ringKept_discard _ _)) fun _ => ringKept_withMix s _

theorem ringKept_setVolumeBody : BodyRingKept setVolumeBody := fun b s => by
  unfold setVolumeBody
  repeat' split
  all_goals exact id

theorem ringKept_setTrimBody : BodyRingKept setTrimBody := fun b s => by
  unfold setTrimBody
  dsimp only
  repeat' split
  all_goals exact id

theorem ringKept_setDelayBody : BodyRingKept setDelayBody := fun b s => by
  unfold setDelayBody
  dsimp only
  repeat' split
  all_goals exact id

theorem ringKept_setSpeedCurveBody : BodyRingKept setSpeedCurveBody := fun b s => by
  unfold setSpeedCurveBody
  repeat' split
  all_goals exact id

theorem ringKept_speedBody : BodyRingKept speedBody := fun _ s => ringKept_withMix s _

theorem ringKept_muteBody (l : Link) (g : LinkSet → LinkSet) : BodyRingKept (muteBody l g) := fun b s => by
  unfold muteBody
  repeat' split
  all_goals exact id

theorem ringKept_tuneABody : BodyRingKept tuneABody := fun b s => by
  unfold tuneABody
  repeat' split
  any_goals with_reducible exact ringKept_answer _ s
  exact ringKept_retuneA _ _ _

theorem ringKept_seekABody : BodyRingKept seekABody := fun b s => by
  unfold seekABody
  repeat' split
  any_goals with_reducible exact ringKept_answer _ s
  exact ringKept_seek _ _

theorem ringKept_presetStoreBody : BodyRingKept presetStoreBody := fun b s => by
  unfold presetStoreBody
  dsimp only
  repeat' split
  any_goals with_reducible exact ringKept_answer _ s
  all_goals exact (ringKept_withRadio s _).reassessed

theorem ringKept_presetRecallBody : BodyRingKept presetRecallBody := fun b s => by
  unfold presetRecallBody
  dsimp only
  repeat' split
  any_goals with_reducible exact ringKept_answer _ s
  exact ringKept_retuneA _ _ _

theorem ringKept_scanPolicyBody : BodyRingKept scanPolicyBody := fun b s => by
  unfold scanPolicyBody
  repeat' split
  any_goals with_reducible exact ringKept_answer _ s
  exact (ringKept_withRadio s _).reassessed

theorem ringKept_afPolicyBody : BodyRingKept afPolicyBody := fun b s => by
  unfold afPolicyBody
  dsimp only
  repeat' split
  all_goals exact id

theorem ringKept_listReadBody : BodyRingKept listReadBody := fun b s => by
  unfold listReadBody
  dsimp only
  split <;> exact .refl s

theorem ringKept_trafficModeBody : BodyRingKept trafficModeBody := fun b s => by
  unfold trafficModeBody
  repeat' split
  any_goals with_reducible exact ringKept_answer _ s
  exact ringKept_setTraffic _ _ _

theorem ringKept_resumeBody : BodyRingKept resumeBody := fun b s => by
  unfold resumeBody
  split
  · exact ringKept_resumeReplay ‹_›
  · exact .refl s

theorem ringKept_goLiveBody : BodyRingKept goLiveBody := fun b s => by
  unfold goLiveBody
  split
  · exact ringKept_shiftOff _
  · exact .refl s

theorem ringKept_shiftPolicyBody : BodyRingKept shiftPolicyBody := fun b s => by
  unfold shiftPolicyBody
  repeat' split
  all_goals exact id

theorem ringKept_callStateBody (b : List Byte) (s : State) : RingKept s (callStateBody b s).2 := by
  unfold callStateBody
  split
  · exact ringKept_answer _ s
  · split
    · exact ringKept_answer _ s
    · exact (ringKept_enterCall s _).trans (.ite (fun _ => ringKept_wake _ _ _) fun _ => .refl _)

theorem ringKept_callPlaceBody : BodyRingKept callPlaceBody := fun b s => by
  unfold callPlaceBody
  repeat' split
  any_goals with_reducible exact ringKept_answer _ s
  exact ringKept_placeCall _ _

theorem ringKept_micSelectBody : BodyRingKept micSelectBody := fun b s => by
  unfold micSelectBody
  dsimp only
  repeat' split
  any_goals with_reducible exact ringKept_answer _ s
  all_goals exact (ringKept_withCall s _).trans (ringKept_chooseMic _)

theorem ringKept_micMuteBody (g : LinkSet → LinkSet) : BodyRingKept (micMuteBody g) := fun _ s => ringKept_withCall s _

theorem ringKept_callVolumeBody : BodyRingKept callVolumeBody := fun _ s => ringKept_withCall s _

theorem ringKept_stationSourceBody (l : Link) : BodyRingKept (stationSourceBody l) := fun b s => by
  unfold stationSourceBody
  repeat' split
  any_goals with_reducible exact ringKept_answer _ s
  exact ringKept_setSource _ _ _

theorem ringKept_stationTuneBody (l : Link) : BodyRingKept (stationTuneBody l) := fun b s => by
  unfold stationTuneBody
  repeat' split
  any_goals with_reducible exact ringKept_answer _ s
  exact ringKept_lend _ _ _

theorem ringKept_stationVolumeBody (l : Link) : BodyRingKept (stationVolumeBody l) := fun b s => by
  unfold stationVolumeBody
  repeat' split
  any_goals with_reducible exact ringKept_answer _ s
  exact ringKept_setStation _ _ _

theorem ringKept_stationSwapBody (l : Link) : BodyRingKept (stationSwapBody l) := fun b s => by
  unfold stationSwapBody
  repeat' split
  any_goals with_reducible exact ringKept_answer _ s
  exact ringKept_setStation _ _ _

theorem ringKept_jackMeasureBody (l : Link) : BodyRingKept (jackMeasureBody l) := fun b s => by
  unfold jackMeasureBody
  repeat' split
  any_goals with_reducible exact ringKept_answer _ s
  exact ringKept_setStation _ _ _

theorem ringKept_stationCapBody : BodyRingKept stationCapBody := fun _ s => ringKept_withStations s _

theorem ringKept_rearLockBody : BodyRingKept rearLockBody := fun b s => by
  unfold rearLockBody
  repeat' split
  all_goals exact id

theorem ringKept_chimeDefineBody (l : Link) : BodyRingKept (chimeDefineBody l) := fun b s => by
  unfold chimeDefineBody
  dsimp only
  repeat' split
  all_goals exact id

theorem ringKept_chimeStartBody (l : Link) (b : List Byte) (s : State) : RingKept s (chimeStartBody l b s).2 := by
  unfold chimeStartBody
  dsimp only
  repeat' split
  any_goals with_reducible exact ringKept_answer _ s
  exact (ringKept_wake _ _ _).trans (ringKept_requestChime _ _ _ _)

theorem ringKept_chimeStopBody : BodyRingKept chimeStopBody := fun b s => by
  unfold chimeStopBody
  dsimp only
  repeat' split
  any_goals with_reducible exact ringKept_answer _ s
  exact (ringKept_stopWhere _ _ _ _).answered _

theorem ringKept_chimeStopAllBody : BodyRingKept chimeStopAllBody := fun _ s => (ringKept_stopWhere s _ _ _).answered _

theorem ringKept_chimeRenewBody : BodyRingKept chimeRenewBody := fun b s => by
  unfold chimeRenewBody
  dsimp only
  repeat' split
  all_goals exact id

theorem ringKept_chimeReadBody : BodyRingKept chimeReadBody := fun b s => by
  unfold chimeReadBody
  repeat' split
  all_goals exact .refl s

theorem ringKept_rightsSetBody : BodyRingKept rightsSetBody := fun b s => by
  have moved : ∀ (r : Region) (l : Link) (x : Right), RingKept s (s.withStore (s.store.setRight r l x)) := fun r l x => by
    cases r <;> exact ringKept_withStore s _ rfl
  unfold rightsSetBody
  repeat' split
  any_goals with_reducible exact ringKept_answer _ s
  exact moved _ _ _

theorem ringKept_storeOpenBody (l : Link) : BodyRingKept (storeOpenBody l) := fun b s => by
  unfold storeOpenBody
  dsimp only
  repeat' split
  all_goals exact id

theorem ringKept_storeDataBody (l : Link) (x : DataForm) (s : State) : RingKept s (storeDataBody l x s).2 := by
  unfold storeDataBody
  have waits : ∀ ws n, RingKept s (s.awaitWords l ws n).2 := fun _ _ =>
    .ite (fun _ => .refl s) fun _ => ringKept_withStore _ _ rfl
  repeat' split
  any_goals with_reducible exact ringKept_answer _ s
  all_goals exact waits _ _

theorem ringKept_storeCloseBody (l : Link) : BodyRingKept (storeCloseBody l) := fun b s => by
  unfold storeCloseBody
  repeat' split
  all_goals exact id

theorem ringKept_watchSetBody (l : Link) : BodyRingKept (watchSetBody l) := fun _ s => ringKept_setLink s l _

theorem ringKept_watchClearBody (l : Link) : BodyRingKept (watchClearBody l) := fun _ s => ringKept_setLink s l _

theorem ringKept_eventsReadBody (l : Link) : BodyRingKept (eventsReadBody l) := fun _ s => ringKept_setLink s l _

theorem ringKept_powerBody (b : List Byte) (s : State) : RingKept s (powerBody b s).2 := by
  unfold powerBody
  repeat' split
  any_goals with_reducible exact ringKept_answer _ s
  exact ringKept_moveTo _ _

theorem ringKept_wakeSetBody : BodyRingKept wakeSetBody := fun b s => by
  unfold wakeSetBody
  repeat' split
  all_goals exact id

theorem ringKept_claimBody (l : Link) : BodyRingKept (claimBody l) := fun b s => by
  unfold claimBody
  repeat' split
  any_goals with_reducible exact ringKept_answer _ s
  exact (ringKept_post s _ _).trans (ringKept_tableChanged _)

theorem ringKept_releaseBody (l : Link) : BodyRingKept (releaseBody l) := fun b s => by
  unfold releaseBody
  dsimp only
  repeat' split
  any_goals with_reducible exact ringKept_answer _ s
  exact ringKept_dropClaim s _

theorem ringKept_amendBody (l : Link) : BodyRingKept (amendBody l) := fun b s => by
  unfold amendBody
  dsimp only
  repeat' split
  any_goals with_reducible exact ringKept_answer _ s
  exact (ringKept_setClaim s _ _).trans (ringKept_tableChanged _)

/-! ### The ring through every command -/

theorem ringKept_order {α : Type} {l : Link} {f : Frame} {links : List Link} {ops : Option α} {body : α → State → Reply × State}
    {s t : State} (hb : ∀ b u, RingKept u (body b u).2) (h : order l f links ops body s = .next t) : RingKept s t := by
  obtain rfl := Host.Outcome.next.inj h
  have checks : ∀ u, RingKept u (checked l links ops body u).2 := by
    intro u
    unfold checked
    repeat' split
    · exact .refl u
    · exact hb _ u
    · exact .refl u
  have shown : ∀ r, RingKept s (s.shiftOut l (clocked f) r) := fun r => ringKept_shiftOut s _ _ r
  unfold takeOrder
  split
  · exact shown _
  · exact (shown _).trans ((checks _).trans ((ringKept_offerEdges _ _).trans (ringKept_setSlot _ _ _)))

theorem ringKept_event {f : State → State} {s t : State} (hf : ∀ u, RingKept u (f u)) (h : event f s = .next t) :
    RingKept s t := by
  obtain rfl := Host.Outcome.next.inj h
  exact (hf s).trans (ringKept_offerEdges _ _)

/-- An event of the tuners ends with a new assessment. -/
theorem ringKept_tunerEvent {f : State → State} {s t : State} (hf : ∀ u, RingKept u (f u)) (h : tunerEvent f s = .next t) :
    RingKept s t := ringKept_event (fun u => (hf u).reassessed) h

theorem ringKept_nullFrame {p : SelectPeriod} {s t : State} (h : execNullFrame p s = .next t) : RingKept s t := by
  unfold execNullFrame at h
  split at h <;> obtain rfl := Host.Outcome.next.inj h <;> exact ringKept_shiftOut s _ _ _

theorem ringKept_wait {p : SelectPeriod} {s t : State} (h : execWait p s = .next t) : RingKept s t := by
  unfold execWait at h
  split at h <;> obtain rfl := Host.Outcome.next.inj h
  · exact .refl s
  · exact ringKept_shiftOut s _ _ _

theorem ringKept_unknownOrder {l : Link} {c : Byte} {f : Frame} {s t : State} (h : execUnknownOrder l c f s = .next t) :
    RingKept s t := by
  obtain rfl := Host.Outcome.next.inj h
  unfold takeOrder
  split
  · exact ringKept_shiftOut s _ _ _
  · dsimp only
    rw [unknownBody_state]
    exact (ringKept_shiftOut s _ _ _).trans ((ringKept_offerEdges _ _).trans (ringKept_setSlot _ _ _))

theorem ringKept_statusRead {l : Link} {f : Frame} {s t : State} (h : execStatusRead l f s = .next t) : RingKept s t :=
  ringKept_order (fun b u => by rw [statusReadBody_state]; exact .refl u) h

theorem ringKept_tunerMeasurement {x : TunerId} {m : Meas} {s t : State} (h : execTunerMeasurement x m s = .next t) :
    RingKept s t := by
  cases x
  · exact ringKept_tunerEvent (fun u => ringKept_measuredA u m) h
  · exact ringKept_tunerEvent (fun u => ringKept_measuredB u m) h

theorem ringKept_settleEnd {x : TunerId} {m : Meas} {s t : State} (h : execSettleEnd x m s = .next t) : RingKept s t := by
  cases x
  · exact ringKept_tunerEvent (fun u => ringKept_settledA u m) h
  · exact ringKept_tunerEvent (fun u => ringKept_settledB u m) h

theorem ringKept_dataGroup {x : TunerId} {g : DataGroup} {s t : State} (h : execDataGroup x g s = .next t) : RingKept s t := by
  cases x
  · exact ringKept_tunerEvent (fun u => ringKept_groupA u g) h
  · exact ringKept_tunerEvent (fun u => ringKept_groupB u g) h

/-- At power-on the bounds are those of R170, and the buffer is OFF. -/
theorem ringKept_powerOn (ignition jack1 jack2 : Bool) (s : State) (cs : List Instr) :
    RingKept s ((State.powerOn ignition jack1 jack2).withPending cs) := fun _ =>
  (State.shiftWf_iff _).2 ⟨(by decide : Store.fresh.u0 ≤ Store.fresh.u1 ∧ Store.fresh.u1 ≤ 256), ShiftBuffer.within_off _⟩

/-- The orders' own bodies and the events' own steps, put together: one arm for each command. -/
theorem ringKept_exec (c : Instr) {s t : State} (h : exec c s = .next t) : RingKept s t := by
  cases c with
  | claim l f => exact ringKept_order (ringKept_claimBody l) h
  | release l f => exact ringKept_order (ringKept_releaseBody l) h
  | amend l f => exact ringKept_order (ringKept_amendBody l) h
  | setProgram l f => exact ringKept_order ringKept_setProgramBody h
  | setVolume l f => exact ringKept_order ringKept_setVolumeBody h
  | setTrim l f => exact ringKept_order ringKept_setTrimBody h
  | setDelay l f => exact ringKept_order ringKept_setDelayBody h
  | setSpeedCurve l f => exact ringKept_order ringKept_setSpeedCurveBody h
  | speed l f => exact ringKept_order ringKept_speedBody h
  | muteSet l f => exact ringKept_order (ringKept_muteBody l _) h
  | muteClear l f => exact ringKept_order (ringKept_muteBody l _) h
  | tuneA l f => exact ringKept_order ringKept_tuneABody h
  | seekA l f => exact ringKept_order ringKept_seekABody h
  | presetStore l f => exact ringKept_order ringKept_presetStoreBody h
  | presetRecall l f => exact ringKept_order ringKept_presetRecallBody h
  | scanPolicy l f => exact ringKept_order ringKept_scanPolicyBody h
  | afPolicy l f => exact ringKept_order ringKept_afPolicyBody h
  | listRead l f => exact ringKept_order ringKept_listReadBody h
  | trafficMode l f => exact ringKept_order ringKept_trafficModeBody h
  | pause l f => exact ringKept_order ringKept_pauseBody h
  | resume l f => exact ringKept_order ringKept_resumeBody h
  | goLive l f => exact ringKept_order ringKept_goLiveBody h
  | shiftPolicy l f => exact ringKept_order ringKept_shiftPolicyBody h
  | callState l f => exact ringKept_order ringKept_callStateBody h
  | callPlace l f => exact ringKept_order ringKept_callPlaceBody h
  | micSelect l f => exact ringKept_order ringKept_micSelectBody h
  | micMuteSet l f => exact ringKept_order (ringKept_micMuteBody _) h
  | micMuteClear l f => exact ringKept_order (ringKept_micMuteBody _) h
  | callVolume l f => exact ringKept_order ringKept_callVolumeBody h
  | stationSource l f => exact ringKept_order (ringKept_stationSourceBody l) h
  | stationTune l f => exact ringKept_order (ringKept_stationTuneBody l) h
  | stationVolume l f => exact ringKept_order (ringKept_stationVolumeBody l) h
  | stationSwap l f => exact ringKept_order (ringKept_stationSwapBody l) h
  | jackMeasure l f => exact ringKept_order (ringKept_jackMeasureBody l) h
  | stationCap l f => exact ringKept_order ringKept_stationCapBody h
  | rearLock l f => exact ringKept_order ringKept_rearLockBody h
  | chimeDefine l f => exact ringKept_order (ringKept_chimeDefineBody l) h
  | chimeStart l f => exact ringKept_order (ringKept_chimeStartBody l) h
  | chimeStop l f => exact ringKept_order ringKept_chimeStopBody h
  | chimeRenew l f => exact ringKept_order ringKept_chimeRenewBody h
  | chimeStopAll l f => exact ringKept_order ringKept_chimeStopAllBody h
  | chimeRead l f => exact ringKept_order ringKept_chimeReadBody h
  | storeOpen l f => exact ringKept_order (ringKept_storeOpenBody l) h
  | storeData l f => exact ringKept_order (ringKept_storeDataBody l) h
  | storeClose l f => exact ringKept_order (ringKept_storeCloseBody l) h
  | regionSet l f => exact ringKept_order ringKept_regionSetBody h
  | rightsSet l f => exact ringKept_order ringKept_rightsSetBody h
  | watchSet l f => exact ringKept_order (ringKept_watchSetBody l) h
  | watchClear l f => exact ringKept_order (ringKept_watchClearBody l) h
  | eventsRead l f => exact ringKept_order (ringKept_eventsReadBody l) h
  | statusRead l f => exact ringKept_statusRead h
  | power l f => exact ringKept_order ringKept_powerBody h
  | wakeSet l f => exact ringKept_order ringKept_wakeSetBody h
  | linkReset l f => exact ringKept_order (fun _ u => (ringKept_resetLink u l).answered _) h
  | hubReset l f => exact ringKept_order (fun _ u => (ringKept_resetHub u).answered _) h
  | unknownOrder l code f => exact ringKept_unknownOrder (c := code) h
  | nullFrame p => exact ringKept_nullFrame h
  | wait p => exact ringKept_wait h
  | replyReady l => exact Host.Outcome.next.inj h ▸ ringKept_replyReady s l
  | powerOn ignition jack1 jack2 => exact Host.Outcome.next.inj h ▸ ringKept_powerOn ignition jack1 jack2 s _
  | storeReady => exact ringKept_event ringKept_filled h
  | ignitionRise => exact ringKept_event ringKept_ignitionRose h
  | refreshTimerExpiry => exact ringKept_event ringKept_refreshDue h
  | frameEvent x => exact ringKept_event (fun u => ringKept_frameEvent u x) h
  | frameSync gap set => exact ringKept_event (fun u => ringKept_takeSync u gap set) h
  | overdueSlip p => exact ringKept_event (fun u => ringKept_takeOverdue u p) h
  | acquireGiveUp p => exact ringKept_event (fun u => ringKept_takeGiveUp u p) h
  | holdoverTimeout p => exact ringKept_event (fun u => ringKept_takeHoldoverTimeout u p) h
  | clipGuardRelease sink => exact ringKept_event (fun u => ringKept_releaseGuard u sink.val) h
  | delayFadeOutEnd sink => exact ringKept_event (fun u => ringKept_fadeOutEnd u sink.val) h
  | delayFadeInEnd sink => exact ringKept_event (fun u => ringKept_fadeInEnd u sink.val) h
  | speedStale => exact ringKept_event ringKept_speedGrowsStale h
  | tunerMeasurement x m => exact ringKept_tunerMeasurement h
  | settleEnd x m => exact ringKept_settleEnd h
  | seekChannelEnd m => exact ringKept_tunerEvent (fun u => ringKept_seekChannelEnd u m) h
  | afPrefadeEnd => exact ringKept_tunerEvent ringKept_prefadeEnd h
  | afCheckMeasurement m => exact ringKept_tunerEvent (fun u => ringKept_checkMeasured u m) h
  | afGapEnd => exact ringKept_tunerEvent ringKept_gapEnded h
  | afVerifyTimeout => exact ringKept_tunerEvent ringKept_verifyTimedOut h
  | dataGroup x g => exact ringKept_dataGroup h
  | dataTimeout x => exact ringKept_tunerEvent (fun u => ringKept_dataLapsed u x) h
  | sweepChannelEnd m => exact ringKept_tunerEvent (fun u => ringKept_sweepChannelEnd u m) h
  | rejectionTick => exact ringKept_event ringKept_countRejections h
  | aEligibleExpiry => exact ringKept_event ringKept_eligibleExpired h
  | replayDrained => exact ringKept_event ringKept_replayDrained h
  | memoReplayEnd => exact ringKept_event ringKept_memoReplayEnded h
  | windowJudged => exact ringKept_event ringKept_windowJudged h
  | jackInsertion st => exact ringKept_event (fun u => ringKept_inserted u st) h
  | jackRemoval st => exact ringKept_event (fun u => ringKept_removed u st) h
  | measurementComplete st load1 load2 mic => exact ringKept_event (fun u => ringKept_measured u st load1 load2 mic) h
  | graceExpiry st => exact ringKept_event (fun u => ringKept_graceExpired u st) h
  | voicePlayEnd v => exact ringKept_event (fun u => ringKept_playEnded u v) h
  | gapEnd v => exact ringKept_event (fun u => ringKept_gapOver u v) h
  | deadlineExpiry v => exact ringKept_event (fun u => ringKept_deadlinePassed u v) h
  | voiceIdle v => exact ringKept_event (fun u => ringKept_reachIdle u v) h

/-- Settles O12: a buffer leaves OFF at the region's first word, its positions go round inside the region and its fill up to the
region's size, and one whose region moves is discarded. -/
theorem stepKeepsShiftBuffer : Obligations.StepKeepsShiftBuffer := by
  unfold Obligations.StepKeepsShiftBuffer
  intro s t hs h
  unfold step at h
  split at h
  · obtain rfl := Host.Outcome.next.inj h
    exact ringKept_reach s _ hs
  · exact ((ringKept_withPending s _).trans (ringKept_exec _ h)) hs

end Sys2Proof.Machine
end

section
namespace Sys2Proof.Machine

/-! ### The ring of the SHIFT region (R101) -/

theorem State.ring_zero (s : State) (a : Addr) : s.ring a 0 = a := by
  unfold State.ring
  rw [Nat.add_zero, if_pos a.isLt, BitVec.ofNat_toNat, BitVec.setWidth_eq]

/-- The ring reads nothing but the region's first word. -/
theorem State.ring_congr {s t : State} (h : t.store.u1 = s.store.u1) (a : Addr) (i : Nat) : t.ring a i = s.ring a i := by
  rw [State.ring, State.ring, h]

theorem State.ringSkip_eq (s : State) {n : Nat} (h : n ≤ 65535) (a : Addr) : s.store.ringSkip n a = s.ring a n := by
  induction n generalizing a with
  | zero => exact (s.ring_zero a).symm
  | succ n ih => rw [Store.ringSkip, ih (by omega), s.ring_ringNext a h]

theorem State.ringNext_eq (s : State) (a : Addr) : s.store.ringNext a = s.ring a 1 := s.ringSkip_eq (n := 1) (by decide) a

theorem State.ring_ring (s : State) {i j : Nat} (h : i + j ≤ 65535) (a : Addr) : s.ring (s.ring a i) j = s.ring a (i + j) := by
  induction i generalizing a with
  | zero => rw [s.ring_zero, Nat.zero_add]
  | succ i ih => rw [← s.ring_ringNext a (by omega), ih (by omega), s.ring_ringNext a (by omega), Nat.add_right_comm]

/-- The region begins and ends at multiples of 65,536 words, so that fewer steps never come back to where they began. -/
theorem State.ring_ne (s : State) (a : Addr) {i : Nat} (pos : 0 < i) (h : i ≤ 65535) : s.ring a i ≠ a := fun back => by
  have whole := a.isLt
  have back := congrArg BitVec.toNat back
  simp only [State.ring, BitVec.toNat_ofNat] at back
  split at back <;> omega

/-! ### A frame's words recorded (R102) -/

/-- The buffer and the store of `t` are those of `s` after the words `ws` have been recorded from W = `w` on, with the oldest word
at `p`. -/
structure Recorded (ws : List Word) (w p : Addr) (s t : State) : Prop where
  others : t.shift = { s.shift with write := t.shift.write, replay := t.shift.replay, fill := t.shift.fill, wrapped := t.shift.wrapped }
  write : t.shift.write = some (s.ring w ws.length)
  fill : t.shift.fill = min s.store.shiftSize (s.shift.fill + ws.length)
  replay : t.shift.replay = some (s.ring p (s.shift.fill + ws.length - s.store.shiftSize))
  wrapped : t.shift.wrapped = true ↔ s.shift.wrapped = true ∨ s.store.shiftSize < s.shift.fill + ws.length
  told : s.shift.wrapped = false → t.shift.wrapped = true → RiseLatched 4 s t
  read : ∀ i, i < ws.length → t.store.read (s.ring w i) = ws.getD i 0
  kept : ∀ a, (∀ i, i < ws.length → a ≠ s.ring w i) → t.store.read a = s.store.read a

theorem recorded_nil {s : State} {w p : Addr} (hw : s.shift.write = some w) (hp : s.shift.replay = some p)
    (fits : s.shift.fill ≤ s.store.shiftSize) : Recorded [] w p s s where
  others := rfl
  write := hw.trans (congrArg some (s.ring_zero w).symm)
  fill := (Nat.min_eq_right fits).symm
  replay := by rw [List.length_nil, Nat.add_zero, Nat.sub_eq_zero_of_le fits, s.ring_zero, hp]
  wrapped := (or_iff_left (Nat.not_lt.2 fits)).symm
  told no yes := absurd (no.symm.trans yes) (by decide)
  read i h := absurd h (Nat.not_lt_zero i)
  kept _ _ := rfl

/-- One word: where there is room the fill grows by one, and in a full ring the oldest word is overwritten. -/
theorem State.record_shift (s : State) (x : Word) {w p : Addr} (hw : s.shift.write = some w) (hp : s.shift.replay = some p) :
    (s.shift.fill < s.store.shiftSize →
        (s.record x).shift = { s.shift with write := some (s.ring w 1), fill := s.shift.fill + 1 })
      ∧ (¬s.shift.fill < s.store.shiftSize →
        (s.record x).shift = { s.shift with write := some (s.ring w 1), replay := some (s.ring p 1), wrapped := true }) := by
  have next := s.ringNext_eq
  refine ⟨fun room => ?_, fun full => ?_⟩
  · simp only [State.record, if_pos room, hw, Option.getD_some, next]
    rfl
  · simp only [State.record, if_neg full, hw, hp, Option.getD_some, Option.map_some, next]
    split
    · rfl
    · exact (happens_riseAll _ 4).blocks.2 .shift (by decide)

/-- The first word of all that overwrites one raises SHIFT_WRAPPED. -/
theorem riseLatched_record {s : State} (x : Word) (full : ¬s.shift.fill < s.store.shiftSize) (unwrapped : s.shift.wrapped = false) :
    RiseLatched 4 s (s.record x) := by
  simp only [State.record, if_neg full, unwrapped, Bool.false_eq_true, if_false]
  refine .of_undisturbed (fun k => ?_) (riseLatched_riseAll _ 4 (by decide))
  exact ⟨rfl, rfl, rfl, rfl, rfl⟩

/-- The words recorded after the first, read in the state before it. -/
theorem Recorded.cons {ws : List Word} {w p q : Addr} {s t : State} {x : Word} (hn : (x :: ws).length ≤ 65535)
    (form : s.store.wf = true) (hw : s.shift.write = some w) (hp : s.shift.replay = some p)
    (fits : s.shift.fill ≤ s.store.shiftSize) (latched : LatchesKept (s.record x) t)
    (hq : (s.record x).shift.replay = some q) (h : Recorded ws (s.ring w 1) q (s.record x) t) :
    Recorded (x :: ws) w p s t := by
  obtain ⟨others, write, fill, replay, wrapped, told, read, kept⟩ := h
  have store := s.record_store x
  rw [hw, Option.getD_some] at store
  have first : (s.record x).store.u1 = s.store.u1 := by rw [store]; rfl
  have size : (s.record x).store.shiftSize = s.store.shiftSize := by rw [store]; rfl
  have read_one : ∀ a, (s.record x).store.read a = if a = w then x else s.store.read a := fun a => by
    rw [store, Store.read_write _ _ _ _ form]
  rw [List.length_cons] at hn
  have along : ∀ a i, i ≤ ws.length → (s.record x).ring (s.ring a 1) i = s.ring a (i + 1) := fun a i hi => by
    rw [State.ring_congr first, s.ring_ring (by omega), Nat.add_comm]
  have apart : ∀ i, i < ws.length → s.ring w (i + 1) ≠ w := fun i hi => s.ring_ne w (by omega) (by omega)
  obtain ⟨room, full⟩ := s.record_shift x hw hp
  have reads : ∀ i, i < (x :: ws).length → t.store.read (s.ring w i) = (x :: ws).getD i 0 := fun i hi => by
    cases i with
    | zero =>
      rw [s.ring_zero, kept w fun i hi => (along w i hi.le).symm ▸ (apart i hi).symm, read_one, if_pos rfl]
      rfl
    | succ i =>
      have hi : i < ws.length := Nat.lt_of_succ_lt_succ hi
      rw [← along w i hi.le, read i hi]
      rfl
  have keeps : ∀ a, (∀ i, i < (x :: ws).length → a ≠ s.ring w i) → t.store.read a = s.store.read a := fun a ha => by
    rw [kept a fun i hi => (along w i hi.le).symm ▸ ha (i + 1) (Nat.succ_lt_succ hi), read_one,
      if_neg (s.ring_zero w ▸ ha 0 (Nat.succ_pos _))]
  rw [size] at fill replay wrapped
  rw [along w _ le_rfl] at write
  by_cases hr : s.shift.fill < s.store.shiftSize
  · have one := room hr
    simp only [one, hp, Option.some.injEq] at hq others fill replay wrapped told
    subst hq
    refine ⟨others, write, ?_, ?_, ?_, fun no yes => ?_, reads, keeps⟩
    · rw [fill, List.length_cons]
      omega
    · rw [replay, State.ring_congr first, List.length_cons, Nat.add_right_comm, Nat.add_assoc]
    · rw [wrapped, List.length_cons, Nat.add_right_comm, Nat.add_assoc]
    · have links : (s.record x).links = s.links := by
        simp only [State.record, if_pos hr]
        rfl
      intro k hk
      exact told no yes k (by simpa only [State.link, links] using hk)
  · have one := full hr
    have whole : s.shift.fill = s.store.shiftSize := by omega
    simp only [one, Option.some.injEq] at hq others fill replay wrapped told
    subst hq
    refine ⟨others, write, ?_, ?_, ?_, fun no _ => ?_, reads, keeps⟩
    · rw [fill, List.length_cons]
      omega
    · rw [replay, State.ring_congr first, s.ring_ring (by omega), List.length_cons]
      congr 2
      omega
    · simp only [true_or, iff_true] at wrapped
      rw [wrapped, List.length_cons]
      simp only [true_iff]
      omega
    · exact (riseLatched_record x hr no).kept latched

/-- The words of a frame recorded one after the other. -/
theorem recorded_all {ws : List Word} (hn : ws.length ≤ 65535) {s : State} {w p : Addr} (form : s.store.wf = true)
    (hw : s.shift.write = some w) (hp : s.shift.replay = some p) (fits : s.shift.fill ≤ s.store.shiftSize) :
    Recorded ws w p s (ws.foldl State.record s) := by
  induction ws generalizing s w p with
  | nil => exact recorded_nil hw hp fits
  | cons x ws ih =>
    have store := s.record_store x
    obtain ⟨room, full⟩ := s.record_shift x hw hp
    have size : (s.record x).store.shiftSize = s.store.shiftSize := by rw [store]; rfl
    have rest : (s.record x).shift.write = some (s.ring w 1) ∧ (s.record x).shift.fill ≤ s.store.shiftSize
        ∧ ∃ q, (s.record x).shift.replay = some q := by
      by_cases hr : s.shift.fill < s.store.shiftSize
      · rw [room hr]
        exact ⟨rfl, hr, p, hp⟩
      · rw [full hr]
        exact ⟨rfl, fits, _, rfl⟩
    obtain ⟨write, fill, q, hq⟩ := rest
    exact .cons hn form hw hp fits (Undirected.foldl _ undirected_record ws _).latched hq
      (ih (Nat.le_of_succ_le hn) (s.record_wf x form) write hq (size.symm ▸ fill))

/-! ### A captured pair as a word (R102) -/

theorem clampInt_range {lo hi : Int} (h : lo ≤ hi) (x : Int) : lo ≤ clampInt lo hi x ∧ clampInt lo hi x ≤ hi := by
  unfold clampInt
  omega

theorem packPair_upper {l : Int} (h : -32768 ≤ l ∧ l ≤ 32767) (r : Int) : ((packPair l r).extractLsb' 16 16).toInt = l := by
  have half : (packPair l r).extractLsb' 16 16 = BitVec.ofInt 16 l := BitVec.extractLsb'_append_eq_left
  rw [half]
  exact BitVec.toInt_ofInt_eq_self (by decide) h.1 (by omega)

theorem packPair_lower {r : Int} (h : -32768 ≤ r ∧ r ≤ 32767) (l : Int) : ((packPair l r).extractLsb' 0 16).toInt = r := by
  have half : (packPair l r).extractLsb' 0 16 = BitVec.ofInt 16 r := BitVec.extractLsb'_append_eq_right
  rw [half]
  exact BitVec.toInt_ofInt_eq_self (by decide) h.1 (by omega)

theorem shiftWord_halves (y : Int × Int) :
    ((shiftWord y).extractLsb' 16 16).toInt = clampInt (-32768) 32767 ((y.1 + 128) / 256)
      ∧ ((shiftWord y).extractLsb' 0 16).toInt = clampInt (-32768) 32767 ((y.2 + 128) / 256) :=
  ⟨packPair_upper (clampInt_range (by decide) _) _, packPair_lower (clampInt_range (by decide) _) _⟩

theorem tunerOutput_length (heard : List (Option Heard)) (demod : List (WireSample × WireSample)) :
    (tunerOutput heard demod).length = 48 := by
  rw [tunerOutput, List.length_zipWith, fit_length, fit_length, Nat.min_self]

/-- What a tuner hands over at a frame event, as the words that a capture records. -/
theorem captured_words (s : State) (x : FrameInput) (u : TunerId) :
    ((s.offers x (sourceOfTuner u)).map shiftWord).length = 48
      ∧ ∀ i, i < 48 → ((s.offers x (sourceOfTuner u)).map shiftWord).getD i 0
          = shiftWord (s.sampleOf x i (match u with | .a => .tunerA | .b => .tunerB)) := by
  have len : (s.offers x (sourceOfTuner u)).length = 48 := by cases u <;> exact tunerOutput_length _ _
  refine ⟨by rw [List.length_map, len], fun i hi => ?_⟩
  have there : i < (s.offers x (sourceOfTuner u)).length := len.symm ▸ hi
  have sample := s.offers_getD x hi (sourceOfTuner u)
  rw [getD_fit hi, List.getD_eq_getElem _ _ there] at sample
  rw [List.getD_eq_getElem _ _ (by rwa [List.length_map]), List.getElem_map, sample]
  cases u <;> rfl

/-! ### The parts of a frame event that bear on the Shift Buffer (R102, R103) -/

/-- A frame up to its replay. -/
def State.replayed (s : State) (x : FrameInput) : State := (s.mixFrame (s.offers x)).afterReplay

/-- A frame up to its capture. -/
def State.captured (s : State) (x : FrameInput) : State := (s.replayed x).capture (s.offers x)

/-- The work of the call behind it. -/
def State.calling (s : State) (x : FrameInput) : State :=
  (((s.withCall { s.call with refZones := s.table.basedZones callHandle }).cancel x).handUplink.conference x).startSampling

theorem State.frame_of_captured (s : State) (x : FrameInput) :
    s.frame x = ((s.captured x).calling x).frameVoices.postStreams.nextFrame := rfl

theorem happens_calling (s : State) (x : FrameInput) : Happens [.ports, .call, .stations] s (s.calling x) :=
  ((happens_withCall s _).mono (by simp)).trans (((happens_cancel _ x).mono (by simp)).trans
    (((happens_handUplink _).mono (by simp)).trans (((happens_conference _ x).mono (by simp)).trans
      ((happens_startSampling _).mono (by simp)))))

theorem undirected_calling (s : State) (x : FrameInput) : Undirected s (s.calling x) := by
  have cancelled : ∀ u : State, Undirected u (u.cancel x) := fun u => .ite (undirected_withCall _ _) (undirected_withCall _ _)
  have handed : ∀ u : State, Undirected u u.handUplink := fun u => .ite (undirected_withPorts _ _) (.refl u)
  exact (undirected_withCall s _).trans ((cancelled _).trans ((handed _).trans ((undirected_conference _ x).trans
    (undirected_withStations _ _))))

theorem State.postStreams_words (s : State) : s.postStreams.store.words = s.store.words := by
  have set : ∀ (ns : List (Fin 4)) (u : State), (ns.foldl (fun u n => u.postVoice n) u).store.words = u.store.words := fun ns => by
    induction ns with
    | nil => exact fun _ => rfl
    | cons n ns ih => exact fun u => ih _
  exact set _ _

/-- What follows a capture leaves the buffer and the words as they are, and everything told. -/
theorem State.frame_shift (s : State) (x : FrameInput) : (s.frame x).shift = (s.captured x).shift
    ∧ (s.frame x).store.words = (s.captured x).store.words ∧ LatchesKept (s.captured x) (s.frame x) := by
  rw [State.frame_of_captured]
  generalize s.captured x = c
  have called := happens_calling c x
  have told := (undirected_calling c x).latched
  generalize c.calling x = u at called told
  have posted := u.frameVoices.postStreams_words
  have posts := happens_postStreams u.frameVoices
  have tells := (undirected_postStreams u.frameVoices).latched
  generalize u.frameVoices.postStreams = v at posted posts tells
  have voiced : u.frameVoices.shift = u.shift ∧ u.frameVoices.store = u.store := ⟨rfl, rfl⟩
  have next : v.nextFrame.shift = v.shift ∧ v.nextFrame.store = v.store ∧ v.nextFrame.links = v.links := ⟨rfl, rfl, rfl⟩
  have shift : v.shift = u.frameVoices.shift := posts.blocks.2 .shift (by decide)
  have same : u.shift = c.shift ∧ u.store = c.store := ⟨called.blocks.2 .shift (by decide), called.blocks.2 .store (by decide)⟩
  refine ⟨?_, ?_, told.trans (((undirected_withChime u _).latched.trans tells).trans (.of_links next.2.2))⟩
  · rw [next.1, shift, voiced.1, same.1]
  · rw [next.2.1, posted, voiced.2, same.2]

theorem State.afterReplay_shift {s : State} {n : Nat} {p : Addr} (hp : s.shift.replay = some p) (undrained : s.shift.drained = false)
    (hn : n = if s.shift.state = .replay ∨ s.shift.state = .memoReplay then min 48 s.shift.fill else 0) :
    s.afterReplay.shift = { s.shift with
      replay := some (s.ring p n), fill := s.shift.fill - n,
      drained := decide ((s.shift.state = .replay ∨ s.shift.state = .memoReplay) ∧ s.shift.fill ≤ 48) } := by
  have replaying : s.shift.replaying = true ↔ s.shift.state = .replay ∨ s.shift.state = .memoReplay := by
    simp [ShiftBuffer.replaying]
  unfold State.afterReplay
  by_cases h : s.shift.state = .replay ∨ s.shift.state = .memoReplay
  · rw [if_pos h] at hn
    rw [if_pos (replaying.2 h), State.withShift_shift, ← hn, hp, Option.map_some, s.ringSkip_eq (by omega)]
    have all : (s.shift.fill == n) = decide (s.shift.fill ≤ 48) := by
      rw [Bool.eq_iff_iff, beq_iff_eq, decide_eq_true_eq]
      omega
    simp only [h, true_and, all]
  · rw [if_neg h] at hn
    rw [if_neg (mt replaying.1 h), hn, s.ring_zero, ← hp]
    simp only [h, false_and, decide_false, ← undrained, Nat.sub_zero]

/-- A frame's replay, told in the state before the frame's moment is reached. -/
theorem State.reached_replayed {s : State} {n : Nat} {p : Addr} (t : Time) (x : FrameInput) (hp : s.shift.replay = some p)
    (undrained : s.shift.drained = false)
    (hn : n = if s.shift.state = .replay ∨ s.shift.state = .memoReplay then min 48 s.shift.fill else 0) :
    ((s.reach t).replayed x).shift = { s.shift with
        replay := some (s.ring p n), fill := s.shift.fill - n,
        drained := decide ((s.shift.state = .replay ∨ s.shift.state = .memoReplay) ∧ s.shift.fill ≤ 48) }
      ∧ ((s.reach t).replayed x).store = s.store ∧ ((s.reach t).replayed x).links = s.links := by
  have reached := (onlyChanges_reach s t).2
  have shift : (s.reach t).shift = s.shift := reached .shift (by decide)
  have store : (s.reach t).store = s.store := reached .store (by decide)
  have links : (s.reach t).links = s.links := reached .links (by decide)
  unfold State.replayed
  generalize hm : State.mixFrame _ _ = m
  have mixed : m.shift = s.shift ∧ m.store = s.store ∧ m.links = s.links := hm ▸ ⟨shift, store, links⟩
  obtain ⟨shift, store, links⟩ := mixed
  have after : m.afterReplay.store = m.store ∧ m.afterReplay.links = m.links := by
    unfold State.afterReplay
    split <;> exact ⟨rfl, rfl⟩
  have replay := State.afterReplay_shift (s := m) (n := n) (shift ▸ hp) (shift ▸ undrained) (shift ▸ hn)
  rw [shift, State.ring_congr (congrArg Store.u1 store)] at replay
  exact ⟨replay, after.1.trans store, after.2.trans links⟩

/-- What a frame event with nothing due leaves of the buffer and the words is what its capture leaves. -/
theorem frameEvent_captured {s : State} (run : s.power.state = .run) (due : s.nothingDue) (x : FrameInput) :
    ∃ t, exec (.frameEvent x) s = .next t ∧ t.shift = ((s.reach s.clock.frameDue).captured x).shift
      ∧ t.store.words = ((s.reach s.clock.frameDue).captured x).store.words
      ∧ LatchesKept ((s.reach s.clock.frameDue).captured x) t := by
  have offered := offered_edges s (s.frameEvent x)
  have next : exec (.frameEvent x) s = .next (State.offerEdges s (s.frameEvent x)) := rfl
  rw [State.frameEvent_of_nothingDue run due] at offered next
  obtain ⟨shift, words, told⟩ := (s.reach s.clock.frameDue).frame_shift x
  exact ⟨_, next, offered.shift.trans shift, (congrArg Store.words (offered.blocks .store (by decide))).trans words,
    told.trans offered.latched⟩

theorem State.capture_of_none {s : State} (h : s.shift.running = false ∨ s.shift.captured = none) (o : Offers) : s.capture o = s := by
  unfold State.capture
  rcases h with h | h <;> simp [h]

theorem State.capture_of_some {s : State} (h : s.shift.running = true) {u : TunerId} (hu : s.shift.captured = some u) (o : Offers) :
    s.capture o = ((o (sourceOfTuner u)).map shiftWord).foldl State.record s := by
  simp only [State.capture, h, hu, if_true]

/-- Settles O55: the replay passes its words first, and the capture records the tuner's 48 pairs one by one, each the next word of the
ring (`recorded_all`); nothing else of a frame writes a word. -/
theorem shiftBufferFrames : Obligations.ShiftBufferFrames := by
  unfold Obligations.ShiftBufferFrames
  intro s x w p n g run due full form wf on hw hp hn hg
  obtain ⟨t, next, shift, words, told⟩ := frameEvent_captured run due x
  obtain ⟨replayed, store, links⟩ := State.reached_replayed s.clock.frameDue x hp due.2.1 hn
  have offers := State.reach_offers full s.clock.frameDue x
  unfold State.captured at shift words told
  rw [offers] at shift words told
  generalize (s.reach s.clock.frameDue).replayed x = a at replayed store links shift words told
  rw [← hg] at replayed
  have ring := State.ring_congr (s := s) (t := a) (congrArg Store.u1 store)
  have fits : s.shift.fill ≤ s.store.shiftSize := (((State.shiftWf_iff s).1 wf).2.on on).fill
  have read : ∀ b, t.store.read b = (a.capture (s.offers x)).store.read b := fun b => by rw [Store.read, words]; rfl
  by_cases capturing : s.shift.running = false ∨ s.shift.captured = none
  · rw [State.capture_of_none (by rw [replayed]; exact capturing)] at shift words
    rw [replayed] at shift
    refine ⟨t, next, by rw [shift], by rw [shift]; exact decide_eq_true_iff, fun _ => ?_, fun u running captured => ?_⟩
    · rw [shift, words, store]
      exact ⟨hw, rfl, rfl, rfl, rfl⟩
    · simp [running, captured] at capturing
  · obtain ⟨running, u, captured⟩ : s.shift.running = true ∧ ∃ u, s.shift.captured = some u := by
      simpa [Option.ne_none_iff_exists'] using capturing
    rw [State.capture_of_some (by rw [replayed]; exact running) (by rw [replayed]; exact captured)] at shift told read
    obtain ⟨len, member⟩ := captured_words s x u
    generalize (s.offers x (sourceOfTuner u)).map shiftWord = ws at shift told read len member
    obtain ⟨others, write, fill, replay, wrapped, rises, reads, kept⟩ := recorded_all (ws := ws) (w := w) (p := s.ring p n) (s := a)
      (by omega) (by rw [store]; exact form) (by rw [replayed]; exact hw) (by rw [replayed])
      (by rw [replayed, store]; exact hg ▸ (Nat.sub_le _ _).trans fits)
    rw [← shift] at others write fill replay wrapped rises
    simp only [len, ring, store, replayed] at others write fill replay wrapped rises reads kept
    have few : n ≤ 48 := by split at hn <;> omega
    rw [s.ring_ring (by omega)] at replay
    refine ⟨t, next, by rw [others], by rw [others]; exact decide_eq_true_iff, fun no => absurd no capturing, fun v _ hv => ?_⟩
    obtain rfl : u = v := Option.some.inj (captured.symm.trans hv)
    refine ⟨fun i hi => ⟨_, rfl, ?_⟩, fun b hb => (read b).trans (kept b hb), write, fill, replay, wrapped, fun no yes => ?_⟩
    · rw [read, reads i hi, member i hi]
      exact shiftWord_halves _
    · refine RiseLatched.kept ?_ told
      intro k hk
      exact rises no yes k (by simpa only [State.link, links] using hk)

end Sys2Proof.Machine
end

section
namespace Sys2Proof.Machine

/-! ### What the Shift Buffer's and the claims' operations leave of the traffic settings (R96 to R100) -/

/-- The traffic block but for what a memo writes. -/
def Traffic.airing (x : Traffic) : Traffic := { x with outcome := none, retained := none }

/-- The traffic block but for what an announcement writes. -/
def Traffic.settings (x : Traffic) : Traffic := { x with source := .none, announcing := false, outcome := none, retained := none }

/-- `t` has the traffic block of `s`, the memo's outcome and number apart. -/
def AirKept (s t : State) : Prop := t.traffic.airing = s.traffic.airing

/-- `t` has the traffic settings, the watch request and the A eligible flag of `s`. -/
def SettingsKept (s t : State) : Prop := t.traffic.settings = s.traffic.settings

namespace AirKept

theorem refl (s : State) : AirKept s s := rfl

theorem trans {s t u : State} (h : AirKept s t) (k : AirKept t u) : AirKept s u := Eq.trans k h

theorem ite {s t u : State} {c : Prop} [Decidable c] (h : AirKept s t) (k : AirKept s u) : AirKept s (if c then t else u) := by
  split <;> assumption

theorem of_traffic {s t : State} (h : t.traffic = s.traffic) : AirKept s t := congrArg Traffic.airing h

theorem of_happens {bs : List Block} {s t : State} (h : Happens bs s t) (hs : Block.traffic ∉ Block.links :: bs) : AirKept s t :=
  .of_traffic (h.blocks.2 .traffic hs)

theorem eq {s t : State} (h : AirKept s t) : t.traffic.airing = s.traffic.airing := h

theorem settings {s t : State} (h : AirKept s t) : SettingsKept s t := by
  have air : t.traffic.airing.settings = s.traffic.airing.settings := congrArg Traffic.settings h
  exact air

theorem announcing {s t : State} (h : AirKept s t) : t.traffic.announcing = s.traffic.announcing := (congrArg Traffic.announcing h.eq :)
theorem source {s t : State} (h : AirKept s t) : t.traffic.source = s.traffic.source := (congrArg Traffic.source h.eq :)

end AirKept

namespace SettingsKept

theorem refl (s : State) : SettingsKept s s := rfl

theorem trans {s t u : State} (h : SettingsKept s t) (k : SettingsKept t u) : SettingsKept s u := Eq.trans k h

theorem ite {s t u : State} {c : Prop} [Decidable c] (h : SettingsKept s t) (k : SettingsKept s u) :
    SettingsKept s (if c then t else u) := by
  split <;> assumption

variable {s t : State} (h : SettingsKept s t)
include h

theorem eq : t.traffic.settings = s.traffic.settings := h

theorem on : t.traffic.on = s.traffic.on := (congrArg Traffic.on h.eq :)
theorem memo : t.traffic.memo = s.traffic.memo := (congrArg Traffic.memo h.eq :)
theorem eligible : t.traffic.eligible = s.traffic.eligible := (congrArg Traffic.eligible h.eq :)
theorem holdAt : t.traffic.holdAt = s.traffic.holdAt := (congrArg Traffic.holdAt h.eq :)
theorem watch : t.traffic.watch = s.traffic.watch := (congrArg Traffic.watch h.eq :)

end SettingsKept

theorem airKept_post (s : State) (h : Nat) (c : Claim) : AirKept s (s.post h c) := by
  unfold AirKept
  rw [s.post_memo]
  rfl

theorem airKept_considerMemo (s : State) (v : TunerId) : AirKept s (s.considerMemo v) := by
  unfold State.considerMemo
  have missed : ∀ a, AirKept s ((s.withTraffic { s.traffic with outcome := some .missed }).advise .cockpit a) := fun _ => rfl
  refine .ite (.refl s) ?_
  split
  · refine .ite (missed _) (.trans (t := s.withTraffic { s.traffic with outcome := some .captured }) rfl ?_)
    exact .of_happens (happens_startCapture _ _ _ _ _) (by decide)
  · exact missed _
  · exact missed _
  all_goals exact .refl s

theorem airKept_replayMemo (s : State) : AirKept s s.replayMemo := .of_happens (happens_replayMemo s) (by decide)

theorem airKept_replayHeld (s : State) : AirKept s s.replayHeld :=
  airKept_post (s.withShift { s.shift with state := .memoReplay, running := false }) radioHandle (radioClaim .shift)

theorem airKept_tableChanged (s : State) : AirKept s s.tableChanged := by
  have quiet : s.memoless → AirKept s s.tableChanged := fun h => by
    rw [State.tableChanged_of_memoless h]
    split
    · exact airKept_considerMemo s _
    · exact .refl s
  cases h : s.shift.state with
  | off => exact quiet (.inl h)
  | capture => exact quiet (.inr (.inl h))
  | replay => exact quiet (.inr (.inr h))
  | memoCapture =>
    rw [State.tableChanged_of_memoCapture h]
    exact .ite (airKept_replayMemo s) (.refl s)
  | memoReplay =>
    rw [State.tableChanged_of_memoReplay h]
    exact .refl s
  | memoHeld =>
    cases hq : s.traffic.retained with
    | none =>
      rw [State.tableChanged_of_none h hq]
      exact .refl s
    | some q =>
      rw [State.tableChanged_of_memoHeld h hq]
      exact .ite (airKept_replayHeld s) (.refl s)

theorem airKept_dropMemoClaim (s : State) : AirKept s s.dropMemoClaim := by
  unfold State.dropMemoClaim
  have dropped : AirKept s (s.withTraffic { s.traffic with retained := none }) := rfl
  generalize s.withTraffic { s.traffic with retained := none } = u at dropped
  refine dropped.trans ?_
  dsimp only
  split
  · refine .ite ?_ (.refl u)
    split
    · exact .trans (t := u.changeClaim radioHandle _) rfl (airKept_tableChanged _)
    · exact .trans (t := u.setClaim radioHandle none) rfl (airKept_tableChanged _)
  · exact .refl u

theorem airKept_discard (s : State) (c : DiscardCause) : AirKept s (s.discard c) := by
  unfold State.discard
  refine .ite (.refl s) ?_
  have off : AirKept s s.shiftOff := .of_happens (happens_shiftOff s) (by decide)
  have told : AirKept s (if c = .hubReset then s.shiftOff
      else s.shiftOff.advise .cockpit (.shiftDiscarded c s.shift.state s.shift.fill)) :=
    .ite off (off.trans (.of_happens (happens_advise _ _ _) (by decide)))
  exact .ite (told.trans (airKept_dropMemoClaim _)) told

theorem airKept_retuned (s : State) (v : TunerId) : AirKept s (s.retuned v) := .ite (airKept_discard s _) (.refl s)

theorem airKept_enterB (s : State) (st : BState) (f : Option Freq) : AirKept s (s.enterB st f) := airKept_retuned (s.withTunB _) .b

theorem airKept_startSweep (s : State) (st : BState) : AirKept s (s.startSweep st) := by
  unfold State.startSweep
  exact (AirKept.of_happens (happens_withRadio s _) (by decide)).trans (airKept_enterB _ st _)

theorem airKept_assignB (s : State) : AirKept s s.assignB := by
  unfold State.assignB
  refine .ite (.refl s) ?_
  split
  · exact .ite (.refl s) (airKept_enterB s _ _)
  · exact .ite (.refl s) (airKept_enterB s _ _)
  · exact .ite (.ite (.refl s) (airKept_startSweep s _)) (.ite (.refl s) (airKept_enterB s _ _))

theorem airKept_endAnnouncement (s : State) : AirKept s.offAir s.endAnnouncement := by
  have stopped : AirKept s.offAir s.offAir.stopCapture := by
    unfold State.stopCapture
    split <;> rfl
  rw [State.endAnnouncement_eq]
  refine stopped.trans ?_
  generalize s.offAir.stopCapture = u
  unfold State.dropTunerClaim
  split
  · exact .ite (.refl u) (.trans (t := u.setClaim radioHandle none) rfl (airKept_tableChanged _))
  · exact .refl u

theorem airKept_startAnnouncement (s : State) (v : TunerId) : AirKept s.onAir (s.startAnnouncement v) := by
  have aired : AirKept s.onAir (s.aired v) := airKept_post _ _ _
  have quiet : s.memoless → AirKept s.onAir (s.startAnnouncement v) := fun h => by
    rw [State.startAnnouncement_of_memoless h]
    exact aired.trans (airKept_tableChanged _)
  cases h : s.shift.state with
  | off => exact quiet (.inl h)
  | capture => exact quiet (.inr (.inl h))
  | replay => exact quiet (.inr (.inr h))
  | memoCapture =>
    rw [State.startAnnouncement_of_memoCapture h]
    exact .refl _
  | memoReplay =>
    rw [State.startAnnouncement_of_memoReplay h]
    rfl
  | memoHeld =>
    rw [State.startAnnouncement_of_memoHeld h]
    have resumed : AirKept s.onAir (s.resumedMemo v) := aired
    exact .ite (resumed.trans (airKept_replayMemo _)) resumed

theorem settingsKept_endAnnouncement (s : State) : SettingsKept s s.endAnnouncement :=
  .trans (t := s.offAir) (by unfold SettingsKept; rw [State.offAir_traffic]; rfl) (airKept_endAnnouncement s).settings

theorem settingsKept_startAnnouncement (s : State) (v : TunerId) : SettingsKept s (s.startAnnouncement v) :=
  .trans (t := s.onAir) (by unfold SettingsKept; rw [State.onAir_traffic]; rfl) (airKept_startAnnouncement s v).settings

/-- The choice of a source moves no setting. -/
theorem settingsKept_followSource (s : State) : SettingsKept s s.followSource := by
  unfold State.followSource
  dsimp only
  have ended : SettingsKept s
      (if s.traffic.announcing && !(s.sourceNow = s.traffic.source && s.taOf s.sourceNow) then s.endAnnouncement else s) :=
    .ite (settingsKept_endAnnouncement s) (.refl s)
  refine ended.trans ?_
  generalize (if s.traffic.announcing && !(s.sourceNow = s.traffic.source && s.taOf s.sourceNow) then s.endAnnouncement else s) = u
  have named : SettingsKept u (u.withTraffic { u.traffic with source := s.sourceNow }) := rfl
  split
  · exact named.trans (.ite (settingsKept_startAnnouncement _ _) (.refl _))
  · exact named

/-- A new assessment leaves the settings as the A eligible flag and the watch request left them. -/
theorem settingsKept_reassess (s : State) : SettingsKept s.followEligible.followWatch s.reassess :=
  (airKept_assignB _).settings.trans (settingsKept_followSource _)

end Sys2Proof.Machine
end

section
namespace Sys2Proof.Machine

/-! ### What an order on the Shift Buffer reports -/

theorem State.shiftOut_fallEnable (s : State) (l : Link) (n : Nat) (r : Reply) (k : Link) :
    ((s.shiftOut l n r).link k).fallEnable = (s.link k).fallEnable := by
  rw [State.shiftOut_link]
  split
  · next same => rw [same]
  · rfl

theorem RiseLatched.of_shiftOut {c n : Nat} {l : Link} {r : Reply} {s u : State} (h : RiseLatched c (s.shiftOut l n r) u) :
    RiseLatched c s u := fun k hk => h k ((s.shiftOut_watch l n r k).1 ▸ hk)

theorem FallLatched.of_shiftOut {c n : Nat} {l : Link} {r : Reply} {s u : State} (h : FallLatched c (s.shiftOut l n r) u) :
    FallLatched c s u := fun k hk => h k ((s.shiftOut_fallEnable l n r k) ▸ hk)

/-- An order that passes the Link Block's checks, whose work writes no link and moves no level. -/
theorem order_unreported {α : Type} {l : Link} {f : Frame} {links : List Link} {ops : Option α} {body : α → State → Reply × State}
    {s u : State} {b : α} {r a : Reply} {bs : List Block} (hr : s.holds l r) (ho : ops = some b) (hl : links.contains l = true)
    (hb : body b (s.shiftOut l (clocked f) r) = (a, u)) (hu : Happens bs (s.shiftOut l (clocked f) r) u)
    (links_ : u.links = (s.shiftOut l (clocked f) r).links) (levels : ∀ k, u.levels k = (s.shiftOut l (clocked f) r).levels k) :
    ∃ t, order l f links ops body s = .next t ∧ Taken l f r a bs s t ∧ Unreported s t ∧ Offered u t := by
  have next := order_next (f := f) (body := body) hr ho hl
  rw [hb] at next
  exact ⟨_, next, taken_of_happens hu, unreported_order links_ levels, offered_answered _ _ _ _⟩

/-- SHIFT_ACTIVE and SHIFT_WRAPPED alone among the levels read the Shift Buffer (R186). -/
theorem State.levels_withShift {s : State} {b : ShiftBuffer} (state : (b.state = .off) = (s.shift.state = .off))
    (wrapped : b.wrapped = s.shift.wrapped) (k : Link) : (s.withShift b).levels k = s.levels k := by
  unfold State.levels
  simp only [State.withShift_shift, ne_eq, state, wrapped]
  rfl

theorem State.shiftOff_words (s : State) : s.shiftOff.store.words = s.store.words := by rw [State.shiftOff_store]; rfl

theorem Offered.words {u t : State} (h : Offered u t) : t.store.words = u.store.words :=
  congrArg Store.words (h.blocks .store (by decide))

theorem State.startCapture_shift (s : State) (st : ShiftState) (p : Purpose) (cause : Option PauseCause) (v : TunerId) :
    (s.startCapture st p cause v).shift =
      { state := st, purpose := some p, cause := cause, captured := some v, running := true, write := some s.store.shiftFirst,
        replay := some s.store.shiftFirst, fill := 0, wrapped := false, drained := false } :=
  (happens_riseAll _ 3).blocks.2 .shift (by decide)

theorem riseLatched_startCapture (s : State) (st : ShiftState) (p : Purpose) (cause : Option PauseCause) (v : TunerId) :
    RiseLatched 3 s (s.startCapture st p cause v) :=
  .of_undisturbed (happens_withShift s _).links (riseLatched_riseAll _ 3 (by decide))

/-! ### PAUSE, RESUME and GO_LIVE (R104 to R106) -/

section
variable {f : Frame} {s : State} {r : Reply} (hr : s.holds .cockpit r) (hf : f.carries [])
include hr hf

theorem pause_starts (run : s.power.state = .run) (off : s.shift.state = .off) (selected : s.mix.selected = .tunerA)
    (room : s.store.shiftSize ≠ 0) :
    ∃ t, exec (.pause .cockpit f) s = .next t ∧ Taken .cockpit f r (.plain .done) [.shift] s t ∧ RiseLatched 3 s t
      ∧ t.shift = { state := .capture, purpose := some .pause, cause := some .order, captured := some .a, running := true,
                    write := some s.store.shiftFirst, replay := some s.store.shiftFirst, fill := 0, wrapped := false,
                    drained := false } := by
  set s' := s.shiftOut .cockpit (clocked f) r with hs'
  have body : pauseBody [] s' = (.plain .done, s'.startCapture .capture .pause (some .order) .a) := by
    have run' : s'.power.state = .run := run
    have off' : s'.shift.state = .off := off
    have selected' : s'.mix.selected = .tunerA := selected
    have room' : s'.store.shiftSize ≠ 0 := room
    simp [pauseBody, run', off', selected', room', answer]
  obtain ⟨t, next, taken, offered⟩ := order_offered (links := byCockpit) hr (operands_carries hf) rfl body
    (happens_startCapture s' _ _ _ _)
  exact ⟨t, next, taken, (riseLatched_startCapture s' _ _ _ _).of_shiftOut.kept offered.latched,
    offered.shift.trans (s'.startCapture_shift _ _ _ _)⟩

theorem pause_stopsReplay (run : s.power.state = .run) (replay : s.shift.state = .replay) :
    ∃ t, exec (.pause .cockpit f) s = .next t ∧ Taken .cockpit f r (.plain .done) [.shift, .store] s t ∧ Unreported s t
      ∧ t.shift = { s.shift with state := .capture, running := true, cause := some .order, drained := false }
      ∧ t.store.words = s.store.words := by
  set s' := s.shiftOut .cockpit (clocked f) r with hs'
  have replay' : s'.shift.state = .replay := replay
  have body : pauseBody [] s' = (.plain .done, s'.pauseReplay) := by
    have run' : s'.power.state = .run := run
    simp [pauseBody, run', replay', answer]
  obtain ⟨t, next, taken, quiet, offered⟩ := order_unreported (links := byCockpit) (bs := [.shift, .store]) hr (operands_carries hf)
    rfl body (((happens_withShift s' _).mono (by simp)).trans ((happens_setPosted _ _ _).mono (by simp))) rfl
    (s'.levels_withShift (by simp [replay']) rfl)
  exact ⟨t, next, taken, quiet, offered.shift, offered.words⟩

theorem resume_replays (capture : s.shift.state = .capture) :
    ∃ t, exec (.resume .cockpit f) s = .next t ∧ Taken .cockpit f r (.plain .done) [.shift, .store] s t ∧ Unreported s t
      ∧ t.shift = { s.shift with state := .replay, running := false } ∧ t.store.words = s.store.words := by
  set s' := s.shiftOut .cockpit (clocked f) r with hs'
  have capture' : s'.shift.state = .capture := capture
  have body : resumeBody [] s' = (.plain .done, s'.resumeReplay) := by simp [resumeBody, capture', answer]
  obtain ⟨t, next, taken, quiet, offered⟩ := order_unreported (links := byCockpit) (bs := [.shift, .store]) hr (operands_carries hf)
    rfl body (((happens_withShift s' _).mono (by simp)).trans ((happens_postReplay _).mono (by simp))) rfl
    (s'.levels_withShift (by simp [capture']) rfl)
  exact ⟨t, next, taken, quiet, offered.shift, offered.words⟩

theorem goLive_drops (paused : s.shift.state = .capture ∨ s.shift.state = .replay) :
    ∃ t, exec (.goLive .cockpit f) s = .next t ∧ Taken .cockpit f r (.plain .done) [.shift, .store] s t
      ∧ FallLatched 3 s t ∧ t.shift = .off ∧ (∀ k, (t.link k).advisories = (s.link k).advisories)
      ∧ t.store.words = s.store.words := by
  set s' := s.shiftOut .cockpit (clocked f) r with hs'
  have body : goLiveBody [] s' = (.plain .done, s'.shiftOff) := by
    have paused' : s'.shift.state = .capture ∨ s'.shift.state = .replay := paused
    simp [goLiveBody, paused', answer]
  have on : s'.shift.state ≠ .off := fun off => by
    have off' : s.shift.state = .off := off
    simp [off'] at paused
  obtain ⟨t, next, taken, offered⟩ := order_offered (links := byCockpit) hr (operands_carries hf) rfl body (happens_shiftOff s')
  refine ⟨t, next, taken, (State.shiftOff_latched on).of_shiftOut.kept offered.latched, offered.shift.trans s'.shiftOff_shift,
    fun k => ?_, offered.words.trans s'.shiftOff_words⟩
  rw [offered.advisories, State.shiftOff_advisories, (s.shiftOut_watch .cockpit (clocked f) r k).2]

end

/-! ### What time brings the Shift Buffer and the traffic source (R97, R103, R110) -/

theorem aEligibleExpiry_clears (s : State) (t0 : Time) (hold : s.traffic.holdAt = some t0) (silent : s.tunA.serving = false) :
    ∃ t, exec .aEligibleExpiry s = .next t ∧ Happens (.clock :: .ports :: reassessed) s t
      ∧ t.clock.now = max s.clock.now (t0 + seconds 2) ∧ t.traffic.eligible = false ∧ t.traffic.holdAt = none := by
  set u := s.reach (t0 + seconds 2) with hu
  set v := u.withTraffic { u.traffic with eligible := false, holdAt := none } with hv
  have reached := happens_reach s (t0 + seconds 2)
  have expired : s.eligibleExpired = v.reassess := by simp only [State.eligibleExpired, hold, ← hu, ← hv]
  have happens : Happens (.clock :: .ports :: reassessed) s s.eligibleExpired := by
    rw [expired]
    exact (reached.mono (by simp)).trans (((happens_withTraffic u _).mono (by simp [reassessed])).trans
      ((happens_reassess v).mono (by simp)))
  obtain ⟨t, next, happens, offered⟩ := event_spec (f := State.eligibleExpired) happens
  have serving : v.tunA.serving = false := by
    rw [show v.tunA = s.tunA from reached.blocks.2 .tunA (by decide)]
    exact silent
  have eligible : v.followEligible = v := by
    have unheld : v.traffic.eligible = false := rfl
    simp only [State.followEligible, serving, unheld, Bool.false_and, Bool.false_eq_true, if_false]
  have kept := settingsKept_reassess v
  rw [eligible] at kept
  refine ⟨t, next, happens, ?_, ?_, ?_⟩
  · rw [offered.clock, expired, State.reassess_clock]
    exact reach_now s _
  · rw [offered.traffic, expired, kept.eligible]
    rfl
  · rw [offered.traffic, expired, kept.holdAt]
    rfl

theorem replayDrained_ends (s : State) (replay : s.shift.state = .replay) (drained : s.shift.drained = true)
    (empty : s.shift.fill = 0) :
    ∃ t, exec .replayDrained s = .next t ∧ Happens [.shift, .store] s t ∧ t.shift = .off ∧ FallLatched 3 s t
      ∧ t.store.words = s.store.words := by
  have ended : s.replayDrained = s.shiftOff := by simp [State.replayDrained, replay, drained, empty]
  obtain ⟨t, next, happens, offered⟩ := event_spec (f := State.replayDrained) (s := s) (ended ▸ happens_shiftOff s)
  rw [ended] at offered
  exact ⟨t, next, happens, offered.shift.trans s.shiftOff_shift,
    (State.shiftOff_latched (by simp [replay])).kept offered.latched,
    offered.words.trans s.shiftOff_words⟩

theorem memoReplayEnd_ends (s : State) (replay : s.shift.state = .memoReplay) (stopped : s.shift.running = false)
    (drained : s.shift.drained = true) (empty : s.shift.fill = 0) :
    ∃ t, exec .memoReplayEnd s = .next t ∧ Happens [.table, .shift, .store] s t ∧ t.shift = .off ∧ FallLatched 3 s t
      ∧ t.claim radioHandle = none ∧ (∀ k, k ≠ radioHandle → t.claim k = s.claim k) ∧ t.store.words = s.store.words := by
  have off := s.shiftOff_shift
  have ended : s.memoReplayEnded = s.shiftOff.setClaim radioHandle none := by
    have gone : (s.shiftOff.setClaim radioHandle none).tableChanged = s.shiftOff.setClaim radioHandle none :=
      State.tableChanged_of_off (congrArg ShiftBuffer.state off) (State.unheard_eq_none_of_claim (State.claim_setClaim_none _ _))
    simp [State.memoReplayEnded, replay, stopped, drained, empty, gone]
  have happens : Happens [.table, .shift, .store] s s.memoReplayEnded := by
    rw [ended]
    exact ((happens_shiftOff s).mono (by simp)).trans ((happens_setClaim _ _ _).mono (by simp))
  have claims : ∀ k, s.shiftOff.claim k = s.claim k := fun k => by
    rw [State.claim, show s.shiftOff.table = s.table from (happens_shiftOff s).blocks.2 .table (by decide)]
    rfl
  obtain ⟨t, next, happens, offered⟩ := event_spec (f := State.memoReplayEnded) happens
  rw [ended] at offered
  refine ⟨t, next, happens, offered.shift.trans off, ?_, ?_, fun k hk => ?_,
    offered.words.trans s.shiftOff_words⟩
  · exact (State.shiftOff_latched (by simp [replay])).kept offered.latched
  · exact (offered.closes.claim _).trans (State.claim_setClaim_none _ _)
  · rw [offered.closes.claim, State.setClaim_claim_of_ne _ _ hk, claims]

/-- Settles O32: the orders write the buffer and the stream requests alone, and the events' operations end in `State.shiftOff`, or in a
new assessment that moves no setting (`settingsKept_reassess`). -/
theorem pauseAndTraffic : Obligations.PauseAndTraffic := by
  unfold Obligations.PauseAndTraffic
  exact ⟨fun f s r hr hf => ⟨pause_starts hr hf, pause_stopsReplay hr hf, resume_replays hr hf, goLive_drops hr hf⟩,
    aEligibleExpiry_clears, replayDrained_ends, memoReplayEnd_ends⟩

end Sys2Proof.Machine
end

section
namespace Sys2Proof.Machine

/-! ### A discard (R113) -/

/-- A memo's claim, the memo being discarded: back on the traffic source while the announcement goes on, and removed otherwise. -/
def State.memoDropped (s : State) : State :=
  match s.claim radioHandle with
  | some c =>
    if c.source = .shift then
      match s.traffic.announcing, s.traffic.source with
      | true, .tuner u => s.changeClaim radioHandle fun c => { c with source := sourceOfTuner u }
      | _, _ => s.setClaim radioHandle none
    else s
  | none => s

/-- While the buffer is OFF and no announcement is unheard, the change of the table brings nothing about. -/
theorem State.dropMemoClaim_eq {s : State} (off : s.shift.state = .off)
    (heard : s.traffic.announcing = true → s.traffic.outcome ≠ some .none) :
    s.dropMemoClaim = (s.withTraffic { s.traffic with retained := none }).memoDropped := by
  unfold State.dropMemoClaim State.memoDropped
  dsimp only
  generalize ht : s.withTraffic { s.traffic with retained := none } = t
  have quiet : ∀ x, State.tableChanged (t.setClaim radioHandle x) = t.setClaim radioHandle x := fun x => by
    subst ht
    exact State.tableChanged_of_off off (State.unheard_eq_none heard)
  cases t.claim radioHandle with
  | none => rfl
  | some c =>
    dsimp only
    split
    · cases t.traffic.source with
      | none => cases t.traffic.announcing <;> exact quiet none
      | tuner u =>
        cases t.traffic.announcing with
        | true => exact quiet _
        | false => exact quiet none
    · rfl

/-- What is left of a RADIO claim when a memo has been discarded. -/
structure MemoDropped (s t : State) : Prop where
  others : ∀ k, k ≠ radioHandle → t.claim k = s.claim k
  tuned : ∀ d, s.claim radioHandle = some d → d.source ≠ .shift → t.claim radioHandle = some d
  silent : ∀ d, s.claim radioHandle = some d → d.source = .shift → s.traffic.announcing = false → t.claim radioHandle = none
  airing : ∀ d u, s.claim radioHandle = some d → d.source = .shift → s.traffic.announcing = true → s.traffic.source = .tuner u →
    t.claim radioHandle = some { d with source := sourceOfTuner u }

/-- At most the RADIO claim is written. -/
theorem State.memoDropped_cases (s : State) : s.memoDropped = s ∨ ∃ x, s.memoDropped = s.setClaim radioHandle x := by
  unfold State.memoDropped
  split
  · split
    · split
      · exact .inr ⟨_, rfl⟩
      · exact .inr ⟨_, rfl⟩
    · exact .inl rfl
  · exact .inl rfl

theorem happens_memoDropped (s : State) : Happens [.table] s s.memoDropped := by
  obtain h | ⟨x, h⟩ := s.memoDropped_cases
  · rw [h]
    exact .refl _ _
  · rw [h]
    exact happens_setClaim _ _ _

theorem State.memoDropped_links (s : State) : s.memoDropped.links = s.links := by
  obtain h | ⟨x, h⟩ := s.memoDropped_cases
  · rw [h]
  · rw [h]
    rfl

theorem State.memoDropped_spec (s : State) : MemoDropped s s.memoDropped where
  others k hk := by
    obtain h | ⟨x, h⟩ := s.memoDropped_cases
    · rw [h]
    · rw [h, State.setClaim_claim_of_ne _ _ hk]
  tuned d hd hs := by
    simp only [State.memoDropped, hd, hs, if_false]
  silent d hd hs ha := by
    have gone : s.memoDropped = s.setClaim radioHandle none := by simp only [State.memoDropped, hd, hs, ha, if_true]
    rw [gone, State.claim_setClaim_none]
  airing d u hd hs ha hu := by
    have back : s.memoDropped = s.changeClaim radioHandle fun c => { c with source := sourceOfTuner u } := by
      simp only [State.memoDropped, hd, hs, ha, hu, if_true]
    rw [back]
    exact State.changeClaim_claim _ hd

/-- What a discard leaves of a buffer that holds something, told of a state whose memo is formed. -/
structure Discarded (c : DiscardCause) (s t : State) : Prop where
  shift : t.shift = .off
  fallen : FallLatched 3 s t
  advisories : ∀ k, (t.link k).advisories =
    if k = .cockpit then joinAdvisory (s.link k).advisories (.shiftDiscarded c s.shift.state s.shift.fill)
    else (s.link k).advisories
  paused : s.shift.purpose ≠ some .memo → t.table = s.table ∧ t.traffic = s.traffic
  memo : s.shift.purpose = some .memo → t.traffic = { s.traffic with retained := none } ∧ MemoDropped s t

theorem discarded_of_memoWf {s : State} {c : DiscardCause} (hc : c ≠ .hubReset) (on : s.shift.state ≠ .off) (wf : s.memoWf) :
    Discarded c s (s.discard c) := by
  set v := s.shiftOff.advise .cockpit (.shiftDiscarded c s.shift.state s.shift.fill) with hv
  have told := happens_advise s.shiftOff .cockpit (.shiftDiscarded c s.shift.state s.shift.fill)
  have off := happens_shiftOff s
  have table : v.table = s.table := (told.blocks.2 .table (by decide)).trans (off.blocks.2 .table (by decide))
  have traffic : v.traffic = s.traffic := (told.blocks.2 .traffic (by decide)).trans (off.blocks.2 .traffic (by decide))
  have shift : v.shift = .off := (told.blocks.2 .shift (by decide)).trans s.shiftOff_shift
  have advisories : ∀ k, (v.link k).advisories =
      if k = .cockpit then joinAdvisory (s.link k).advisories (.shiftDiscarded c s.shift.state s.shift.fill)
      else (s.link k).advisories := fun k => by
    rw [hv, State.advise_advisories, State.shiftOff_advisories]
  have fallen : FallLatched 3 s v := (State.shiftOff_latched on).kept (undirected_advise _ _ _).latched
  have discard : s.discard c = if s.shift.purpose = some .memo then v.dropMemoClaim else v := by
    unfold State.discard
    rw [if_neg on]
    dsimp only
    rw [if_neg hc]
  by_cases memo : s.shift.purpose = some .memo
  · have heard : v.traffic.announcing = true → v.traffic.outcome ≠ some .none := fun k => by
      rw [traffic] at k ⊢
      rw [wf.2.2 memo k]
      decide
    rw [discard, if_pos memo, State.dropMemoClaim_eq (congrArg ShiftBuffer.state shift) heard]
    set w := v.withTraffic { v.traffic with retained := none } with hw
    have dropped := happens_memoDropped w
    have link : ∀ k, w.memoDropped.link k = v.link k := fun k => by rw [State.link, w.memoDropped_links]; rfl
    have claim : ∀ k, w.claim k = s.claim k := fun k => congrArg (fun x : ClaimTable => x.entries.getD k none) table
    have air : w.traffic = { s.traffic with retained := none } := by rw [hw, ← traffic]; rfl
    obtain ⟨others, tuned, silent, airing⟩ := w.memoDropped_spec
    simp only [claim, air] at others tuned silent airing
    exact ⟨(dropped.blocks.2 .shift (by decide)).trans shift, fun k hk => (link k).symm ▸ fallen k hk,
      fun k => (link k).symm ▸ advisories k, fun h => absurd memo h,
      fun _ => ⟨(dropped.blocks.2 .traffic (by decide)).trans air, others, tuned, silent, airing⟩⟩
  · rw [discard, if_neg memo]
    exact ⟨shift, fallen, advisories, fun _ => ⟨table, traffic⟩, fun h => absurd h memo⟩

end Sys2Proof.Machine
end

section
namespace Sys2Proof.Machine

/-! ### Sets of indices as sums of powers of two -/

/-- The powers of two at the places, from `k` on, of the members that `p` picks. -/
def powersAt {α : Type} (p : α → Bool) (k : Nat) (xs : List α) : Nat :=
  ((xs.zipIdx k).filterMap fun (x, i) => if p x then some (2 ^ i) else none).sum

theorem powersAt_cons {α : Type} (p : α → Bool) (k : Nat) (x : α) (xs : List α) :
    powersAt p k (x :: xs) = (if p x then 2 ^ k else 0) + powersAt p (k + 1) xs := by
  unfold powersAt
  rw [List.zipIdx_cons, List.filterMap_cons]
  by_cases h : p x <;> simp [h]

theorem powersAt_eq_mul {α : Type} (p : α → Bool) (k : Nat) (xs : List α) : ∃ q, powersAt p k xs = 2 ^ k * q := by
  induction xs generalizing k with
  | nil => exact ⟨0, rfl⟩
  | cons x xs ih =>
    obtain ⟨q, hq⟩ := ih (k + 1)
    rw [powersAt_cons, hq, Nat.pow_succ, Nat.mul_assoc]
    split
    · exact ⟨1 + 2 * q, by rw [Nat.mul_add, Nat.mul_one]⟩
    · exact ⟨2 * q, Nat.zero_add _⟩

/-- The bits of the sum are the places picked. -/
theorem powersAt_testBit {α : Type} (p : α → Bool) (k i : Nat) (xs : List α) :
    (powersAt p k xs).testBit (k + i) = (xs[i]?.map p).getD false := by
  induction xs generalizing k i with
  | nil => simp [powersAt]
  | cons x xs ih =>
    obtain ⟨q, hq⟩ := powersAt_eq_mul p (k + 1) xs
    have or_eq : (if p x then 2 ^ k else 0) + powersAt p (k + 1) xs = powersAt p (k + 1) xs ||| if p x then 2 ^ k else 0 := by
      have small : (if p x then 2 ^ k else 0) < 2 ^ (k + 1) := by
        have := Nat.pow_lt_pow_right (a := 2) (by decide) (Nat.lt_succ_self k)
        split <;> omega
      rw [hq, Nat.add_comm, Nat.two_pow_add_eq_or_of_lt small]
    rw [powersAt_cons, or_eq, Nat.testBit_or]
    cases i with
    | zero =>
      have low : (powersAt p (k + 1) xs).testBit (k + 0) = false := by
        rw [hq, Nat.testBit_two_pow_mul]
        simp
      rw [low]
      by_cases h : p x <;> simp [h]
    | succ i =>
      have high : (if p x then 2 ^ k else 0).testBit (k + (i + 1)) = false := by
        split
        · rw [Nat.testBit_two_pow]
          simp
        · exact Nat.zero_testBit _
      rw [high, Bool.or_false, ← Nat.add_assoc, Nat.add_right_comm, ih, List.getElem?_cons_succ]

/-! ### What a discard writes to the store -/

/-- `t` has the store of `s`, its stream requests apart. -/
def OnlyPosts (s t : State) : Prop := t.store = { s.store with posted := t.store.posted }

namespace OnlyPosts

theorem eq {s t : State} (h : OnlyPosts s t) : t.store = { s.store with posted := t.store.posted } := h

theorem of_store {s t : State} (h : t.store = s.store) : OnlyPosts s t := by
  unfold OnlyPosts
  rw [h]

theorem refl (s : State) : OnlyPosts s s := .of_store rfl

theorem trans {s t u : State} (h : OnlyPosts s t) (k : OnlyPosts t u) : OnlyPosts s u := by
  unfold OnlyPosts at *
  rw [k, h]

theorem ite {s t u : State} {c : Prop} [Decidable c] (h : OnlyPosts s t) (k : OnlyPosts s u) :
    OnlyPosts s (if c then t else u) := by split <;> assumption

theorem of_happens {bs : List Block} {s t : State} (h : Happens bs s t) (hs : Block.store ∉ Block.links :: bs) : OnlyPosts s t :=
  .of_store (h.blocks.2 .store hs)

end OnlyPosts

theorem onlyPosts_tableChanged (s : State) : OnlyPosts s s.tableChanged := by
  have quiet : s.memoless → OnlyPosts s s.tableChanged := fun h => by
    rw [State.tableChanged_of_memoless h]
    split
    · exact .of_happens (happens_considerMemo s _) (by decide)
    · exact .refl s
  cases h : s.shift.state with
  | off => exact quiet (.inl h)
  | capture => exact quiet (.inr (.inl h))
  | replay => exact quiet (.inr (.inr h))
  | memoReplay =>
    rw [State.tableChanged_of_memoReplay h]
    exact .refl s
  | memoCapture =>
    rw [State.tableChanged_of_memoCapture h]
    exact .ite rfl (.refl s)
  | memoHeld =>
    cases hq : s.traffic.retained with
    | none =>
      rw [State.tableChanged_of_none h hq]
      exact .refl s
    | some q =>
      rw [State.tableChanged_of_memoHeld h hq]
      refine .ite ?_ (.refl s)
      have posted := happens_post (s.withShift { s.shift with state := .memoReplay, running := false }) radioHandle (radioClaim .shift)
      exact (OnlyPosts.of_happens posted (by decide)).trans rfl

theorem onlyPosts_dropMemoClaim (s : State) : OnlyPosts s s.dropMemoClaim := by
  unfold State.dropMemoClaim
  generalize ht : s.withTraffic { s.traffic with retained := none } = t
  have cleared : OnlyPosts s t := ht ▸ .of_store rfl
  refine cleared.trans ?_
  have changed : ∀ x, OnlyPosts t (t.setClaim radioHandle x).tableChanged := fun x =>
    (OnlyPosts.of_happens (happens_setClaim t radioHandle x) (by decide)).trans (onlyPosts_tableChanged _)
  dsimp only
  split
  · refine .ite ?_ (.refl t)
    split
    · exact changed _
    · exact changed _
  · exact .refl t

theorem onlyPosts_discard (s : State) (c : DiscardCause) : OnlyPosts s (s.discard c) := by
  unfold State.discard
  refine .ite (.refl s) ?_
  have off : OnlyPosts s s.shiftOff := by
    unfold OnlyPosts
    rw [State.shiftOff_store]
    rfl
  have told : OnlyPosts s (if c = .hubReset then s.shiftOff
      else s.shiftOff.advise .cockpit (.shiftDiscarded c s.shift.state s.shift.fill)) :=
    .ite off (off.trans (.of_happens (happens_advise _ _ _) (by decide)))
  exact .ite (told.trans (onlyPosts_dropMemoClaim _)) told

/-! ### REGION_SET (R171, R172) -/

/-- The descriptor is one of link `l`'s and becomes invalid under `st`. -/
def Store.outlawsOf (st : Store) (l : Link) (d : Option Descriptor) : Bool :=
  match d with
  | some x => st.outlaws d && x.definer = l
  | none => false

theorem lostBy_eq (st : Store) (ds : List (Option Descriptor)) (l : Link) :
    lostBy st ds l = BitVec.ofNat 32 (powersAt (st.outlawsOf l) 0 ds) := by
  unfold lostBy powersAt
  rw [List.sum_eq_foldl_nat]
  congr 3
  funext ⟨d, i⟩
  cases d <;> rfl

theorem Store.outlaws_iff (st : Store) (x : Descriptor) :
    st.outlaws (some x) = true ↔ x.valid = true ∧ st.soundRegion x.range.1 x.range.2 = none := by
  simp [Store.outlaws]

/-- A link is told the indices of its own descriptors that become invalid. -/
theorem lostBy_getLsbD (st : Store) (s : State) (hl : s.chime.descs.length = 32) (l : Link) (i : Nat) :
    (lostBy st s.chime.descs l).getLsbD i = true ↔
      ∃ x, s.desc i = some x ∧ x.definer = l ∧ x.valid = true ∧ st.soundRegion x.range.1 x.range.2 = none := by
  have bit := powersAt_testBit (st.outlawsOf l) 0 i s.chime.descs
  rw [Nat.zero_add] at bit
  rw [lostBy_eq, BitVec.getLsbD_ofNat, bit, State.desc, List.getD_eq_getElem?_getD]
  by_cases hi : i < 32
  · rw [List.getElem?_eq_getElem (hl.symm ▸ hi)]
    cases s.chime.descs[i]'(hl.symm ▸ hi) with
    | none => simp [Store.outlawsOf]
    | some x => simp [Store.outlawsOf, Store.outlaws_iff, hi, and_comm]
  · rw [List.getElem?_eq_none (by omega)]
    simp [hi]

theorem Store.settle_eq (st : Store) (d : Option Descriptor) : st.settle d = d.map fun x =>
    if x.valid = true ∧ st.soundRegion x.range.1 x.range.2 = none then { x with valid := false } else x := by
  cases d with
  | none => rfl
  | some x => simp only [Store.settle, Store.outlaws_iff, Option.map_some, apply_ite some]

/-! Each link is told once. -/

/-- DESCRIPTOR_INVALIDATED told to each link of a list that has lost some. -/
def State.tellLoss (s : State) (lost : Link → BitVec 32) (ls : List Link) : State :=
  ls.foldl (fun t l => if lost l = 0 then t else t.advise l (.descriptorInvalidated (lost l))) s

theorem happens_tellLoss (s : State) (lost : Link → BitVec 32) (ls : List Link) : Happens [] s (s.tellLoss lost ls) :=
  happens_foldl _ (fun t l => .ite (.refl _ t) (happens_advise t l _)) _ _

theorem undirected_tellLoss (s : State) (lost : Link → BitVec 32) (ls : List Link) : Undirected s (s.tellLoss lost ls) :=
  .foldl _ (fun t l => .ite (.refl t) (undirected_advise t l _)) ls s

theorem State.tellLoss_advisories (s : State) (lost : Link → BitVec 32) {ls : List Link} (once : ls.Nodup) (k : Link) :
    ((s.tellLoss lost ls).link k).advisories =
      if k ∈ ls ∧ lost k ≠ 0 then joinAdvisory (s.link k).advisories (.descriptorInvalidated (lost k))
      else (s.link k).advisories := by
  induction ls generalizing s with
  | nil => simp [State.tellLoss]
  | cons l ls ih =>
    obtain ⟨fresh, once⟩ := List.nodup_cons.1 once
    show ((State.tellLoss _ lost ls).link k).advisories = _
    rw [ih _ once]
    by_cases hk : k = l
    · subst hk
      by_cases none_ : lost k = 0#32 <;> simp [fresh, none_, State.advise_advisories]
    · by_cases none_ : lost l = 0#32 <;> simp [hk, none_, State.advise_advisories]

theorem State.tellLoss_latched (s : State) (lost : Link → BitVec 32) {ls : List Link} {k : Link} (hk : k ∈ ls) (some_ : lost k ≠ 0)
    (enabled : (s.link k).riseEnable.getLsbD 15 = true) : ((s.tellLoss lost ls).link k).riseLatch.getLsbD 15 = true := by
  induction ls generalizing s with
  | nil => simp at hk
  | cons l ls ih =>
    set t := if lost l = 0 then s else s.advise l (.descriptorInvalidated (lost l)) with ht
    show ((t.tellLoss lost ls).link k).riseLatch.getLsbD 15 = true
    by_cases here : k = l
    · subst here
      have told : (t.link k).riseLatch.getLsbD 15 = true := by
        rw [ht, if_neg some_]
        simp [State.advise, State.notice, State.offer, LinkState.offer, conditionBit, enabled]
      exact ((undirected_tellLoss t lost ls).latched k 15).1 told
    · have undisturbed : Happens [] s t := .ite (.refl _ s) (happens_advise s l _)
      exact ih t ((List.mem_cons.1 hk).resolve_left here) ((undisturbed.links k).1.symm ▸ enabled)

/-! The bounds moved. -/

/-- The bounds moved and the losses told. -/
theorem State.rebounded_eq (s : State) (u0 u1 : Nat) : s.rebounded u0 u1 =
    State.tellLoss ((s.withStore { s.store with u0 := u0, u1 := u1 }).withChime
      { s.chime with descs := s.chime.descs.map { s.store with u0 := u0, u1 := u1 : Store }.settle })
      (lostBy { s.store with u0 := u0, u1 := u1 } s.chime.descs) Link.every := rfl

theorem State.rebounded_same (s : State) (u0 u1 : Nat) :
    (s.rebounded u0 u1).table = s.table ∧ (s.rebounded u0 u1).traffic = s.traffic
      ∧ (s.rebounded u0 u1).chime = { s.chime with descs := s.chime.descs.map { s.store with u0 := u0, u1 := u1 : Store }.settle } := by
  have moved := (happens_rebounded s u0 u1).blocks.2
  exact ⟨moved .table (by decide), moved .traffic (by decide), moved .chime (by decide)⟩

theorem happens_moveBounds (s : State) (u0 u1 : Nat) : Happens (.chime :: tableFollowers) s (s.moveBounds u0 u1).2 := by
  have bounds : Happens (.chime :: tableFollowers) s (s.rebounded u0 u1) :=
    ((happens_withStore s _).mono (by simp [tableFollowers])).trans (((happens_withChime _ _).mono (by simp)).trans
      ((happens_rebounded s u0 u1).mono (by simp)))
  rw [State.moveBounds_state]
  exact .ite (bounds.trans ((happens_discard _ _).mono (by simp))) bounds

/-- REGION_SET that disturbs nothing passes its checks. -/
theorem regionSetBody_moves {s : State} {a b : Half} (ready : s.store.initialising = false) (ordered : a.toNat ≤ b.toNat)
    (inside : b.toNat ≤ 256) (voices : ∀ v ∈ s.voiceRanges, s.store.disturbs a.toNat b.toNat v.1 v.2 = false)
    (channels : ∀ v ∈ s.store.channelRanges, s.store.disturbs a.toNat b.toNat v.1 v.2 = false) :
    regionSetBody (half a ++ half b) s = s.moveBounds a.toNat b.toNat := by
  have u0 : u16 (half a ++ half b) 0 = a.toNat := u16_half rfl rfl
  have u1 : u16 (half a ++ half b) 2 = b.toNat := u16_half rfl rfl
  have calm : ∀ rs : List (Nat × Nat), (∀ v ∈ rs, s.store.disturbs a.toNat b.toNat v.1 v.2 = false) →
      ¬(rs.any fun r => s.store.disturbs a.toNat b.toNat r.1 r.2) = true := fun rs h => by
    simpa [Bool.not_eq_true] using h
  unfold regionSetBody
  dsimp only
  rw [u0, u1, if_neg (by simp [ready]), if_neg (by omega), if_neg (calm _ voices), if_neg (calm _ channels)]

/-- What the moved bounds leave, the buffer being discarded where its region moved. -/
structure Rebounded (u0 u1 : Nat) (st : Store) (s t : State) : Prop where
  store : t.store = { st with posted := t.store.posted }
  chime : t.chime = { s.chime with descs := s.chime.descs.map st.settle }
  stays : u1 = s.store.u1 → t.shift = s.shift ∧ t.table = s.table ∧ t.traffic = s.traffic
  discards : u1 ≠ s.store.u1 → s.shift.state ≠ .off → s.memoWf → t.shift = .off ∧ FallLatched 3 s t
    ∧ (s.shift.purpose ≠ some .memo → t.table = s.table ∧ t.traffic = s.traffic)
    ∧ (s.shift.purpose = some .memo → t.traffic = { s.traffic with retained := none } ∧ MemoDropped s t)
  told : ∀ k, lostBy st s.chime.descs k ≠ 0 → (s.link k).riseEnable.getLsbD 15 = true → (t.link k).riseLatch.getLsbD 15 = true
  advisories : s.memoWf → ∀ (k : Link) (xs : List Advisory),
    xs = (if lostBy st s.chime.descs k = 0 then (s.link k).advisories
          else joinAdvisory (s.link k).advisories (.descriptorInvalidated (lostBy st s.chime.descs k))) →
    (t.link k).advisories = if k = .cockpit ∧ u1 ≠ s.store.u1 ∧ s.shift.state ≠ .off then
      joinAdvisory xs (.shiftDiscarded .region s.shift.state s.shift.fill) else xs

theorem mem_every_link (k : Link) : k ∈ Link.every := by cases k <;> decide

section
variable {s : State} {u0 u1 : Nat} {st : Store} (hst : st = { s.store with u0 := u0, u1 := u1 })
include hst

/-- The advisories and notices of the lost descriptors. -/
theorem State.rebounded_told (k : Link) :
    ((s.rebounded u0 u1).link k).advisories =
        (if lostBy st s.chime.descs k = 0 then (s.link k).advisories
         else joinAdvisory (s.link k).advisories (.descriptorInvalidated (lostBy st s.chime.descs k)))
      ∧ (lostBy st s.chime.descs k ≠ 0 → (s.link k).riseEnable.getLsbD 15 = true →
          ((s.rebounded u0 u1).link k).riseLatch.getLsbD 15 = true)
      ∧ ((s.rebounded u0 u1).link k).fallEnable = (s.link k).fallEnable := by
  rw [State.rebounded_eq, ← hst]
  generalize hb : (s.withStore st).withChime { s.chime with descs := s.chime.descs.map st.settle } = base
  have link : base.link k = s.link k := by subst hb; rfl
  generalize lostBy st s.chime.descs = lost
  have every := mem_every_link k
  rw [State.tellLoss_advisories _ _ (by decide), ((happens_tellLoss base lost _).links k).2.1, link]
  refine ⟨?_, fun some_ enabled => State.tellLoss_latched _ _ every some_ (link.symm ▸ enabled), rfl⟩
  by_cases none_ : lost k = 0#32 <;> simp [every, none_]

theorem rebounded_moveBounds : Rebounded u0 u1 st s (s.moveBounds u0 u1).2 := by
  have store := s.rebounded_store u0 u1
  have shift := s.rebounded_shift u0 u1
  obtain ⟨table, traffic, chime⟩ := s.rebounded_same u0 u1
  have told := State.rebounded_told hst
  rw [← hst] at store chime
  rw [State.moveBounds_state]
  generalize s.rebounded u0 u1 = u at *
  have claim : ∀ k, u.claim k = s.claim k := fun k => by rw [State.claim, table]; rfl
  by_cases moves : u1 = s.store.u1
  · rw [if_neg (not_not.2 moves)]
    refine ⟨by rw [store], chime, fun _ => ⟨shift, table, traffic⟩, fun h => absurd moves h, fun k => (told k).2.1,
      fun _ k xs hxs => ?_⟩
    rw [if_neg fun h => h.2.1 moves, (told k).1, hxs]
  · rw [if_pos moves]
    have discarded := happens_discard u .region
    have wf : s.memoWf → u.memoWf := fun h => by
      unfold State.memoWf
      rwa [shift, traffic]
    refine ⟨?_, (discarded.blocks.2 .chime (by decide)).trans chime, fun h => absurd h moves, fun _ on h => ?_, fun k some_ enabled =>
      ((undirected_discard u .region).latched k 15).1 ((told k).2.1 some_ enabled), fun h k xs hxs => ?_⟩
    · rw [(onlyPosts_discard u .region).eq, store]
    · obtain ⟨off, fallen, -, paused, memo⟩ := discarded_of_memoWf (c := .region) (by decide) (shift.symm ▸ on) (wf h)
      rw [shift, table, traffic] at paused
      rw [shift, traffic] at memo
      refine ⟨off, fun k hk => fallen k ((told k).2.2 ▸ hk), paused, fun purpose => ?_⟩
      obtain ⟨air, others, tuned, silent, airing⟩ := memo purpose
      simp only [claim, traffic] at others tuned silent airing
      exact ⟨air, others, tuned, silent, airing⟩
    · by_cases off : s.shift.state = .off
      · rw [State.discard_of_off (shift.symm ▸ off), (told k).1, ← hxs, if_neg fun h => h.2.2 off]
      · obtain ⟨-, -, joined, -⟩ := discarded_of_memoWf (c := .region) (by decide) (shift.symm ▸ off) (wf h)
        rw [joined, (told k).1, ← hxs, shift]
        simp [moves, off]

end

/-- REGION_SET, through its closing. -/
theorem regionSet_moves {f : Frame} {s : State} {r : Reply} {a b : Half} (hr : s.holds .cockpit r) (hf : f.carries (half a ++ half b))
    (ordered : a.toNat ≤ b.toNat) (inside : b.toNat ≤ 256) (ready : s.store.initialising = false)
    (voices : ∀ v ∈ s.voiceRanges, s.store.disturbs a.toNat b.toNat v.1 v.2 = false)
    (channels : ∀ v ∈ s.store.channelRanges, s.store.disturbs a.toNat b.toNat v.1 v.2 = false) {st : Store}
    (hst : st = { s.store with u0 := a.toNat, u1 := b.toNat }) :
    ∃ t, exec (.regionSet .cockpit f) s = .next t
      ∧ Taken .cockpit f r (.answer [byteOf (s.chime.descs.filter st.outlaws).length]) (.chime :: tableFollowers) s t
      ∧ Rebounded a.toNat b.toNat st s t := by
  set s' := s.shiftOut .cockpit (clocked f) r with hs'
  have body : regionSetBody (half a ++ half b) s' =
      (.answer [byteOf (s.chime.descs.filter st.outlaws).length], (s'.moveBounds a.toNat b.toNat).2) := by
    rw [regionSetBody_moves (s := s') ready ordered inside voices channels, hst]
    rfl
  obtain ⟨t, next, taken, offered⟩ := order_offered (links := byCockpit) hr (operands_carries hf) rfl body (happens_moveBounds s' _ _)
  obtain ⟨store, chime, stays, discards, told, advisories⟩ := rebounded_moveBounds (s := s') (st := st) hst
  have chimes : t.chime = (s'.moveBounds a.toNat b.toNat).2.chime := offered.blocks .chime (by decide)
  have stores : t.store = (s'.moveBounds a.toNat b.toNat).2.store := offered.blocks .store (by decide)
  refine ⟨t, next, taken, ?_, chimes.trans chime, fun same => ?_, fun moves on wf => ?_, fun k lost enabled => ?_,
    fun wf k xs hxs => ?_⟩
  · rw [stores]; exact store
  · rw [offered.shift, offered.table, offered.traffic]; exact stays same
  · obtain ⟨off, fallen, paused, memo⟩ := discards moves on wf
    rw [offered.shift, offered.table, offered.traffic]
    refine ⟨off, fallen.of_shiftOut.kept offered.latched, paused, fun purpose => ?_⟩
    obtain ⟨air, others, tuned, silent, airing⟩ := memo purpose
    simp only [← offered.closes.claim] at others tuned silent airing
    exact ⟨air, others, tuned, silent, airing⟩
  · exact (offered.latched k 15).1 (told k lost ((s.shiftOut_watch .cockpit (clocked f) r k).1.symm ▸ enabled))
  · rw [offered.advisories]
    exact advisories wf k xs (by rw [(s.shiftOut_watch .cockpit (clocked f) r k).2]; exact hxs)

/-! ### RIGHTS_SET (R173) -/

theorem Store.setRight_fields (st : Store) (g : Region) (l : Link) (x : Right) : st.setRight g l x =
    { st with chimeRights := (st.setRight g l x).chimeRights, clipRights := (st.setRight g l x).clipRights,
              shiftRights := (st.setRight g l x).shiftRights } := by cases g <;> rfl

theorem Store.setRight_rights (st : Store) (g g' : Region) (l l' : Link) (x : Right) :
    ((st.setRight g l x).rights g').get l' = if g' = g ∧ l' = l then x else (st.rights g').get l' := by
  cases g <;> cases g' <;> simp [Store.setRight, Store.rights]

theorem rightsSetBody_sets {g k x y : Byte} {region : Region} {link : Link} {rd wr : Bool} (hg : regionOf g.toNat = some region)
    (hk : linkOf k.toNat = some link) (hx : onOff x.toNat = some rd) (hy : onOff y.toNat = some wr)
    (allowed : ¬(region = .shift ∧ wr = true)) (s : State) :
    rightsSetBody [g, k, x, y] s = answer .done (s.withStore (s.store.setRight region link ⟨rd, wr⟩)) := by
  have h0 : regionOf (u8 [g, k, x, y] 0) = some region := hg
  have h1 : linkOf (u8 [g, k, x, y] 1) = some link := hk
  have h2 : onOff (u8 [g, k, x, y] 2) = some rd := hx
  have h3 : onOff (u8 [g, k, x, y] 3) = some wr := hy
  simp only [rightsSetBody, h0, h1, h2, h3]
  exact if_neg (by simpa using allowed)

theorem rightsSet_sets (f : Frame) (s : State) (r : Reply) (g k x y : Byte) (region : Region) (link : Link) (rd wr : Bool)
    (hr : s.holds .cockpit r) (hf : f.carries [g, k, x, y]) (hg : regionOf g.toNat = some region) (hk : linkOf k.toNat = some link)
    (hx : onOff x.toNat = some rd) (hy : onOff y.toNat = some wr) (allowed : ¬(region = .shift ∧ wr = true)) :
    ∃ t, exec (.rightsSet .cockpit f) s = .next t ∧ Taken .cockpit f r (.plain .done) [.store] s t ∧ Unreported s t
      ∧ t.store = { s.store with
          chimeRights := t.store.chimeRights, clipRights := t.store.clipRights, shiftRights := t.store.shiftRights }
      ∧ ∀ (g' : Region) (k' : Link), (t.store.rights g').get k' =
          if g' = region ∧ k' = link then ⟨rd, wr⟩ else (s.store.rights g').get k' := by
  set s' := s.shiftOut .cockpit (clocked f) r with hs'
  obtain ⟨t, next, taken, quiet, offered⟩ := order_unreported (links := byCockpit) (bs := [.store]) hr (operands_carries hf) rfl
    (rightsSetBody_sets hg hk hx hy allowed s') (happens_withStore s' _) rfl fun _ => rfl
  have store : t.store = s.store.setRight region link ⟨rd, wr⟩ := offered.blocks .store (by decide)
  refine ⟨t, next, taken, quiet, ?_, fun g' k' => ?_⟩
  · rw [store]
    exact Store.setRight_fields _ _ _ _
  · rw [store]
    exact Store.setRight_rights _ _ _ _ _ _

/-- Settles O46: the bounds' move is one write of the store and the descriptors, behind which the losses are told link by link and the
buffer is discarded (`discarded_of_memoWf`). -/
theorem boundsAndRights : Obligations.BoundsAndRights := by
  unfold Obligations.BoundsAndRights
  refine ⟨fun f s r a b st hr hf ordered inside ready voices channels hst => ?_, rightsSet_sets⟩
  obtain ⟨t, next, taken, store, chime, stays, discards, told, advisories⟩ :=
    regionSet_moves hr hf ordered inside ready voices channels hst
  refine ⟨t, _, next, taken, store, by rw [chime], by rw [chime, List.length_map], fun i => ?_,
    congrArg (fun p => (s.chime.descs.filter p).length) (funext fun d => by cases d <;> rfl), stays,
    fun moves on wf => ?_, fun length wf => ⟨lostBy st s.chime.descs, fun k i => lostBy_getLsbD st s length k i, fun k xs hxs =>
      ⟨told k, advisories wf k xs hxs⟩⟩⟩
  · rw [State.desc, chime, ← Store.settle_eq]
    exact List.getD_map s.chime.descs none st.settle
  · obtain ⟨off, fallen, paused, memo⟩ := discards moves on wf
    refine ⟨off, fallen, paused, fun purpose => ?_⟩
    obtain ⟨air, others, tuned, silent, airing⟩ := memo purpose
    exact ⟨air, others, fun d hd => ⟨tuned d hd, silent d hd, fun u => airing d u hd⟩⟩

end Sys2Proof.Machine
end

section
namespace Sys2Proof.Machine

/-! ### The watch request's choice (R98) -/

/-- The better of the choice so far and an entry behind it. -/
def betterWatch (best : Option Entry) (e : Entry) : Option Entry :=
  match best with
  | none => some e
  | some b => if b.qs < e.qs then some e else some b

/-- An entry that a watch request may be set on. -/
def Entry.watchable (e : Entry) : Bool := e.freq.band = .fm && e.tp = some true

theorem Entry.watchable_iff (e : Entry) : e.watchable = true ↔ e.freq.band = .fm ∧ e.tp = some true := by simp [Entry.watchable]

theorem watchChoice_eq (xs : List Entry) : watchChoice xs = ((xs.filter Entry.watchable).foldl betterWatch none).map (·.freq) := rfl

theorem betterWatch_below {q : Nat} (xs : List Entry) (h : ∀ x ∈ xs, x.qs < q) (best : Option Entry)
    (hb : ∀ b, best = some b → b.qs < q) : ∀ b, xs.foldl betterWatch best = some b → b.qs < q := by
  induction xs generalizing best with
  | nil => exact hb
  | cons x xs ih =>
    refine ih (fun y hy => h y (List.mem_cons_of_mem _ hy)) _ fun b hx => ?_
    have below := h x List.mem_cons_self
    cases best with
    | none => exact Option.some.inj hx ▸ below
    | some c =>
      unfold betterWatch at hx
      dsimp only at hx
      split at hx
      · exact Option.some.inj hx ▸ below
      · exact Option.some.inj hx ▸ hb c rfl

theorem betterWatch_stays {e : Entry} (xs : List Entry) (h : ∀ x ∈ xs, x.qs ≤ e.qs) : xs.foldl betterWatch (some e) = some e := by
  induction xs with
  | nil => rfl
  | cons x xs ih =>
    have stays : betterWatch (some e) x = some e := if_neg (Nat.not_lt.2 (h x List.mem_cons_self))
    rw [List.foldl_cons, stays]
    exact ih fun y hy => h y (List.mem_cons_of_mem _ hy)

/-- The first of the best entries is chosen. -/
theorem watchChoice_of_watchedEntry {xs : List Entry} {e : Entry} (h : watchedEntry xs e) : watchChoice xs = some e.freq := by
  obtain ⟨before, behind, rfl, fm, tp, lower, notHigher⟩ := h
  have picks : e.watchable = true := e.watchable_iff.2 ⟨fm, tp⟩
  have first := betterWatch_below (q := e.qs) (before.filter Entry.watchable) (fun x hx => by
    obtain ⟨mem, watchable⟩ := List.mem_filter.1 hx
    exact lower x mem (x.watchable_iff.1 watchable).1 (x.watchable_iff.1 watchable).2) none nofun
  have wins : betterWatch ((before.filter Entry.watchable).foldl betterWatch none) e = some e := by
    cases hb : (before.filter Entry.watchable).foldl betterWatch none with
    | none => rfl
    | some b => exact if_pos (first b hb)
  rw [watchChoice_eq, List.filter_append, List.filter_cons_of_pos picks, List.foldl_append, List.foldl_cons, wins,
    betterWatch_stays]
  · rfl
  · intro x hx
    obtain ⟨mem, watchable⟩ := List.mem_filter.1 hx
    exact notHigher x mem (x.watchable_iff.1 watchable).1 (x.watchable_iff.1 watchable).2

theorem watchChoice_of_none {xs : List Entry} (h : ∀ e ∈ xs, e.freq.band = .fm → e.tp ≠ some true) : watchChoice xs = none := by
  have empty : xs.filter Entry.watchable = [] := List.filter_eq_nil_iff.2 fun e he => by
    rw [Entry.watchable_iff]
    exact fun k => h e he k.1 k.2
  rw [watchChoice_eq, empty]
  rfl

/-! ### What an assessment makes of the traffic block (R97 to R99) -/

theorem State.followEligible_switches (s : State) :
    s.followEligible.traffic.on = s.traffic.on ∧ s.followEligible.traffic.memo = s.traffic.memo := by
  unfold State.followEligible
  split
  · exact ⟨rfl, rfl⟩
  · split <;> exact ⟨rfl, rfl⟩

theorem State.reassess_switches (s : State) :
    s.reassess.traffic.on = s.traffic.on ∧ s.reassess.traffic.memo = s.traffic.memo := by
  have kept := settingsKept_reassess s
  exact ⟨kept.on.trans s.followEligible_switches.1, kept.memo.trans s.followEligible_switches.2⟩

/-- The source chosen is the one that the settings and the tuners give. -/
theorem State.followSource_source (s : State) : s.followSource.traffic.source = s.sourceNow := by
  unfold State.followSource
  dsimp only
  generalize (if s.traffic.announcing && !(s.sourceNow = s.traffic.source && s.taOf s.sourceNow) then s.endAnnouncement else s) = u
  cases s.sourceNow with
  | none => rfl
  | tuner v =>
    dsimp only
    split
    · have started := airKept_startAnnouncement (u.withTraffic { u.traffic with source := .tuner v }) v
      rw [started.source, State.onAir_traffic]
      rfl
    · rfl

/-- Where no source is chosen there is no announcement. -/
theorem State.followSource_silent {s : State} (h : s.sourceNow = .none) : s.followSource.traffic.announcing = false := by
  unfold State.followSource
  rw [h]
  dsimp only
  cases ha : s.traffic.announcing with
  | false => exact ha
  | true =>
    have offers : s.taOf .none = false := rfl
    simp only [offers, Bool.and_false, Bool.not_false, Bool.and_self, if_true]
    exact s.endAnnouncement_silence.1

/-- With traffic off nothing is watched and nobody is the source. -/
theorem State.reassess_of_off {s : State} (off : s.traffic.on = false) :
    s.reassess.traffic.source = .none ∧ s.reassess.traffic.watch = none ∧ s.reassess.traffic.announcing = false := by
  have off' : s.followEligible.traffic.on = false := s.followEligible_switches.1.trans off
  have watch : s.followEligible.followWatch.traffic.watch = none := by simp [State.followWatch, off']
  have assigned := (airKept_assignB s.followEligible.followWatch).settings.on
  have source : s.followEligible.followWatch.assignB.sourceNow = .none := by
    have off'' : s.followEligible.followWatch.assignB.traffic.on = false := assigned.trans off'
    simp [State.sourceNow, off'']
  exact ⟨(State.followSource_source _).trans source, (settingsKept_reassess s).watch.trans watch, State.followSource_silent source⟩

/-- What an assessment chooses while Tuner A does not serve and nothing is watched yet. -/
theorem State.reassess_of_silent {s : State} (on : s.traffic.on = true) (unwatched : s.traffic.watch = none)
    (uneligible : s.traffic.eligible = false) (silent : s.tunA.serving = false) :
    s.reassess.traffic.watch = watchChoice s.radio.stations
      ∧ (watchChoice s.radio.stations = none → s.reassess.traffic.source = .none)
      ∧ ∀ f, watchChoice s.radio.stations = some f → s.power.state = .run → s.tunB.holder = none →
          s.reassess.tunB.state = .watch ∧ s.reassess.tunB.rx.freq = f ∧ s.reassess.traffic.source = .tuner .b := by
  have eligible : s.followEligible = s := by simp [State.followEligible, silent, uneligible]
  have watch : s.followWatch.traffic.watch = watchChoice s.radio.stations := by
    simp [State.followWatch, on, uneligible, unwatched]
  have kept := settingsKept_reassess s
  have assigned := (airKept_assignB s.followWatch).settings
  have assigns := s.followWatch.assignB_assigned
  have tunB : s.reassess.tunB = s.followWatch.assignB.tunB := by rw [State.reassess, eligible, State.followSource_tunB]
  have source : s.reassess.traffic.source = s.followWatch.assignB.sourceNow := by
    rw [State.reassess, eligible, State.followSource_source]
  have on' : s.followWatch.assignB.traffic.on = true := assigned.on.trans on
  have uneligible' : s.followWatch.assignB.traffic.eligible = false := assigned.eligible.trans uneligible
  rw [eligible] at kept
  refine ⟨kept.watch.trans watch, fun none_ => ?_, fun f some_ run free => ?_⟩
  · have watch' : s.followWatch.assignB.traffic.watch = none := assigned.watch.trans (watch.trans none_)
    rw [source]
    simp [State.sourceNow, on', uneligible', watch']
  · have watch' : s.followWatch.assignB.traffic.watch = some f := assigned.watch.trans (watch.trans some_)
    have run' : s.followWatch.assignB.power.state = .run := by
      rw [show s.followWatch.assignB.power = s.power from (happens_assignB _).blocks.2 .power (by decide)]
      exact run
    have free' : s.followWatch.assignB.tunB.holder = none := (State.assignB_holder _).trans free
    have at_it := assigns run'
    rw [free', watch'] at at_it
    rw [tunB, source]
    refine ⟨at_it.1, at_it.2, ?_⟩
    simp [State.sourceNow, on', uneligible', watch', at_it.1]

/-! ### TRAFFIC_MODE turned off while a memo is held (R96, R113) -/

/-- The buffer holds a memo, or nothing. -/
def ShiftBuffer.memoOrOff (b : ShiftBuffer) : Prop := b.purpose = some .memo ∨ b.state = .off

theorem memoOrOff_considerMemo {s : State} (v : TunerId) (h : s.shift.memoOrOff) : (s.considerMemo v).shift.memoOrOff := by
  unfold State.considerMemo
  split
  · exact h
  · split
    · split
      · exact h
      · rw [State.startCapture_shift]
        exact .inl rfl
    all_goals exact h

theorem memoOrOff_tableChanged {s : State} (h : s.shift.memoOrOff) : s.tableChanged.shift.memoOrOff := by
  have quiet : s.memoless → s.tableChanged.shift.memoOrOff := fun k => by
    rw [State.tableChanged_of_memoless k]
    split
    · exact memoOrOff_considerMemo _ h
    · exact h
  cases hs : s.shift.state with
  | off => exact quiet (.inl hs)
  | capture => exact quiet (.inr (.inl hs))
  | replay => exact quiet (.inr (.inr hs))
  | memoReplay =>
    rw [State.tableChanged_of_memoReplay hs]
    exact h
  | memoCapture =>
    rw [State.tableChanged_of_memoCapture hs]
    split
    · exact h.imp_right fun off => by simp [hs] at off
    · exact h
  | memoHeld =>
    cases hq : s.traffic.retained with
    | none =>
      rw [State.tableChanged_of_none hs hq]
      exact h
    | some q =>
      rw [State.tableChanged_of_memoHeld hs hq]
      split
      · have posted : s.replayHeld.shift = { s.shift with state := .memoReplay, running := false } :=
          (happens_post (s.withShift { s.shift with state := .memoReplay, running := false }) radioHandle
            (radioClaim .shift)).blocks.2 .shift (by decide)
        rw [posted]
        exact h.imp_right fun off => by simp [hs] at off
      · exact h

theorem memoOrOff_dropMemoClaim {s : State} (h : s.shift.memoOrOff) : s.dropMemoClaim.shift.memoOrOff := by
  unfold State.dropMemoClaim
  generalize ht : s.withTraffic { s.traffic with retained := none } = t
  have ht : t.shift.memoOrOff := ht ▸ h
  have changed : ∀ x, (t.setClaim radioHandle x).tableChanged.shift.memoOrOff := fun x => memoOrOff_tableChanged ht
  dsimp only
  split
  · split
    · split
      · exact changed _
      · exact changed _
    · exact ht
  · exact ht

/-- A discard empties the buffer; a memo considered behind it may fill it again. -/
theorem memoOrOff_discard {s : State} (c : DiscardCause) : (s.discard c).shift.memoOrOff := by
  unfold State.discard
  split
  · exact .inr ‹_›
  · dsimp only
    generalize hv : (if c = .hubReset then s.shiftOff
      else s.shiftOff.advise .cockpit (.shiftDiscarded c s.shift.state s.shift.fill)) = v
    have off : v.shift.memoOrOff := by
      have shift : v.shift = s.shiftOff.shift := by
        rw [← hv]
        split <;> rfl
      rw [shift, State.shiftOff_shift]
      exact .inr rfl
    split
    · exact memoOrOff_dropMemoClaim off
    · exact off

theorem memoOrOff_retuned {s : State} (v : TunerId) (h : s.shift.memoOrOff) : (s.retuned v).shift.memoOrOff := by
  unfold State.retuned
  split
  · exact memoOrOff_discard _
  · exact h

theorem memoOrOff_enterB {s : State} (st : BState) (f : Option Freq) (h : s.shift.memoOrOff) : (s.enterB st f).shift.memoOrOff :=
  memoOrOff_retuned (s := s.withTunB _) .b h

theorem memoOrOff_assignB {s : State} (h : s.shift.memoOrOff) : s.assignB.shift.memoOrOff := by
  have entered : ∀ st f, (s.enterB st f).shift.memoOrOff := fun st f => memoOrOff_enterB st f h
  have swept : ∀ st, (s.startSweep st).shift.memoOrOff := fun st => memoOrOff_enterB (s := s.withRadio _) st _ h
  unfold State.assignB
  split
  · exact h
  · split
    · split
      · exact h
      · exact entered _ _
    · split
      · exact h
      · exact entered _ _
    · split
      · split
        · exact h
        · exact swept _
      · split
        · exact h
        · exact entered _ _

theorem memoOrOff_endAnnouncement {s : State} (h : s.shift.memoOrOff) : s.endAnnouncement.shift.memoOrOff := by
  have stopped : s.offAir.stopCapture.shift.memoOrOff := by
    rw [← s.offAir_shift] at h
    generalize s.offAir = u at h
    unfold State.stopCapture
    split
    · exact h.imp_right fun off => by simp_all
    · exact h.imp_right fun off => by simp_all
    all_goals exact h
  rw [State.endAnnouncement_eq]
  generalize s.offAir.stopCapture = u at stopped
  unfold State.dropTunerClaim
  split
  · split
    · exact stopped
    · exact memoOrOff_tableChanged (s := u.setClaim radioHandle none) stopped
  · exact stopped

/-- With traffic off an assessment ends what announcement there is, and nothing but a memo is left of a memo. -/
theorem memoOrOff_reassess {s : State} (off : s.traffic.on = false) (h : s.shift.memoOrOff) : s.reassess.shift.memoOrOff := by
  have chosen : s.followEligible.followWatch.assignB.shift.memoOrOff := by
    refine memoOrOff_assignB ?_
    rw [show s.followEligible.followWatch.shift = s.shift from (happens_followEligible s).blocks.2 .shift (by decide)]
    exact h
  have off' : s.followEligible.followWatch.assignB.traffic.on = false :=
    (airKept_assignB _).settings.on.trans (s.followEligible_switches.1.trans off)
  rw [State.reassess]
  generalize s.followEligible.followWatch.assignB = w at chosen off'
  have source : w.sourceNow = .none := by simp [State.sourceNow, off']
  unfold State.followSource
  rw [source]
  dsimp only
  split
  · exact memoOrOff_endAnnouncement chosen
  · exact chosen

/-- A discard without an announcement leaves the buffer OFF. -/
theorem State.discard_off_of_silent {s : State} {c : DiscardCause} (silent : s.traffic.announcing = false) :
    (s.discard c).shift.state = .off := by
  unfold State.discard
  split
  · assumption
  · dsimp only
    generalize hv : (if c = .hubReset then s.shiftOff
      else s.shiftOff.advise .cockpit (.shiftDiscarded c s.shift.state s.shift.fill)) = v
    have same : v.shift = s.shiftOff.shift ∧ v.traffic = s.shiftOff.traffic := by
      rw [← hv]
      split <;> exact ⟨rfl, rfl⟩
    have off : v.shift.state = .off := by rw [same.1, State.shiftOff_shift]; rfl
    have quiet : v.traffic.announcing = false := by
      rw [same.2, show s.shiftOff.traffic = s.traffic from (happens_shiftOff s).blocks.2 .traffic (by decide)]
      exact silent
    split
    · rw [State.dropMemoClaim_eq off fun on => by simp [quiet] at on,
        show (v.withTraffic { v.traffic with retained := none }).memoDropped.shift = v.shift from
          (happens_memoDropped _).blocks.2 .shift (by decide)]
      exact off
    · exact off

/-! ### TRAFFIC_MODE (R96) -/

/-- The settings taken, and what follows them. -/
def State.switched (s : State) (on memo : Bool) : State := (s.withTraffic { s.traffic with on := on, memo := memo }).reassess

/-- The memo discarded that traffic turned off leaves nobody to replay. -/
def State.dropsMemo (s t : State) (on : Bool) : State :=
  if s.traffic.on && !on && t.shift.purpose = some .memo then t.discard .trafficOff else t

theorem State.setTraffic_eq (s : State) (on memo : Bool) : s.setTraffic on memo =
    if memo && !s.traffic.memo then (s.dropsMemo (s.switched on memo) on).memoTurnedOn else s.dropsMemo (s.switched on memo) on := rfl

theorem happens_memoTurnedOn (s : State) : Happens [.traffic, .shift] s s.memoTurnedOn := by
  unfold State.memoTurnedOn
  split
  · exact happens_considerMemo _ _
  · exact .refl _ _

theorem airKept_memoTurnedOn (s : State) : AirKept s s.memoTurnedOn := by
  unfold State.memoTurnedOn
  split
  · exact airKept_considerMemo _ _
  · exact .refl s

theorem airKept_dropsMemo (s t : State) (on : Bool) : AirKept t (s.dropsMemo t on) := .ite (airKept_discard _ _) (.refl _)

theorem happens_setTraffic (s : State) (on memo : Bool) : Happens reassessed s (s.setTraffic on memo) := by
  have switched : Happens reassessed s (s.switched on memo) :=
    ((happens_withTraffic s _).mono (by simp [reassessed])).trans (happens_reassess _)
  have dropped : Happens reassessed s (s.dropsMemo (s.switched on memo) on) :=
    .ite (switched.trans ((happens_discard _ _).mono (by simp [reassessed, tableFollowers]))) switched
  rw [State.setTraffic_eq]
  exact .ite (dropped.trans ((happens_memoTurnedOn _).mono (by simp [reassessed]))) dropped

/-- After the assessment nothing moves of the traffic block but the memo's part. -/
theorem airKept_setTraffic (s : State) (on memo : Bool) : AirKept (s.switched on memo) (s.setTraffic on memo) := by
  have dropped := airKept_dropsMemo s (s.switched on memo) on
  rw [State.setTraffic_eq]
  exact .ite (dropped.trans (airKept_memoTurnedOn _)) dropped

/-- Nor does Tuner B move, traffic being turned on. -/
theorem State.setTraffic_tunB (s : State) (memo : Bool) : (s.setTraffic true memo).tunB = (s.switched true memo).tunB := by
  have dropped : s.dropsMemo (s.switched true memo) true = s.switched true memo := if_neg (by simp)
  rw [State.setTraffic_eq, dropped]
  split
  · exact (happens_memoTurnedOn _).blocks.2 .tunB (by decide)
  · rfl

/-- R96: a memo does not outlive traffic. -/
theorem State.setTraffic_drops {s : State} (memo : Bool) (on : s.traffic.on = true) (purpose : s.shift.purpose = some .memo) :
    (s.setTraffic false memo).shift.state = .off := by
  have silent : (s.switched false memo).traffic.announcing = false :=
    (State.reassess_of_off (s := s.withTraffic { s.traffic with on := false, memo := memo }) rfl).2.2
  have left : (s.switched false memo).shift.memoOrOff :=
    memoOrOff_reassess (s := s.withTraffic { s.traffic with on := false, memo := memo }) rfl (.inl purpose)
  have dropped : (s.dropsMemo (s.switched false memo) false).shift.state = .off := by
    unfold State.dropsMemo
    rw [on]
    generalize s.switched false memo = v at silent left
    by_cases held : v.shift.purpose = some .memo
    · simp only [held, Bool.not_false, Bool.and_self, decide_true, if_true]
      exact State.discard_off_of_silent silent
    · simp only [held, Bool.not_false, Bool.and_self, decide_false, Bool.and_false, Bool.false_eq_true, if_false]
      exact left.resolve_left held
  rw [State.setTraffic_eq]
  split
  · have quiet := (airKept_dropsMemo s (s.switched false memo) false).announcing.trans silent
    rw [State.memoTurnedOn, State.unheard_of_silent quiet]
    exact dropped
  · exact dropped

end Sys2Proof.Machine
end

section
namespace Sys2Proof.Machine

/-! ### The settings taken (R87, R90, R96, R107) -/

section
variable {f : Frame} {s : State} {r : Reply} {a b : Byte} (hr : s.holds .cockpit r) (hf : f.carries [a, b])
include hr hf

theorem scanPolicy_sets {x y : Bool} (hx : onOff a.toNat = some x) (hy : onOff b.toNat = some y) :
    ∃ t, exec (.scanPolicy .cockpit f) s = .next t ∧ Taken .cockpit f r (.plain .done) reassessed s t
      ∧ t.radio = { s.radio with scan := x, rearFirst := y, stations := t.radio.stations } := by
  set s' := s.shiftOut .cockpit (clocked f) r with hs'
  set v := s'.withRadio { s.radio with scan := x, rearFirst := y } with hv
  have body : scanPolicyBody [a, b] s' = (.plain .done, v.reassess) := by
    have h0 : onOff (u8 [a, b] 0) = some x := hx
    have h1 : onOff (u8 [a, b] 1) = some y := hy
    simp only [scanPolicyBody, h0, h1]
    rfl
  obtain ⟨t, next, taken, offered⟩ := order_offered (links := byCockpit) hr (operands_carries hf) rfl body
    (((happens_withRadio s' _).mono (by simp [reassessed])).trans (happens_reassess v))
  refine ⟨t, next, taken, ?_⟩
  rw [offered.radio]
  rcases v.reassess_radio with h | h <;> rw [h] <;> rfl

theorem afPolicy_sets {x : Bool} (hx : onOff a.toNat = some x) :
    ∃ t, exec (.afPolicy .cockpit f) s = .next t ∧ Taken .cockpit f r (.plain .done) [.radio, .tunA] s t ∧ Unreported s t
      ∧ t.radio = { s.radio with afOn := x, afThreshold := clampNat 10 90 b.toNat }
      ∧ (x = true → t.tunA = s.tunA) ∧ (x = false → t.tunA = { s.tunA with low := 0 }) := by
  set s' := s.shiftOut .cockpit (clocked f) r with hs'
  set v := s'.withRadio { s.radio with afOn := x, afThreshold := clampNat 10 90 b.toNat } with hv
  have body : afPolicyBody [a, b] s' = (.plain .done, if x then v else v.withTunA { s.tunA with low := 0 }) := by
    have h0 : onOff (u8 [a, b] 0) = some x := hx
    simp only [afPolicyBody, h0]
    rfl
  have happens : Happens [.radio, .tunA] s' (if x then v else v.withTunA { s.tunA with low := 0 }) :=
    .ite ((happens_withRadio s' _).mono (by simp))
      (((happens_withRadio s' _).mono (by simp)).trans ((happens_withTunA v _).mono (by simp)))
  obtain ⟨t, next, taken, quiet, offered⟩ := order_unreported (links := byCockpit) hr (operands_carries hf) rfl body happens
    (by cases x <;> rfl) (by cases x <;> exact fun _ => rfl)
  refine ⟨t, next, taken, quiet, ?_, fun on => ?_, fun off => ?_⟩
  · rw [offered.radio]
    cases x <;> rfl
  · rw [offered.tunA, if_pos on]
    rfl
  · rw [offered.tunA, if_neg (by simp [off])]
    rfl

theorem shiftPolicy_sets {x y : Bool} (hx : onOff a.toNat = some x) (hy : onOff b.toNat = some y) :
    ∃ t, exec (.shiftPolicy .cockpit f) s = .next t ∧ Taken .cockpit f r (.plain .done) [.traffic] s t ∧ Unreported s t
      ∧ t.traffic = { s.traffic with pauseOnCall := x, autoResume := y } := by
  set s' := s.shiftOut .cockpit (clocked f) r with hs'
  have body : shiftPolicyBody [a, b] s' =
      (.plain .done, s'.withTraffic { s.traffic with pauseOnCall := x, autoResume := y }) := by
    have h0 : onOff (u8 [a, b] 0) = some x := hx
    have h1 : onOff (u8 [a, b] 1) = some y := hy
    simp only [shiftPolicyBody, h0, h1]
    rfl
  obtain ⟨t, next, taken, quiet, offered⟩ := order_unreported (links := byCockpit) hr (operands_carries hf) rfl body
    (happens_withTraffic s' _) rfl fun _ => rfl
  exact ⟨t, next, taken, quiet, offered.traffic⟩

theorem trafficMode_sets {x y : Bool} (hx : onOff a.toNat = some x) (hy : onOff b.toNat = some y) :
    ∃ t, exec (.trafficMode .cockpit f) s = .next t ∧ Taken .cockpit f r (.plain .done) reassessed s t
      ∧ Offered ((s.shiftOut .cockpit (clocked f) r).setTraffic x y) t := by
  have body : trafficModeBody [a, b] (s.shiftOut .cockpit (clocked f) r) =
      (.plain .done, (s.shiftOut .cockpit (clocked f) r).setTraffic x y) := by
    have h0 : onOff (u8 [a, b] 0) = some x := hx
    have h1 : onOff (u8 [a, b] 1) = some y := hy
    simp only [trafficModeBody, h0, h1]
    rfl
  exact order_offered (links := byCockpit) hr (operands_carries hf) rfl body (happens_setTraffic _ x y)

end

/-- An announcement of Tuner A goes on through an assessment. -/
theorem State.reassess_of_serving {s : State} (serves : s.servesTraffic .a) (tp : s.tunA.rx.decoder.data.tp = some true)
    (ta : s.tunA.rx.decoder.data.ta = some true) (announcing : s.traffic.announcing = true) (source : s.traffic.source = .tuner .a) :
    s.reassess = s.withTraffic { s.traffic with eligible := true, holdAt := none, watch := none, source := .tuner .a } := by
  obtain ⟨run, on, assigned, fm, serving, -⟩ := serves
  obtain ⟨tuned, unsaved, unwatched⟩ := serving rfl
  have fm : s.tunA.rx.freq.band = .fm := fm
  have data : s.tunA.offered = s.tunA.rx.decoder.data := by rw [TunerA.offered, unsaved]
  have eligible : s.followEligible = s.withTraffic { s.traffic with eligible := true, holdAt := none } :=
    if_pos (by simp [TunerA.serving, fm, tuned, data, tp])
  have watch : s.followEligible.followWatch =
      s.withTraffic { s.traffic with eligible := true, holdAt := none, watch := none } := by
    rw [eligible]
    simp [State.followWatch]
    rfl
  set w := s.withTraffic { s.traffic with eligible := true, holdAt := none, watch := none } with hw
  have stays : w.assigned := by
    refine assigned_of_directions (s := s) ?_ assigned
    simp only [State.directions, hw, State.withTraffic_traffic, unwatched]
    rfl
  have chosen : w.sourceNow = .tuner .a := by simp [State.sourceNow, hw, on]
  have offers : w.taOf (.tuner .a) = true := by
    have same : w.tunA = s.tunA := rfl
    simp [State.taOf, same, data, ta]
  rw [State.reassess_of_assigned (watch ▸ stays), watch, State.followSource_of_stay chosen announcing source offers]
  rfl

/-- R96, R100: memo turned on in an announcement that goes unheard. -/
theorem trafficMode_considers {s t : State} {n : Nat} {r : Reply} {d : Claim}
    (offered : Offered ((s.shiftOut .cockpit n r).setTraffic true true) t) (memo : s.traffic.memo = false)
    (serves : s.servesTraffic .a) (tp : s.tunA.rx.decoder.data.tp = some true) (ta : s.tunA.rx.decoder.data.ta = some true)
    (announcing : s.traffic.announcing = true) (source : s.traffic.source = .tuner .a) (outcome : s.traffic.outcome = some .none)
    (hd : s.claim radioHandle = some d) (tuner : d.source ≠ .shift) (base : s.table.basedZones radioHandle = 0) :
    MemoConsidered .a s t := by
  set s' := s.shiftOut .cockpit n r with hs'
  set p := s'.withTraffic { s.traffic with on := true, memo := true } with hp
  have serves' : p.servesTraffic .a := by
    obtain ⟨run, on, assigned, rest⟩ := serves
    refine ⟨run, rfl, assigned_of_directions (s := s) ?_ assigned, rest⟩
    simp only [State.directions, hp, State.withTraffic_traffic, on]
    rfl
  have assessed : s'.switched true true = p.reassess := rfl
  rw [State.reassess_of_serving serves' tp ta announcing source] at assessed
  have dropped : s'.dropsMemo (s'.switched true true) true = s'.switched true true := if_neg (by simp)
  have turned : s'.setTraffic true true = (s'.switched true true).memoTurnedOn := by
    have off : s'.traffic.memo = false := memo
    rw [State.setTraffic_eq, dropped, off]
    rfl
  rw [turned, assessed] at offered
  generalize hv : p.withTraffic _ = v at offered
  have unheard : v.unheard = some .a := by
    have of := State.unheard_eq (s := v) (v := .a) (d := d) (by rw [← hv]; rfl) (by rw [← hv]; exact hd)
      (by rw [← hv]; exact announcing) (by rw [← hv]; exact outcome) tuner
    rw [of, ← hv]
    exact if_pos base
  rw [State.memoTurnedOn, unheard] at offered
  refine memoConsidered_of_closes (u := v) (by rw [← hv]; rfl) (by rw [← hv]; rfl) (fun k => ?_) ?_ (by rw [← hv]; rfl) offered.closes
  · rw [← hv]
    exact (s.shiftOut_watch .cockpit n r k).1
  · rw [← hv]
    exact (s.shiftOut_watch .cockpit n r .cockpit).2

/-- Settles O25: each order writes its settings; after TRAFFIC_MODE's the assessment chooses the source and the watch request
(`State.reassess_of_off`, `State.reassess_of_silent`, `State.reassess_of_serving`), and what comes behind it moves the memo alone. -/
theorem radioPolicies : Obligations.RadioPolicies := by
  unfold Obligations.RadioPolicies
  intro f s r a b x hr hf hx
  refine ⟨fun y hy => scanPolicy_sets hr hf hx hy, afPolicy_sets hr hf hx, fun y hy => shiftPolicy_sets hr hf hx hy, fun y hy => ?_⟩
  obtain ⟨t, next, taken, offered⟩ := trafficMode_sets hr hf hx hy
  set s' := s.shiftOut .cockpit (clocked f) r with hs'
  have air := airKept_setTraffic s' x y
  have kept := air.settings
  have switches := (s'.withTraffic { s'.traffic with on := x, memo := y }).reassess_switches
  refine ⟨t, next, taken, ?_, ?_, fun off => ?_, fun off on purpose _ => ?_, fun on unwatched uneligible silent => ?_,
    fun d on memoOn memo serves tp ta announcing source outcome hd tuner base => ?_⟩
  · rw [offered.traffic, kept.on]
    exact switches.1
  · rw [offered.traffic, kept.memo]
    exact switches.2
  · subst off
    rw [offered.traffic, air.source, kept.watch, air.announcing]
    exact State.reassess_of_off rfl
  · subst off
    rw [offered.shift]
    exact State.setTraffic_drops y on purpose
  · subst on
    obtain ⟨watch, none_, some_⟩ := State.reassess_of_silent (s := s'.withTraffic { s'.traffic with on := true, memo := y }) rfl
      unwatched uneligible silent
    rw [offered.traffic, offered.tunB, kept.watch, air.source, State.setTraffic_tunB]
    refine ⟨fun empty => ?_, fun e he => ?_⟩
    · have choice : watchChoice s.radio.stations = none := watchChoice_of_none empty
      exact ⟨watch.trans choice, none_ choice⟩
    · have choice : watchChoice s.radio.stations = some e.freq := watchChoice_of_watchedEntry he
      exact ⟨watch.trans choice, some_ e.freq choice⟩
  · subst on
    subst memoOn
    exact trafficMode_considers offered memo serves tp ta announcing source outcome hd tuner base

end Sys2Proof.Machine
end

section
namespace Sys2Proof.Machine

/-! ### An announcement's end while the buffer is OFF (R99) -/

theorem State.offAir_advisories (s : State) (k : Link) : (s.offAir.link k).advisories = (s.link k).advisories := by
  unfold State.offAir State.fallAll
  rw [State.offerAll_link]
  rfl

/-- TRAFFIC_ON falls, and a RADIO claim on a tuner is taken away; nothing else follows. -/
theorem State.endAnnouncement_eq_of_off {s : State} (off : s.shift.state = .off) :
    s.endAnnouncement = match s.claim radioHandle with
      | some c => if c.source = .shift then s.offAir else s.offAir.setClaim radioHandle none
      | none => s.offAir := by
  have off' : s.offAir.shift.state = .off := s.offAir_shift ▸ off
  have stopped : s.offAir.stopCapture = s.offAir := State.stopCapture_of_memoless (.inl off')
  have removed : (s.offAir.setClaim radioHandle none).tableChanged = s.offAir.setClaim radioHandle none :=
    State.tableChanged_of_off off' (State.unheard_eq_none_of_claim (State.claim_setClaim_none _ _))
  rw [State.endAnnouncement_eq, stopped, State.dropTunerClaim, State.offAir_claim]
  cases s.claim radioHandle with
  | none => rfl
  | some c =>
    dsimp only
    rw [removed]

/-- What the end of an announcement leaves while the buffer is OFF. -/
structure QuietEnd (s t : State) : Prop where
  traffic : t.traffic = { s.traffic with announcing := false, outcome := none }
  shift : t.shift = s.shift
  advisories : ∀ k, (t.link k).advisories = (s.link k).advisories
  fallen : FallLatched 2 s t
  removed : ∀ c, s.claim radioHandle = some c → c.source ≠ .shift → t.claim radioHandle = none

theorem quietEnd_of_off {s : State} (off : s.shift.state = .off) : QuietEnd s s.endAnnouncement := by
  have ended := State.endAnnouncement_eq_of_off off
  have kept : ∀ x, s.endAnnouncement = s.offAir.setClaim radioHandle x ∨ s.endAnnouncement = s.offAir →
      s.endAnnouncement.traffic = s.offAir.traffic ∧ s.endAnnouncement.shift = s.offAir.shift
        ∧ s.endAnnouncement.links = s.offAir.links := fun x h => by
    rcases h with h | h <;> rw [h] <;> exact ⟨rfl, rfl, rfl⟩
  obtain ⟨traffic, shift, links⟩ := kept none (by
    rw [ended]
    split
    · split
      · exact .inr rfl
      · exact .inl rfl
    · exact .inr rfl)
  have link : ∀ k, s.endAnnouncement.link k = s.offAir.link k := fun k => by rw [State.link, links]; rfl
  refine ⟨traffic.trans s.offAir_traffic, shift.trans s.offAir_shift, fun k => ?_, fun k hk => ?_, fun c hc hs => ?_⟩
  · rw [link, State.offAir_advisories]
  · rw [link]
    exact fallLatched_offAir s k hk
  · rw [ended, hc]
    dsimp only
    rw [if_neg hs, State.claim_setClaim_none]

/-! ### The assessment behind a tune of Tuner A (R74, R97, R99) -/

/-- Where the source chosen offers no TA flag, an announcement ends and none starts. -/
theorem State.followSource_of_quiet {s : State} (quiet : s.taOf s.sourceNow = false) :
    s.followSource = (if s.traffic.announcing then s.endAnnouncement else s).withSource s.sourceNow := by
  have ended := happens_endAnnouncement s
  have tuners : ∀ x, (s.endAnnouncement.withSource x).taOf x = s.taOf x := fun x =>
    State.taOf_congr (ended.blocks.2 .tunA (by decide)) (ended.blocks.2 .tunB (by decide)) x
  unfold State.followSource
  simp only [quiet, Bool.and_false, Bool.not_false, Bool.and_true]
  change (match s.sourceNow with
    | .tuner t => if !(State.withSource _ s.sourceNow).traffic.announcing && (State.withSource _ s.sourceNow).taOf s.sourceNow
        then (State.withSource _ s.sourceNow).startAnnouncement t else State.withSource _ s.sourceNow
    | .none => State.withSource _ s.sourceNow) = _
  have silent : ((if s.traffic.announcing then s.endAnnouncement else s).withSource s.sourceNow).taOf s.sourceNow = false := by
    split
    · exact (tuners _).trans quiet
    · exact quiet
  rw [silent]
  cases s.sourceNow <;> simp

/-- While the buffer is OFF an assignment of Tuner B writes the tuner and the list's seen flags alone. -/
theorem State.assignB_of_off {s : State} (off : s.shift.state = .off) : ∃ x y, s.assignB = (s.withRadio y).withTunB x := by
  have entered : ∀ (u : State) st f, u.shift.state = .off → ∃ x, u.enterB st f = u.withTunB x := fun u st f h => by
    obtain ⟨x, entered⟩ : ∃ x, u.enterB st f = (u.withTunB x).retuned .b := ⟨_, rfl⟩
    exact ⟨x, entered.trans (State.retuned_of_off (s := u.withTunB x) h .b)⟩
  have same : ∃ x y, s = (s.withRadio y).withTunB x := ⟨s.tunB, s.radio, rfl⟩
  have enters : ∀ st f, ∃ x y, s.enterB st f = (s.withRadio y).withTunB x := fun st f => by
    obtain ⟨x, h⟩ := entered s st f off
    exact ⟨x, s.radio, h⟩
  have sweeps : ∀ st, ∃ x y, s.startSweep st = (s.withRadio y).withTunB x := fun st => by
    obtain ⟨x, h⟩ := entered (s.withRadio (s.radio.withStations (s.radio.stations.map fun e => { e with seen := false }))) st
      (some firstChannel) off
    exact ⟨x, _, h⟩
  unfold State.assignB
  split
  · exact same
  · split
    · split
      · exact same
      · exact enters _ _
    · split
      · exact same
      · exact enters _ _
    · split
      · split
        · exact same
        · exact sweeps _
      · split
        · exact same
        · exact enters _ _

/-- Tuner A has just been tuned: it offers no data, so that nobody serves and no TA flag is offered. -/
def TunerA.blank (x : TunerA) : Prop := x.state = .settling ∧ x.saved = none ∧ x.rx.decoder = .empty

/-- What the assessment behind a tune leaves of the unit, the buffer being OFF. -/
structure Retuned (s t : State) : Prop where
  shift : t.shift = s.shift
  advisories : ∀ k, (t.link k).advisories = (s.link k).advisories
  retained : t.traffic.retained = s.traffic.retained
  ended : s.traffic.announcing = true → t.traffic.announcing = false ∧ t.traffic.outcome = none ∧ FallLatched 2 s t
    ∧ ∀ c, s.claim radioHandle = some c → c.source ≠ .shift → t.claim radioHandle = none

theorem retuned_reassess {s : State} (off : s.shift.state = .off) (blank : s.tunA.blank)
    (unwatched : s.traffic.on = false ∨ s.traffic.eligible = true) : Retuned s s.reassess := by
  obtain ⟨settling, unsaved, empty⟩ := blank
  have silent : s.tunA.serving = false := by simp [TunerA.serving, settling]
  obtain ⟨hold, eligible⟩ : ∃ h, s.followEligible = s.withTraffic { s.traffic with holdAt := h } := by
    simp only [State.followEligible, silent, Bool.false_eq_true, if_false]
    split
    · exact ⟨_, rfl⟩
    · exact ⟨s.traffic.holdAt, rfl⟩
  have watch : s.followEligible.followWatch = s.withTraffic { s.traffic with holdAt := hold, watch := none } := by
    rw [eligible]
    rcases unwatched with h | h <;> simp [State.followWatch, h] <;> rfl
  obtain ⟨x, y, assigned⟩ :=
    State.assignB_of_off (s := s.withTraffic { s.traffic with holdAt := hold, watch := none }) off
  set w := ((s.withTraffic { s.traffic with holdAt := hold, watch := none }).withRadio y).withTunB x with hw
  have quiet : w.taOf w.sourceNow = false := by
    have tunA : w.tunA = s.tunA := rfl
    have traffic : w.traffic = { s.traffic with holdAt := hold, watch := none } := rfl
    have ta : w.taOf (.tuner .a) = false := by simp [State.taOf, tunA, TunerA.offered, unsaved, empty, Decoder.empty, Decoded.empty]
    have chosen : w.sourceNow = .none ∨ w.sourceNow = .tuner .a := by
      rcases unwatched with h | h
      · exact .inl (by simp [State.sourceNow, traffic, h])
      · by_cases on : s.traffic.on = true
        · exact .inr (by simp [State.sourceNow, traffic, h, on])
        · exact .inl (by simp [State.sourceNow, traffic, on])
    rcases chosen with h | h <;> rw [h]
    · rfl
    · exact ta
  have assessed : s.reassess = (if w.traffic.announcing then w.endAnnouncement else w).withSource w.sourceNow := by
    rw [State.reassess, watch, assigned, State.followSource_of_quiet quiet]
  obtain ⟨traffic, shift, advisories, fallen, removed⟩ := quietEnd_of_off (s := w) off
  rw [assessed]
  cases announcing : s.traffic.announcing with
  | false =>
    have stays : w.traffic.announcing = false := announcing
    rw [stays]
    exact ⟨rfl, fun _ => rfl, rfl, fun h => absurd (announcing.symm.trans h) (by decide)⟩
  | true =>
    have goes : w.traffic.announcing = true := announcing
    rw [if_pos goes]
    have left : (w.endAnnouncement.withSource w.sourceNow).traffic =
        { w.traffic with announcing := false, outcome := none, source := w.sourceNow } := by
      rw [State.withSource, State.withTraffic_traffic, traffic]
    refine ⟨shift, advisories, ?_, fun _ => ⟨?_, ?_, fallen, removed⟩⟩
    · rw [left]; rfl
    · rw [left]
    · rw [left]

/-! ### TUNE_A and PRESET_RECALL (R75, R83) -/

theorem TunerA.blank_tunedTo (x : TunerA) (f : Freq) (r : Option (TuneCause × TuneResult)) (now : Time) : (x.tunedTo f r now).blank :=
  ⟨rfl, rfl, rfl⟩

/-- R71: the separation holds. -/
theorem TunerA.tunedTo_sep (x : TunerA) (f : Freq) (r : Option (TuneCause × TuneResult)) (now : Time) :
    (x.tunedTo f r now).rx.sep = x.rx.sep := by
  show (x.rx.hush x.open).sep = x.rx.sep
  unfold Receiver.hush
  split <;> rfl

/-- The state between a tune's report and the assessment behind it. -/
def State.reported (s : State) (f : Freq) (r : TuneCause × TuneResult) : State := (s.tuneA f (some r)).retuned .a

section
variable {s : State} {f : Freq} {r : TuneCause × TuneResult} (unwatched : s.traffic.on = false ∨ s.traffic.eligible = true)
include unwatched

theorem retuned_reported (off : (s.reported f r).shift.state = .off) : Retuned (s.reported f r) (s.retuneA f r) := by
  have kept : SettingsKept s (s.reported f r) := (airKept_retuned (s.tuneA f (some r)) .a).settings
  refine retuned_reassess off ?_ (unwatched.imp kept.on.trans kept.eligible.trans)
  rw [State.reported, State.retuned_tunA]
  exact s.tunA.blank_tunedTo f (some r) s.clock.now

/-- R113: what was captured from Tuner A is discarded. -/
theorem retuneA_discards (captured : s.shift.captured = some .a) (on : s.shift.state ≠ .off) (wf : s.memoWf) :
    (s.retuneA f r).shift = .off ∧ FallLatched 3 s (s.retuneA f r)
      ∧ ((s.retuneA f r).link .cockpit).advisories =
          joinAdvisory (s.link .cockpit).advisories (.shiftDiscarded .retune s.shift.state s.shift.fill)
      ∧ (s.shift.purpose = some .memo → (s.retuneA f r).traffic.retained = none) := by
  have reported : s.reported f r = (s.tuneA f (some r)).discard .retune := if_pos captured
  obtain ⟨off, fallen, advisories, -, memo⟩ := discarded_of_memoWf (s := s.tuneA f (some r)) (c := .retune) (by decide) on wf
  rw [← reported] at off fallen advisories memo
  have assessed := retuned_reported (f := f) (r := r) unwatched (congrArg ShiftBuffer.state off)
  refine ⟨assessed.shift.trans off, ?_, ?_, fun purpose => ?_⟩
  · have kept := latchesKept_reassess (s.reported f r)
    exact FallLatched.kept (s := s) (t := s.reported f r) fallen kept
  · rw [assessed.advisories, advisories, if_pos rfl]
    rfl
  · rw [assessed.retained, (memo purpose).1]

/-- R99: an announcement from Tuner A ends, the unit holding nothing or what it captured from Tuner A. -/
theorem retuneA_ends (announcing : s.traffic.announcing = true) (source : s.traffic.source = .tuner .a)
    (held : s.shift.state = .off ∨ s.shift.captured = some .a) (wf : s.memoWf) :
    (s.retuneA f r).traffic.announcing = false ∧ (s.retuneA f r).traffic.outcome = none ∧ FallLatched 2 s (s.retuneA f r)
      ∧ ∀ c, s.claim radioHandle = some c → (c.source ≠ .shift ∨ (s.shift.purpose = some .memo ∧ s.shift.state ≠ .off)) →
          (s.retuneA f r).claim radioHandle = none := by
  have air : (s.reported f r).traffic.announcing = true := (airKept_retuned (s.tuneA f (some r)) .a).announcing.trans announcing
  have links : LinksUndisturbed s (s.reported f r) :=
    (((happens_tuneA s f (some r)).mono (by simp)).trans (happens_retuned (s.tuneA f (some r)) .a |>.mono
      (cs := .tunA :: tableFollowers) (by simp))).links
  have prepared : (s.reported f r).shift.state = .off
      ∧ ∀ c, s.claim radioHandle = some c → (c.source ≠ .shift ∨ (s.shift.purpose = some .memo ∧ s.shift.state ≠ .off)) →
          ∃ d, (s.reported f r).claim radioHandle = some d ∧ d.source ≠ .shift := by
    by_cases off : s.shift.state = .off
    · have reported : s.reported f r = s.tuneA f (some r) := State.retuned_of_off (s := s.tuneA f (some r)) off .a
      rw [reported]
      exact ⟨off, fun c hc h => ⟨c, hc, h.resolve_right fun k => k.2 off⟩⟩
    · have reported : s.reported f r = (s.tuneA f (some r)).discard .retune := if_pos (held.resolve_left off)
      obtain ⟨empty, -, -, paused, memo⟩ := discarded_of_memoWf (s := s.tuneA f (some r)) (c := .retune) (by decide) off wf
      rw [← reported] at empty paused memo
      refine ⟨congrArg ShiftBuffer.state empty, fun c hc h => ?_⟩
      by_cases purpose : s.shift.purpose = some .memo
      · obtain ⟨-, -, tuned, -, airing⟩ := memo purpose
        by_cases hs : c.source = .shift
        · exact ⟨_, airing c .a hc hs announcing source, by simp [sourceOfTuner]⟩
        · exact ⟨c, tuned c hc hs, hs⟩
      · have claim : (s.reported f r).claim radioHandle = s.claim radioHandle := by
          rw [State.claim, (paused purpose).1]
          rfl
        exact ⟨c, claim.trans hc, h.resolve_right fun k => purpose k.1⟩
  obtain ⟨off, claims⟩ := prepared
  obtain ⟨silent, outcome, fallen, removed⟩ := (retuned_reported (f := f) (r := r) unwatched off).ended air
  refine ⟨silent, outcome, fallen.of_undisturbed links, fun c hc h => ?_⟩
  obtain ⟨d, hd, hs⟩ := claims c hc h
  exact removed d hd hs

end

theorem tuneABody_tunes {b : Byte} {w : Word} {band : Band} {s : State} (hb : bandOf b.toNat = some band)
    (hw : Freq.onRaster ⟨band, w.toNat⟩ = true) (run : s.power.state = .run) :
    tuneABody (b :: quad w) s = answer .accepted (s.retuneA ⟨band, w.toNat⟩ (.tuneA, .tuned)) := by
  have operand : u32 (b :: quad w) 1 = w.toNat := quad_value w
  have freq : freqAt (b :: quad w) 0 = some ⟨band, w.toNat⟩ := by
    have band' : bandOf (u8 (b :: quad w) 0) = some band := hb
    simp only [freqAt, band', operand, Option.bind_eq_bind, Option.bind_some, hw, if_true]
  simp only [tuneABody, freq]
  exact if_neg (not_not_intro run)

theorem tuneA_tunes (f : Frame) (s : State) (r : Reply) (b : Byte) (w : Word) (band : Band) (hr : s.holds .cockpit r)
    (hf : f.carries (b :: quad w)) (hb : bandOf b.toNat = some band) (hw : Freq.onRaster ⟨band, w.toNat⟩ = true)
    (run : s.power.state = .run) :
    ∃ t, exec (.tuneA .cockpit f) s = .next t ∧ Taken .cockpit f r (.plain .accepted) (.tunA :: reassessed) s t
      ∧ Offered ((s.shiftOut .cockpit (clocked f) r).retuneA ⟨band, w.toNat⟩ (.tuneA, .tuned)) t :=
  order_offered (links := byCockpit) hr (operands_carries hf) rfl
    (tuneABody_tunes (s := s.shiftOut .cockpit (clocked f) r) hb hw run) (happens_retuneA _ _ _)

theorem presetRecall_tunes (f : Frame) (s : State) (r : Reply) (p : Byte) (e : Entry) (hr : s.holds .cockpit r) (hf : f.carries [p])
    (run : s.power.state = .run) (he : s.radio.stations.find? (fun e => e.preset = some (clampNat 1 12 p.toNat)) = some e) :
    ∃ t, exec (.presetRecall .cockpit f) s = .next t ∧ Taken .cockpit f r (.plain .accepted) (.tunA :: reassessed) s t
      ∧ t.tunA.settlingOn e.freq (some (.presetRecall, .tuned)) s.clock.now ∧ t.tunA.rx.decoder = .empty := by
  set s' := s.shiftOut .cockpit (clocked f) r with hs'
  have body : presetRecallBody [p] s' = (.plain .accepted, s'.retuneA e.freq (.presetRecall, .tuned)) := by
    have run' : s'.power.state = .run := run
    have found : s'.radio.stations.find? (fun e => e.preset = some (clampNat 1 12 (u8 [p] 0))) = some e := he
    simp only [presetRecallBody, run', found]
    rfl
  obtain ⟨t, next, taken, offered⟩ := order_offered (links := byCockpit) hr (operands_carries hf) rfl body (happens_retuneA _ _ _)
  refine ⟨t, next, taken, ?_⟩
  rw [offered.tunA, State.retuneA_tunA]
  exact ⟨s'.tunA.settlingOn_tunedTo _ _ _, rfl⟩

/-! ### PRESET_STORE (R82) -/

/-- The number is on the entry of the frequency, and on no other. -/
theorem preset_of_mem_givePreset {xs : List Entry} {f : Freq} {p : Nat} {e : Entry} (h : e ∈ givePreset xs f p) :
    e.preset = some p ↔ e.freq = f := by
  obtain ⟨x, -, rfl⟩ := List.mem_map.1 h
  by_cases here : x.freq = f
  · simp [here]
  · by_cases had : x.preset = some p
    · simp [here, had]
    · simp [here, had]

theorem givePreset_freq {xs : List Entry} {f : Freq} {p : Nat} (h : ∃ e ∈ xs, e.freq = f) : ∃ e ∈ givePreset xs f p, e.freq = f := by
  obtain ⟨e, mem, rfl⟩ := h
  exact ⟨{ e with preset := some p }, List.mem_map.2 ⟨e, mem, if_pos rfl⟩, rfl⟩

/-- What an entry holds beside its preset, its name, its TP flag, its alternates and its seen flag. -/
def Entry.core (e : Entry) : Freq × Nat × Option Nat × Nat × Option Nat := (e.freq, e.qs, e.identity, e.missed, e.rejected)

theorem givePreset_core (xs : List Entry) (f : Freq) (p : Nat) : (givePreset xs f p).map Entry.core = xs.map Entry.core := by
  rw [givePreset, List.map_map]
  refine List.map_congr_left fun x _ => ?_
  dsimp only [Function.comp]
  split
  · rfl
  · split <;> rfl

theorem listed_iff {xs : List Entry} {f : Freq} : (∃ c ∈ xs.map Entry.core, c.1 = f) ↔ ∃ e ∈ xs, e.freq = f := by
  simp [Entry.core]

/-- The list in which the preset is stored: Tuner A's frequency has an entry in it. -/
structure Holds (xs : List Entry) (f : Freq) (ys : List Entry) : Prop where
  there : ∃ e ∈ ys, e.freq = f
  same : (∃ e ∈ xs, e.freq = f) → ys = xs

theorem holds_found {xs : List Entry} {f : Freq} (h : ∃ e ∈ xs, e.freq = f) : Holds xs f xs := ⟨h, fun _ => rfl⟩

theorem holds_inserted {xs : List Entry} {e : Entry} (h : ∀ x ∈ xs, x.freq ≠ e.freq) : Holds xs e.freq (insertEntry e xs) :=
  ⟨⟨e, mem_insertEntry.2 (.inr rfl), rfl⟩, fun ⟨x, mem, freq⟩ => absurd freq (h x mem)⟩

theorem presetStoreBody_stores {p : Byte} {fr : Freq} {s : State} (run : s.power.state = .run) (seeks : s.tunA.state ≠ .seeking)
    (verifies : s.tunA.state ≠ .afVerify) (hfr : fr = s.tunA.home.getD s.tunA.rx.freq)
    (room : (∃ e ∈ s.radio.stations, e.freq = fr) ∨ s.radio.stations.length < 48) :
    ∃ ys, Holds s.radio.stations fr ys
      ∧ presetStoreBody [p] s =
          (.plain .done, (s.withRadio (s.radio.withNewVersion (givePreset ys fr (clampNat 1 12 p.toNat)))).reassess) := by
  subst hfr
  have idle : ¬(s.tunA.state = .seeking ∨ s.tunA.state = .afVerify) := fun h => h.elim seeks verifies
  set fr := s.tunA.home.getD s.tunA.rx.freq with hfr
  by_cases found : ∃ e ∈ s.radio.stations, e.freq = fr
  · have listed : (findEntry s.radio.stations fr).isSome = true := by
      obtain ⟨e, mem, freq⟩ := found
      rw [Option.isSome_iff_ne_none, Ne, findEntry_eq_none]
      exact fun h => h e mem freq
    refine ⟨_, holds_found found, ?_⟩
    simp only [presetStoreBody, run, idle, ne_eq, not_true_eq_false, if_false, ← hfr, listed, if_true]
    rfl
  · have missing : ∀ x ∈ s.radio.stations, x.freq ≠ fr := fun x mem freq => found ⟨x, mem, freq⟩
    have unlisted : (findEntry s.radio.stations fr).isSome = false := by
      rw [findEntry_eq_none.2 missing]
      rfl
    refine ⟨_, holds_inserted (e := s.tunA.offered.entry fr s.tunA.rx.qs) missing, ?_⟩
    simp only [presetStoreBody, run, idle, ne_eq, not_true_eq_false, if_false, ← hfr, unlisted, Bool.false_eq_true, placeEntry,
      room.resolve_left found, if_true]
    rfl

/-- Members of the list after an assessment, their seen flags apart. -/
theorem State.mem_reassess_stations {s : State} {e : Entry} (h : e ∈ s.reassess.radio.stations) :
    ∃ x ∈ s.radio.stations, e.freq = x.freq ∧ e.preset = x.preset := by
  rcases s.reassess_radio with same | unseen
  · exact ⟨e, same ▸ h, rfl, rfl⟩
  · rw [unseen] at h
    obtain ⟨x, mem, rfl⟩ := List.mem_map.1 h
    exact ⟨x, mem, rfl, rfl⟩

theorem State.reassess_core (s : State) : s.reassess.radio.stations.map Entry.core = s.radio.stations.map Entry.core := by
  have plain := congrArg (List.map Entry.core) s.reassess_plain
  rw [List.map_map, List.map_map] at plain
  exact plain

theorem presetStore_stores (f : Frame) (s : State) (r : Reply) (p : Byte) (fr : Freq) (hr : s.holds .cockpit r) (hf : f.carries [p])
    (run : s.power.state = .run) (seeks : s.tunA.state ≠ .seeking) (verifies : s.tunA.state ≠ .afVerify)
    (hfr : fr = s.tunA.home.getD s.tunA.rx.freq)
    (room : (∃ e ∈ s.radio.stations, e.freq = fr) ∨ s.radio.stations.length < 48) :
    ∃ t, exec (.presetStore .cockpit f) s = .next t ∧ Taken .cockpit f r (.plain .done) reassessed s t
      ∧ (∃ e ∈ t.radio.stations, e.freq = fr)
      ∧ (∀ e ∈ t.radio.stations, e.preset = some (clampNat 1 12 p.toNat) ↔ e.freq = fr)
      ∧ t.radio.version = (s.radio.version + 1) % 65536
      ∧ ((∃ e ∈ s.radio.stations, e.freq = fr) →
          t.radio.stations.map (fun e => (e.freq, e.qs, e.identity, e.missed, e.rejected))
            = s.radio.stations.map fun e => (e.freq, e.qs, e.identity, e.missed, e.rejected)) := by
  set s' := s.shiftOut .cockpit (clocked f) r with hs'
  obtain ⟨ys, ⟨there, same⟩, body⟩ := presetStoreBody_stores (s := s') (p := p) run seeks verifies hfr room
  set v := s'.withRadio (s'.radio.withNewVersion (givePreset ys fr (clampNat 1 12 p.toNat))) with hv
  obtain ⟨t, next, taken, offered⟩ := order_offered (links := byCockpit) hr (operands_carries hf) rfl body
    (((happens_withRadio s' _).mono (by simp [reassessed])).trans (happens_reassess v))
  have radio := offered.radio
  refine ⟨t, next, taken, ?_, fun e he => ?_, ?_, fun found => ?_⟩
  · rw [radio, ← listed_iff, State.reassess_core, listed_iff]
    exact givePreset_freq there
  · rw [radio] at he
    obtain ⟨x, mem, freq, preset⟩ := State.mem_reassess_stations he
    rw [freq, preset]
    exact preset_of_mem_givePreset mem
  · rw [radio]
    exact v.reassess_version
  · rw [radio]
    refine v.reassess_core.trans ((givePreset_core _ _ _).trans ?_)
    rw [same found]
    rfl

/-- Settles O23: a tune is reported, which discards what was captured from Tuner A (`discarded_of_memoWf`), and the assessment behind it
finds a tuner that offers no data (`retuned_reassess`); a stored preset survives the assessment, which clears seen flags at most. -/
theorem tunesAndPresets : Obligations.TunesAndPresets := by
  unfold Obligations.TunesAndPresets
  refine ⟨fun f s r b w band hr hf hb hw run => ?_, presetRecall_tunes, presetStore_stores⟩
  obtain ⟨t, next, taken, offered⟩ := tuneA_tunes f s r b w band hr hf hb hw run
  set s' := s.shiftOut .cockpit (clocked f) r with hs'
  have tunA : t.tunA = s'.tunA.tunedTo ⟨band, w.toNat⟩ (some (.tuneA, .tuned)) s'.clock.now := by
    rw [offered.tunA, State.retuneA_tunA]
  refine ⟨t, next, taken, ?_, ?_, ?_, fun unwatched => ⟨fun captured on wf => ?_, fun announcing source held wf => ?_⟩⟩
  · rw [tunA]
    exact s'.tunA.settlingOn_tunedTo _ _ _
  · rw [tunA]
    rfl
  · rw [tunA]
    exact TunerA.tunedTo_sep _ _ _ _
  · obtain ⟨off, fallen, advisories, memo⟩ := retuneA_discards (s := s') (f := ⟨band, w.toNat⟩) (r := (.tuneA, .tuned)) unwatched
      captured on wf
    rw [offered.shift, offered.advisories, offered.traffic, advisories, (s.shiftOut_watch .cockpit (clocked f) r .cockpit).2]
    exact ⟨off, fallen.of_shiftOut.kept offered.latched, rfl, memo⟩
  · obtain ⟨silent, outcome, fallen, removed⟩ := retuneA_ends (s := s') (f := ⟨band, w.toNat⟩) (r := (.tuneA, .tuned)) unwatched
      announcing source held wf
    rw [offered.traffic]
    exact ⟨silent, outcome, fallen.of_shiftOut.kept offered.latched, fun c hc h => (offered.closes.claim _).trans (removed c hc h)⟩

end Sys2Proof.Machine
end
